-- ==== Sys2Proof/Word.lean ====
section
/-! DEFINITION. The word types of the machine and their plainest arithmetic (00 R2, R3). -/

namespace Sys2Proof

/-- A byte of memory. -/
abbrev Byte := BitVec 8

/-- A 32-bit value: an instruction word, a tile lane, a packet word. -/
abbrev Word := BitVec 32

/-- A 64-bit value: an index register, an address. -/
abbrev Dword := BitVec 64

/-- A five-bit index-register number (02 R24). -/
abbrev XReg := BitVec 5

/-- A three-bit predicate number (02 R24). -/
abbrev PReg := BitVec 3

/-- A six-bit tile operand code (02 R25). -/
abbrev TileCode := BitVec 6

/-- The value of a list of bytes, the first the least significant (00 R3). -/
def leNat : List Byte → Nat
  | [] => 0
  | b :: bs => b.toNat + 256 * leNat bs

/-- The `n` low bytes of a number, the least significant first (00 R3). -/
def leBytes : Nat → Nat → List Byte
  | 0, _ => []
  | n + 1, v => BitVec.ofNat 8 v :: leBytes n (v / 256)

end Sys2Proof
end

