-- ==== Sys2Proof/Syntax.lean ====
section
/-! DEFINITION. The instructions and steps of the part: one constructor for each row of the opcode table. The encoded
forms carry their header and their operand fields, highest bits first (02 R16, R23); the other rows are the part's own steps
and its events (95), with the operands each needs. -/

namespace Sys2Proof

/-- The fields of the first word that every form carries besides its opcode: extra idle cycles before issue and the
squash bit (02 R16, R18, R19). -/
structure Hdr where
  idle : BitVec 2
  sq : Bool
  deriving DecidableEq, Repr

/-- The four kinds of sequencer (01 R9, Table 1-3). -/
inductive SeqName
  | scl | ld | cmp | st
  deriving DecidableEq, Repr

/-- A unit that holds sequencers: compute cores 0 to 31, then shepherd-core sites 32 to 39 (01 R7, Table 1-2). -/
abbrev UnitId := Fin 40

/-- A command queue (14 R292). -/
abbrev QueueId := Fin 256

/-- A partition (01 R13). -/
abbrev PartId := Fin 16

/-- A Wying port (01 R6). -/
abbrev PortId := Fin 12

/-- One of the 64 receive descriptors, handles or exact send slots of a shepherd core (12 R248, R253, R263). -/
abbrev Idx64 := Fin 64

/-- One sequencer of the package (01 R9). -/
structure SeqId where
  unit : UnitId
  q : SeqName
  deriving DecidableEq, Repr

/-- A block of a packet: 256 bytes and whether its CRC-32 holds on arrival (12 R240). -/
structure Block where
  data : List Byte
  crcOk : Bool
  deriving DecidableEq, Repr

/-- A packet as its header beat and blocks give it (12 R241, Table 12-1). -/
structure Packet where
  exact : Bool
  kind : Nat
  hop : Nat
  rank : Nat
  die : Nat
  slot : Nat
  fn : Nat
  size : Bool
  tag : Nat
  dest : Dword
  route : List (BitVec 16)
  counts : List Nat
  blocks : List Block
  crcOk : Bool
  reserved : Bool
  deriving DecidableEq, Repr

/-- A packet whose header beat is available at an arrival port on a cycle (12 R239, R242). -/
structure Arrival where
  port : PortId
  cyc : Nat
  pkt : Packet
  deriving DecidableEq, Repr

/-- The kinds of notice (13 R276). -/
inductive NoticeKind
  | lower | raise
  /-- admits or removes a rank; `asker` is the number of the joiner's word that it answers, `others` the ranks of the group at its issue
  (log 29) -/
  | member (rank : Nat) (joins : Bool) (asker : Nat) (others : List Nat)
  /-- a joiner that is ready, or a member that leaves, tells the bellwether (log 29) -/
  | ask (joins : Bool)
  deriving DecidableEq, Repr

/-- A notice: kind, code, instant and time of issue, with the origin and number that identify it (13 R271, R276). -/
structure NoticeWord where
  kind : NoticeKind
  code : Nat
  x : Nat
  issue : Nat
  origin : Nat
  num : Nat
  deriving DecidableEq, Repr

/-- A fault notice: the ranks it names and its instant (13 R271, R279). -/
structure FaultWord where
  ranks : List Nat
  g : Nat
  origin : Nat
  num : Nat
  deriving DecidableEq, Repr

/-- The sources of a security alarm (17 Table 17-5). -/
inductive AlarmSource
  | tamper | voltage | clock | temperature
  deriving DecidableEq, Repr

/-- What the monitor sees of a source: that it leaves its range, which raises an alarm (17 R365), or that it is `back` in it (17 R366). -/
structure AlarmReport where
  src : AlarmSource
  back : Bool
  deriving DecidableEq, Repr

/-- What the monitor forecasts for an instant: for a number of limit codes the package power in watts and the hottest junction in °C with
the package at that code (17 R368). -/
structure Forecast where
  points : List (Nat × Nat × Nat)
  deriving DecidableEq, Repr

/-- A configuration request of a host port: a write that lets a PASID use CXL.cache, or no longer, or any other request (17 R356, R359). -/
structure CfgRequest where
  port : Nat
  cache : Option (Nat × Bool)
  deriving DecidableEq, Repr

/-- The rights of a region guard, of which an access needs one (17 R361). -/
inductive GuardAccess
  | rd | wr | ex
  deriving DecidableEq, Repr

/-- The requests of SPDM that a requester sends to the DOE mailbox (17 R358, R364; log 39). -/
inductive SpdmMessage
  | version | capabilities | algorithms | digests | certificate
  | measurements (nonce : List Byte)
  deriving DecidableEq, Repr

/-- A request in the DOE mailbox of a host port (17 R358, R364). -/
structure SpdmRequest where
  port : Fin 2
  msg : SpdmMessage
  deriving DecidableEq, Repr

/-- The levels of a firmware core, the highest first (17 Table 17-4). -/
inductive FwLevel
  | monitor | scheduler | plugin
  deriving DecidableEq, Repr

/-- What a debugger changes in the saved context of a halted node (15 R330): registers, loops, return stack, mode, segment and remaining
budget of a sequencer; lanes, cells, slot bytes, scale entries and formats of a core; its special registers, streams and scratchpad. -/
inductive DebugEdit
  | x (q : SeqId) (r : BitVec 5) (v : Dword)
  | p (q : SeqId) (r : BitVec 3) (v : Bool)
  | pc (q : SeqId) (v : Dword)
  | loop (q : SeqId) (lvl : Fin 4) (active : Bool) (lc count start last : Dword)
  | stack (q : SeqId) (l : List Dword)
  | mode (q : SeqId) (aligned : Bool) (seg : BitVec 8) (budget : Nat)
  | lane (u : UnitId) (code i : Nat) (v : Word)
  | cell (u : UnitId) (c : Fin 4) (i : Nat) (v : Word)
  | kind (u : UnitId) (c : Fin 4) (int : Bool)
  | slot (u : UnitId) (plane : Bool) (n : Fin 8) (i : Nat) (b : Byte)
  | scale (u : UnitId) (i : Nat) (data : List Byte)
  | format (u : UnitId) (n : Fin 16) (v : BitVec 12)
  | stream (u : UnitId) (n : Fin 4) (ws : List Word)
  | shp (u : UnitId) (v : BitVec 8)
  | flags (u : UnitId) (v : BitVec 16)
  | tags (u : UnitId) (v : BitVec 64)
  | timeline (u : UnitId) (n : Fin 4) (v : Dword)
  | phase (q : SeqId) (lvl : Nat) (v : Bool)
  | spad (u : UnitId) (a : Nat) (b : Byte)
  deriving DecidableEq, Repr

/-- What firmware is asked for when it resumes a halted node: the node, and what the debugger changes before (15 R330, R331). -/
structure Resumption where
  nd : Nat
  edits : List DebugEdit
  deriving DecidableEq, Repr

/-- What firmware is asked for when one cut point issues: the sequencer, and what the debugger changes before (15 R330, R332). -/
structure StepCall where
  seq : SeqId
  edits : List DebugEdit
  deriving DecidableEq, Repr

/-- On whose behalf a pre-emption is asked for: a partition, and its waiting node (15 R318). -/
structure Claimant where
  part : PartId
  node : Nat
  deriving DecidableEq, Repr

/-- A tree neighbour whose beacon is heard: its rank, and the port it is heard on (13 R279, R281). -/
structure Neighbour where
  port : PortId
  rank : Nat
  deriving DecidableEq, Repr

/-- What firmware gives with a partition's target and ceiling: whether it is the fabric partition (14 R309) and the muster's interval in
microseconds, if it changes (15 R323). -/
structure PartRun where
  fabric : Bool
  musterUs : Option Nat
  deriving DecidableEq, Repr

/-- The context with which a queue is created (14 Table 14-1). -/
structure QueueCfg where
  part : PartId
  pasid : Nat
  drover : Nat
  ring : Dword
  ringWords : Nat
  cring : Dword
  cringRecs : Nat
  prio : Nat
  deriving DecidableEq, Repr

/-- The configuration that GJOIN's join block and the join itself give a package (14 Table 14-7, 13 R278, R281). -/
structure JoinCfg where
  tag : Nat
  parent : Nat
  alternate : Nat
  deputy : Nat
  leadUs : Nat
  deriving DecidableEq, Repr

/-- Every instruction and every step of the opcode table. -/
inductive Instr
  -- the shared subset (02 Table 2-7)
  | nop (h : Hdr)
  | wait (h : Hdr) (n : BitVec 21)
  | j (h : Hdr) (off : BitVec 21)
  | call (h : Hdr) (off : BitVec 21)
  | ret (h : Hdr)
  | loop (h : Hdr) (lvl : BitVec 2) (xa : XReg) (len : BitVec 14)
  | loopi (h : Hdr) (lvl : BitVec 2) (len : BitVec 14) (count : BitVec 32)
  | align (h : Hdr) (lvl : BitVec 2) (seg : BitVec 8) (xa : XReg) (budget : BitVec 32)
  | relax (h : Hdr)
  | bar (h : Hdr) (lvl : BitVec 3) (xt : XReg)
  | movi (h : Hdr) (xd : XReg) (imm : BitVec 16)
  | movw (h : Hdr) (xd : XReg) (imm : BitVec 32)
  | movh (h : Hdr) (xd : XReg) (imm : BitVec 32)
  | addi (h : Hdr) (xd xa : XReg) (imm : BitVec 11)
  | add (h : Hdr) (xd xa xb : XReg) (pg : PReg)
  | sub (h : Hdr) (xd xa xb : XReg) (pg : PReg)
  | and_ (h : Hdr) (xd xa xb : XReg) (pg : PReg)
  | or_ (h : Hdr) (xd xa xb : XReg) (pg : PReg)
  | xor_ (h : Hdr) (xd xa xb : XReg) (pg : PReg)
  | shl (h : Hdr) (xd xa xb : XReg) (pg : PReg)
  | shr (h : Hdr) (xd xa xb : XReg) (pg : PReg)
  | sar (h : Hdr) (xd xa xb : XReg) (pg : PReg)
  | andi (h : Hdr) (xd xa : XReg) (imm : BitVec 8)
  | ori (h : Hdr) (xd xa : XReg) (imm : BitVec 8)
  | xori (h : Hdr) (xd xa : XReg) (imm : BitVec 8)
  | shli (h : Hdr) (xd xa : XReg) (imm : BitVec 8)
  | shri (h : Hdr) (xd xa : XReg) (imm : BitVec 8)
  | sari (h : Hdr) (xd xa : XReg) (imm : BitVec 8)
  | pcmp (h : Hdr) (pd : PReg) (xa xb : XReg) (cond : BitVec 3)
  | pcmpi (h : Hdr) (pd : PReg) (xa : XReg) (cond : BitVec 3) (imm : BitVec 10)
  | pand (h : Hdr) (pd pa pb : PReg)
  | por (h : Hdr) (pd pa pb : PReg)
  | pxor (h : Hdr) (pd pa pb : PReg)
  | pandn (h : Hdr) (pd pa pb : PReg)
  | sel (h : Hdr) (xd xa xb : XReg) (pg : PReg)
  | mfs (h : Hdr) (xd : XReg) (sreg : BitVec 12)
  | mts (h : Hdr) (xa : XReg) (sreg : BitVec 12)
  | fence (h : Hdr) (mask : BitVec 16) (scope : BitVec 3)
  | drain (h : Hdr) (mask : BitVec 16) (scope : BitVec 3)
  | waitany (h : Hdr) (xa xt : XReg)
  | waitall (h : Hdr) (xa xt : XReg)
  | ffrdy (h : Hdr) (pd : PReg) (xa : XReg)
  | waittl (h : Hdr) (ctx : BitVec 2) (xa xt : XReg)
  | tlrdy (h : Hdr) (pd : PReg) (ctx : BitVec 2) (xa : XReg)
  | end_ (h : Hdr)
  | trap (h : Hdr) (n : BitVec 21)
  | brk (h : Hdr) (n : BitVec 21)
  | chkP (h : Hdr) (p : PReg) (neg : BitVec 1)
  | chkF (h : Hdr) (mask : BitVec 16)
  -- the SCL space (02 Table 2-8)
  | mul (h : Hdr) (xd xa xb : XReg) (pg : PReg)
  | mulhs (h : Hdr) (xd xa xb : XReg) (pg : PReg)
  | mulhu (h : Hdr) (xd xa xb : XReg) (pg : PReg)
  | idiv (h : Hdr) (xd xa xb : XReg) (pg : PReg)
  | idivu (h : Hdr) (xd xa xb : XReg) (pg : PReg)
  | irem (h : Hdr) (xd xa xb : XReg) (pg : PReg)
  | iremu (h : Hdr) (xd xa xb : XReg) (pg : PReg)
  | min (h : Hdr) (xd xa xb : XReg) (pg : PReg)
  | max (h : Hdr) (xd xa xb : XReg) (pg : PReg)
  | minu (h : Hdr) (xd xa xb : XReg) (pg : PReg)
  | maxu (h : Hdr) (xd xa xb : XReg) (pg : PReg)
  | andn (h : Hdr) (xd xa xb : XReg) (pg : PReg)
  | orn (h : Hdr) (xd xa xb : XReg) (pg : PReg)
  | xnor (h : Hdr) (xd xa xb : XReg) (pg : PReg)
  | rol (h : Hdr) (xd xa xb : XReg) (pg : PReg)
  | ror (h : Hdr) (xd xa xb : XReg) (pg : PReg)
  | clz (h : Hdr) (xd xa : XReg) (pg : PReg)
  | ctz (h : Hdr) (xd xa : XReg) (pg : PReg)
  | popc (h : Hdr) (xd xa : XReg) (pg : PReg)
  | brev (h : Hdr) (xd xa : XReg) (pg : PReg)
  | bswap (h : Hdr) (xd xa : XReg) (pg : PReg)
  | setc (h : Hdr) (xd xa xb : XReg) (pg : PReg) (cond : BitVec 3)
  | br (h : Hdr) (p : PReg) (neg : BitVec 1) (off : BitVec 17)
  | beqz (h : Hdr) (xa : XReg) (off : BitVec 14)
  | bnez (h : Hdr) (xa : XReg) (off : BitVec 14)
  | bltz (h : Hdr) (xa : XReg) (off : BitVec 14)
  | bgez (h : Hdr) (xa : XReg) (off : BitVec 14)
  | jx (h : Hdr) (xa : XReg)
  | callx (h : Hdr) (xa : XReg)
  | xset (h : Hdr) (seq : BitVec 2) (xd xa : XReg)
  | xsetp (h : Hdr) (seq : BitVec 2) (pd ps : PReg)
  | sld (h : Hdr) (xd xa : XReg) (oc : BitVec 4) (ord : BitVec 3) (size : BitVec 2) (sx : BitVec 1)
  | sst (h : Hdr) (xd xa : XReg) (oc : BitVec 4) (ord : BitVec 3) (size : BitVec 2) (sx : BitVec 1)
  | sldDisp (h : Hdr) (xd xa : XReg) (oc : BitVec 4) (ord : BitVec 3) (size : BitVec 2) (sx : BitVec 1) (disp : BitVec 32)
  | sstDisp (h : Hdr) (xd xa : XReg) (oc : BitVec 4) (ord : BitVec 3) (size : BitVec 2) (sx : BitVec 1) (disp : BitVec 32)
  | satm (h : Hdr) (xd xa xb : XReg) (fn : BitVec 3) (size : BitVec 1) (oc : BitVec 4) (ord : BitVec 3) (xc : XReg)
  | waita (h : Hdr) (xa xb : XReg) (cond : BitVec 3) (xt : XReg) (size : BitVec 1) (oc : BitVec 4) (ord : BitVec 3)
  | rdt (h : Hdr) (xd : XReg)
  | rdc (h : Hdr) (xd : XReg)
  | rdslip (h : Hdr) (xd : XReg)
  | pitchq (h : Hdr) (xd : XReg)
  | pitchw (h : Hdr) (xa xt : XReg)
  | dronew (h : Hdr) (xa xt : XReg)
  | droneck (h : Hdr) (pd : PReg) (xa : XReg)
  | flgrd (h : Hdr) (xd : XReg)
  | flgclr (h : Hdr) (mask : BitVec 16)
  | flgtst (h : Hdr) (pd : PReg) (mask : BitVec 16)
  | stepreq (h : Hdr) (xa xt : XReg)
  | stepget (h : Hdr) (xd : XReg)
  | lnkst (h : Hdr) (xd : XReg) (port : BitVec 4)
  -- the LD space (02 Table 2-9)
  | ld (h : Hdr) (vt : TileCode) (xa : XReg) (oc : BitVec 4) (ord : BitVec 3)
  | ldDisp (h : Hdr) (vt : TileCode) (xa : XReg) (oc : BitVec 4) (ord : BitVec 3) (disp : BitVec 32)
  | ldb (h : Hdr) (vt vi : TileCode) (xa : XReg) (oc : BitVec 4) (budget : BitVec 9) (size : BitVec 2) (ord : BitVec 3)
  | pld (h : Hdr) (slot : BitVec 3) (xa : XReg) (oc planes : BitVec 4)
  | pldDisp (h : Hdr) (slot : BitVec 3) (xa : XReg) (oc planes : BitVec 4) (disp : BitVec 32)
  | rld (h : Hdr) (slot : BitVec 3) (xa : XReg) (oc : BitVec 4)
  | rldDisp (h : Hdr) (slot : BitVec 3) (xa : XReg) (oc : BitVec 4) (disp : BitVec 32)
  | sqld (h : Hdr) (xa : XReg) (oc : BitVec 4)
  | sqldDisp (h : Hdr) (xa : XReg) (oc : BitVec 4) (disp : BitVec 32)
  | rrot (h : Hdr) (xa xb : XReg) (dir : BitVec 1) (oc : BitVec 4)
  | cpy (h : Hdr) (xd xa xb : XReg) (tag : BitVec 6) (ctx : BitVec 2) (oc : BitVec 4) (ord : BitVec 3)
  | cpy2 (h : Hdr) (xd xa xb : XReg) (tag : BitVec 6) (ctx : BitVec 2) (oc : BitVec 4) (ord : BitVec 3) (xr xs xt : XReg)
  | cfill (h : Hdr) (xd xa xb : XReg) (tag : BitVec 6) (ctx : BitVec 2) (oc : BitVec 4) (ord : BitVec 3)
  | cpt (h : Hdr) (xd xa xb : XReg) (tag : BitVec 6) (ctx : BitVec 2) (oc : BitVec 4) (ord : BitVec 3) (xr xs xt : XReg) (fmt : BitVec 4)
  | tagclr (h : Hdr) (xa : XReg)
  | rxarm (h : Hdr) (xa : XReg) (rx : BitVec 6)
  | rxchk (h : Hdr) (pd : PReg) (rx : BitVec 6)
  | rxmsk (h : Hdr) (xd : XReg) (rx : BitVec 6)
  -- the CMP space (02 Table 2-10)
  | vfadd (h : Hdr) (vd va vb : TileCode) (pg : PReg)
  | vfsub (h : Hdr) (vd va vb : TileCode) (pg : PReg)
  | vfmul (h : Hdr) (vd va vb : TileCode) (pg : PReg)
  | vfma (h : Hdr) (vd va vb : TileCode) (pg : PReg) (vc : TileCode)
  | vfms (h : Hdr) (vd va vb : TileCode) (pg : PReg) (vc : TileCode)
  | vfnma (h : Hdr) (vd va vb : TileCode) (pg : PReg) (vc : TileCode)
  | vfmin (h : Hdr) (vd va vb : TileCode) (pg : PReg)
  | vfmax (h : Hdr) (vd va vb : TileCode) (pg : PReg)
  | vfabs (h : Hdr) (vd va : TileCode) (pg : PReg)
  | vfneg (h : Hdr) (vd va : TileCode) (pg : PReg)
  | vfceq (h : Hdr) (vd va vb : TileCode) (pg : PReg)
  | vfclt (h : Hdr) (vd va vb : TileCode) (pg : PReg)
  | vfcle (h : Hdr) (vd va vb : TileCode) (pg : PReg)
  | vfcun (h : Hdr) (vd va vb : TileCode) (pg : PReg)
  | viadd (h : Hdr) (vd va vb : TileCode) (pg : PReg)
  | visub (h : Hdr) (vd va vb : TileCode) (pg : PReg)
  | vimul (h : Hdr) (vd va vb : TileCode) (pg : PReg)
  | vimulh (h : Hdr) (vd va vb : TileCode) (pg : PReg)
  | vimin (h : Hdr) (vd va vb : TileCode) (pg : PReg)
  | vimax (h : Hdr) (vd va vb : TileCode) (pg : PReg)
  | vumin (h : Hdr) (vd va vb : TileCode) (pg : PReg)
  | vumax (h : Hdr) (vd va vb : TileCode) (pg : PReg)
  | viadds (h : Hdr) (vd va vb : TileCode) (pg : PReg)
  | visubs (h : Hdr) (vd va vb : TileCode) (pg : PReg)
  | vand (h : Hdr) (vd va vb : TileCode) (pg : PReg)
  | vor (h : Hdr) (vd va vb : TileCode) (pg : PReg)
  | vxor (h : Hdr) (vd va vb : TileCode) (pg : PReg)
  | vandn (h : Hdr) (vd va vb : TileCode) (pg : PReg)
  | vshl (h : Hdr) (vd va vb : TileCode) (pg : PReg)
  | vshr (h : Hdr) (vd va vb : TileCode) (pg : PReg)
  | vsar (h : Hdr) (vd va vb : TileCode) (pg : PReg)
  | viceq (h : Hdr) (vd va vb : TileCode) (pg : PReg)
  | viclt (h : Hdr) (vd va vb : TileCode) (pg : PReg)
  | vuclt (h : Hdr) (vd va vb : TileCode) (pg : PReg)
  | vmov (h : Hdr) (vd va : TileCode) (pg : PReg)
  | vxm (h : Hdr) (vd va : TileCode) (pg : PReg)
  | vsel (h : Hdr) (vd va vb : TileCode) (pg : PReg) (vc : TileCode)
  | vbcast (h : Hdr) (vd : TileCode) (xa : XReg) (pg : PReg)
  | vget (h : Hdr) (xd : XReg) (va : TileCode) (lane : BitVec 8)
  | vcvt (h : Hdr) (vd va : TileCode) (src dst : BitVec 4) (sat : BitVec 1)
  | vpush (h : Hdr) (q : BitVec 2) (va vm : TileCode) (pg : PReg)
  | vpop (h : Hdr) (q : BitVec 2) (vd : TileCode) (xd : XReg)
  | vqcnt (h : Hdr) (xd : XReg) (q : BitVec 2)
  | shape (h : Hdr) (rows cols : BitVec 4)
  | exp2 (h : Hdr) (vd va : TileCode) (pg : PReg)
  | log2 (h : Hdr) (vd va : TileCode) (pg : PReg)
  | rcp (h : Hdr) (vd va : TileCode) (pg : PReg)
  | rsq (h : Hdr) (vd va : TileCode) (pg : PReg)
  | sqrt (h : Hdr) (vd va : TileCode) (pg : PReg)
  | div (h : Hdr) (vd va vb : TileCode) (pg : PReg)
  | vrsum (h : Hdr) (vd va : TileCode) (pg : PReg)
  | vrisum (h : Hdr) (vd va : TileCode) (pg : PReg)
  | vrmax (h : Hdr) (vd va : TileCode) (nan : BitVec 1) (pg : PReg)
  | vrmin (h : Hdr) (vd va : TileCode) (nan : BitVec 1) (pg : PReg)
  | vrimax (h : Hdr) (vd va : TileCode) (pg : PReg)
  | vrimin (h : Hdr) (vd va : TileCode) (pg : PReg)
  | vrdot (h : Hdr) (vd va vb : TileCode) (pg : PReg)
  | vrlsum (h : Hdr) (vd va vb : TileCode) (pg : PReg)
  | vrscl (h : Hdr) (vd va vb : TileCode) (pg : PReg)
  | vmcnt (h : Hdr) (vd va : TileCode) (pg : PReg)
  | mma (h : Hdr) (c : BitVec 2) (pa pb : BitVec 3) (fsrc : BitVec 1) (lvl : BitVec 2) (planes fa fb : BitVec 4) (zero : BitVec 1) (kblk : BitVec 3)
  | mmas (h : Hdr) (c : BitVec 2) (pa pb : BitVec 3) (fsrc : BitVec 1) (lvl : BitVec 2) (planes : BitVec 4) (pm : BitVec 3) (fa fb : BitVec 4) (zero : BitVec 1) (kblk : BitVec 3)
  | mclr (h : Hdr) (c : BitVec 2)
  | accmv (h : Hdr) (vt : TileCode) (c : BitVec 2) (row0 : BitVec 7) (pg : PReg) (col0 : BitVec 8) (fmt : BitVec 4) (sat tr : BitVec 1)
  | accin (h : Hdr) (vt : TileCode) (c : BitVec 2) (row0 : BitVec 7) (pg : PReg) (col0 : BitVec 8) (fmt : BitVec 4) (sat tr : BitVec 1)
  | ftset (h : Hdr) (ft : BitVec 4) (xa : XReg)
  | ftget (h : Hdr) (xd : XReg) (ft : BitVec 4)
  | sqcnt (h : Hdr) (xd : XReg)
  | sqdrop (h : Hdr) (xa : XReg)
  -- the ST space (02 Table 2-11)
  | st (h : Hdr) (vt : TileCode) (xa : XReg) (oc : BitVec 4) (ord : BitVec 3)
  | stDisp (h : Hdr) (vt : TileCode) (xa : XReg) (oc : BitVec 4) (ord : BitVec 3) (disp : BitVec 32)
  | stb (h : Hdr) (vt vi : TileCode) (xa : XReg) (oc : BitVec 4) (budget : BitVec 9) (size : BitVec 2) (ord : BitVec 3)
  | atm (h : Hdr) (xd xa xb : XReg) (fn : BitVec 3) (size : BitVec 1) (oc : BitVec 4) (ord : BitVec 3) (xc : XReg)
  | rst (h : Hdr) (xa xb xc : XReg) (cls : BitVec 1) (xr : XReg)
  | rsig (h : Hdr) (xa xb xr : XReg)
  | ratm (h : Hdr) (xd xa xb : XReg) (fn : BitVec 3) (size : BitVec 1) (xr xc : XReg)
  | coll (h : Hdr) (xa : XReg) (hd : BitVec 6)
  | collw (h : Hdr) (hd : BitVec 6) (xt : XReg)
  | a2a (h : Hdr) (xa xb : XReg) (hd : BitVec 6)
  | psend (h : Hdr) (xa : XReg)
  | guard (h : Hdr) (port : BitVec 4) (beats : BitVec 8)
  -- the steps of the part and the events from outside it (95)
  /-- R87: releases rendezvous k of level lvl and makes its members aligned. -/
  | alignRelease (who : List SeqId) (lvl : Nat) (k : Nat)
  /-- R89: CYC reaches the deadline of the segment numbered serial. -/
  | segmentDeadline (q : SeqId) (serial : Nat)
  /-- R95: the fold of these members completes. -/
  | barComplete (who : List SeqId) (lvl : Nat)
  /-- R230: the timeout of the wait begun on t0 expires. -/
  | waitTimeout (q : SeqId) (t0 : Nat)
  /-- R119: branch id of that core's SCL resolves. -/
  | branchResolve (unit : UnitId) (id : Nat)
  /-- R237: a WAITA begun on t0 reads its word again. -/
  | waitaReread (q : SeqId) (t0 : Nat)
  /-- R289: drone time reaches the instant a DRONEW waits for. -/
  | droneInstantReached (q : SeqId) (t0 : Nat)
  /-- R206: every destination write of the copy is performed. -/
  | copyComplete (unit : UnitId) (serial : Nat)
  /-- R264: step j of the route program of handle hd. -/
  | collStep (unit : UnitId) (hd : Idx64) (j : Nat)
  /-- R291: a declared guard interval starts, or waits for idle channels. -/
  | guardIntervalStart (unit : UnitId) (port : PortId) (beats : Nat) (aligned : Bool) (pc : Dword)
  /-- R257: a buffered signal is performed once no covering descriptor is open. -/
  | signalAdd (id : Nat)
  /-- R261: a buffered atomic is performed and its reply sent. -/
  | remoteAtomic (id : Nat)
  /-- R265: a stage-1 packet is regrouped by rail and sent on. -/
  | exchangeStage1 (a : Arrival)
  /-- R265: a stage-2 packet delivers its tokens. -/
  | exchangeStage2 (a : Arrival)
  /-- R250: a LOSSY descriptor reaches its close cycle. -/
  | descriptorClose (unit : UnitId) (rx : Idx64) (serial : Nat)
  /-- R279: no beacon from this neighbour for 200 us. -/
  | silence (rank : Nat)
  /-- R277: the notices that fall at instant x are applied. -/
  | noticeApply (x : Nat)
  /-- R304: the controller tries to place the waiting launch. -/
  | variantPlacement (nd : Nat)
  /-- R305: the arm cycle T0 of the node. -/
  | nodeArm (nd : Nat)
  /-- R301: the drover reads a SEMWAIT's semaphore again. -/
  | semaphorePoll (q : QueueId) (sq : Nat)
  /-- R301: a SEMWAIT's timeout has passed. -/
  | semwaitTimeout (q : QueueId) (sq : Nat)
  /-- R299: a SEMWAIT has waited 1 ms. -/
  | park (q : QueueId) (sq : Nat)
  /-- R299: a parked queue's semaphore is read. -/
  | parkedPoll (q : QueueId) (sq : Nat)
  /-- R58: no node of the retiring image remains. -/
  | imageRelease (image : Nat)
  /-- R310: the oldest due record is written. -/
  | completionRecordWrite (q : QueueId)
  /-- R307: a free core is granted to the partition. -/
  | coreGrant (part : PartId) (core : UnitId)
  /-- R308: a border move ends. -/
  | borderMove (part : PartId) (core : UnitId)
  /-- R342: the memory manager writes page-table entries. -/
  | pageMapping (pasid : Nat) (root : Option Nat) (writes : List (Nat × Dword))
  /-- R349: a snapshot is mapped read-only into a context. -/
  | snapshotMap (part : PartId) (id : Nat) (pasid : Nat)
  /-- R349: a snapshot is released. -/
  | snapshotRelease (part : PartId) (id : Nat)
  /-- R350: a tainted node's pre-images are restored. -/
  | taintRestore (nd : Nat)
  /-- R308, R318: a request to pre-empt the node on behalf of the partition. -/
  | preemptionRequest (nd : Nat) (asker : Claimant)
  /-- R306: CYC reaches T0 plus the budget. -/
  | nodeBudgetExpiry (nd : Nat) (attempt : Nat)
  /-- R319: after the end cycle. -/
  | nodeEnd (nd : Nat)
  /-- R320: the staged pages are swapped in. -/
  | commit (nd : Nat)
  /-- R321: the coordinator's decision arrives. -/
  | groupDecision (nd : Nat) (yes : Bool)
  /-- R321: 1 ms after the coordinator's own vote. -/
  | voteTimeout (nd : Nat)
  /-- R322: 2 ms after the part's commit vote. -/
  | inDoubt (nd : Nat)
  /-- R324, R325: a muster run ends. -/
  | musterResult (unit : UnitId) (ok : Bool)
  /-- R323: the die's active shepherd is exchanged with its spare. -/
  | shepherdExchange (die : Fin 4)
  /-- R211: data or an acknowledgement returns. -/
  | requestReturn (id : Nat)
  /-- R341: the translation of a request completes. -/
  | pageWalk (id : Nat)
  /-- R343: system software releases a held re-queue. -/
  | holdRelease (nd : Nat)
  /-- R329, R330: the debugger requests a halt, or a halt's save is due. -/
  | debugHalt (nd : Nat)
  /-- R331: firmware resumes a halted node. -/
  | debugResume (call : Resumption)
  /-- R280: the earliest instant G is reached. -/
  | groupFault
  /-- R276: the bellwether's 10 ms proposal. -/
  | raiseProposal
  /-- R273: SLIP has reached zero. -/
  | catchUpEnd
  /-- R283: the package enters emergency throttle. -/
  | emergencyThrottle
  /-- R354: the hub runs its next power-on step. -/
  | powerOn
  /-- R323: the instant of the next muster run. -/
  | musterTake
  /-- R366: the monitor clears ALARM. -/
  | alarmClear
  /-- R273: a droop ends. -/
  | catchUp
  /-- R88, R95: the announcement of the package of that rank arrives for group rendezvous k, or its arrival at the k-th group BAR. -/
  | groupAnnouncement (rank : Nat) (k : Nat) (d : Dword) (bar : Bool)
  /-- R242: a hop forwards an arriving packet. -/
  | fwd (a : Arrival)
  /-- R249: a hop delivers an arriving packet. -/
  | dlv (a : Arrival)
  /-- R242: a hop delivers and forwards. -/
  | dup (a : Arrival)
  /-- R242: a packet reaches an END entry. -/
  | routeEnd (a : Arrival)
  /-- R261: the reply lands the old value and frees the slot. -/
  | atomicReply (unit : UnitId) (slot : Idx64) (old : Dword)
  /-- R253: a slot-free notice frees its slot or a send of a handle. -/
  | slotFreeNotice (unit : UnitId) (slot : Idx64) (handle : Option Idx64)
  /-- R252: a beat on the exact channel is replayed; ok tells whether the replay succeeded. -/
  | linkReplay (port : PortId) (ok : Bool)
  /-- R255: an elastic buffer reaches this fill. -/
  | elasticBufferLimit (port : PortId) (fill : Nat)
  /-- R252, R359: a Wying port (0-11) or host port (12, 13) goes down. -/
  | linkDown (port : Nat)
  /-- R269: a two-way stamp exchange with the parent. -/
  | droneExchange (t1 : Nat) (t2 : Nat) (t3 : Nat) (t4 : Nat) (asym : Int)
  /-- R279: a beacon of a tree neighbour arrives. -/
  | beacon (src : Neighbour) (lim : Nat) (slip : Nat) (lowest : Nat) (silent : List Nat)
  /-- R280: a flooded fault notice arrives. -/
  | faultNotice (n : FaultWord)
  /-- R276: a flooded notice arrives. -/
  | notice (n : NoticeWord)
  /-- R276, R368: the monitor's forecast for instant y. -/
  | lowerNotice (code : Forecast) (y : Nat)
  /-- R273: this many cycles are lost to droop. -/
  | supplyDroop (lost : Nat)
  /-- R356: a PCIe configuration request arrives. -/
  | configurationRequest (port : CfgRequest)
  /-- R295: a host write to TAIL. -/
  | tail (q : QueueId) (v : Word)
  /-- R297: QCTL RESUME. -/
  | resume (q : QueueId)
  /-- R297: QCTL RESET. -/
  | reset (q : QueueId)
  /-- R294: a write to another offset of a notify page. -/
  | registerWrite (q : QueueId) (off : Nat) (size : Nat) (v : Dword)
  /-- R301: the NOP packet at HEAD. -/
  | nopPacket (q : QueueId)
  /-- R303: the LAUNCH packet at HEAD. -/
  | launch (q : QueueId)
  /-- R301: the SEMWAIT packet at HEAD. -/
  | semwait (q : QueueId)
  /-- R301: the SEMSIG packet at HEAD. -/
  | semsig (q : QueueId)
  /-- R301: the MARK packet at HEAD. -/
  | mark (q : QueueId)
  /-- R301: the FENCE packet at HEAD. -/
  | fencePacket (q : QueueId)
  /-- R347: the SNAP packet at HEAD. -/
  | snap (q : QueueId)
  /-- R348: the ROLL packet at HEAD. -/
  | roll (q : QueueId)
  /-- R322: the COMMIT-VOTE packet at HEAD. -/
  | commitVote (q : QueueId)
  /-- R278, R302: the GJOIN packet at HEAD. -/
  | gjoin (q : QueueId)
  /-- R278, R302: the GLEAVE packet at HEAD. -/
  | gleave (q : QueueId)
  /-- R54: the PIN packet at HEAD. -/
  | pin (q : QueueId)
  /-- R58: the UNPIN packet at HEAD. -/
  | unpin (q : QueueId)
  /-- R328, R365: the monitor raises an alarm. -/
  | securityAlarm (src : AlarmReport)
  /-- R332: one cut point of a halted node issues. -/
  | singleStep (call : StepCall)
  /-- R321: a vote arrives at the coordinator. -/
  | groupVote (nd : Nat) (rank : Nat) (yes : Bool)
  /-- R350: a tainted node's pre-images are freed. -/
  | taintRelease (nd : Nat)
  /-- R352: a wrapped key is loaded into a slot. -/
  | keyLoad (slot : Nat) (blob : List Byte)
  /-- R363: an image key set is loaded. -/
  | keySetLoad (part : PartId) (keys : List (List Byte)) (reqsig : Bool) (sig : List Byte)
  /-- R307: a partition is configured. -/
  | partitionConfig (part : PartId) (target : Nat) (ceiling : Nat) (run : PartRun)
  /-- R309: the fabric partition and its detour map change. -/
  | fabricPartitionSet (part : PartId) (detour : Nat)
  /-- R292: a queue is created, or destroyed. -/
  | queueCreate (q : QueueId) (cfg : Option QueueCfg)
  /-- R367: a quarantined unit is reinstated. -/
  | unitReinstate (unit : UnitId)
  /-- R367: one die's firmware is updated. -/
  | dieFirmwareUpdate (die : Fin 4) (version : Nat) (image : List Byte) (sig : List Byte)
  /-- R367: a link is re-trained within a guard interval. -/
  | linkRetrain (port : PortId) (reach : Nat)
  /-- R367: one LPDDR interface re-trains. -/
  | memoryRetrain (iface : Nat) (cycles : Nat)
  /-- R361: a plug-in access meets the region guards. -/
  | regionGuardViolation (core : Fin 8) (part : PartId) (addr : Nat) (write : GuardAccess)
  /-- R364: an attestation request arrives. -/
  | attestation (nonce : SpdmRequest)
  /-- R315: system software reads a queue's fault record. -/
  | faultRecordRead (q : QueueId)
  /-- R251: a hop combines an arriving packet. -/
  | rdcHop (a : Arrival)
  /-- R239: a port completes training with this reach. -/
  | linkTraining (port : PortId) (reach : Nat)
  /-- R300: a header that fails its check. -/
  | reservedTypePacket (q : QueueId)
  /-- R343: frames are assigned to or taken from a pool. -/
  | versionPool (part : PartId) (add : List (Nat × Bool)) (remove : List Nat)
  /-- R329: a queue is marked debuggable. -/
  | debuggable (q : QueueId) (on : Bool)
  deriving DecidableEq, Repr

end Sys2Proof
end

