-- ==== Sys2Proof/WellFormed.lean ====
section
/-! DEFINITION. Which instructions a word may stand for: the checks of the operand fields (02 R19, R23 to R32, R38). -/

namespace Sys2Proof

/-- Special registers that `MFS` reads: every listed number, but SHP and FLAGS on a shepherd core (02 R32, Table 2-6). -/
def sregReadable (sh : Bool) (sreg : BitVec 12) : Bool :=
  let n := sreg.toNat
  (n ≤ 0x00C || (0x010 ≤ n && n ≤ 0x013)) && !(sh && (n == 0x007 || n == 0x009))

/-- Special registers that `MTS` writes: FLAGS and SHP of a compute core (02 R32, Table 2-6). -/
def sregWritable (sh : Bool) (sreg : BitVec 12) : Bool :=
  (sreg.toNat == 0x007 || sreg.toNat == 0x009) && !sh

/-- A tile code that a destination field accepts (02 R26). -/
def dstTile (v : TileCode) : Bool := v.toNat ≤ 35

/-- A tile code that a source field accepts (02 R26). -/
def srcTile (v : TileCode) : Bool := v.toNat ≤ 39

/-- A register of cluster A (02 Table 2-4). -/
def inClusterA (v : TileCode) : Bool := v.toNat ≤ 15

/-- A register of cluster B (02 Table 2-4). -/
def inClusterB (v : TileCode) : Bool := 16 ≤ v.toNat && v.toNat ≤ 31

/-- No CMP form but `VXM` names registers of both clusters (02 R26). -/
def oneCluster (vs : List TileCode) : Bool := !(vs.any inClusterA && vs.any inClusterB)

/-- `VXM` names one register of each cluster (02 R26). -/
def crossCluster (vd va : TileCode) : Bool :=
  (inClusterA vd && inClusterB va) || (inClusterB vd && inClusterA va)

/-- The formats that `VCVT` converts between (02 R30). -/
def cvtFormat (f : BitVec 4) : Bool := [0x0, 0x1, 0x2, 0x3, 0x4, 0x6, 0x7, 0xA].contains f.toNat

/-- The pairs that `VCVT` accepts (02 R30). -/
def cvtPair (src dst : BitVec 4) : Bool := cvtFormat src && cvtFormat dst && src != dst

/-- Floating-point matrix formats (02 R31). -/
def matrixFloat (f : BitVec 4) : Bool := 1 ≤ f.toNat && f.toNat ≤ 5

/-- Integer matrix formats (02 R31). -/
def matrixInt (f : BitVec 4) : Bool := f.toNat == 7 || f.toNat == 8

/-- The matrix formats (02 R31). -/
def matrixFormat (f : BitVec 4) : Bool := matrixFloat f || matrixInt f

/-- The formats that `ACCMV` writes (02 R31). -/
def accmvFormat (f : BitVec 4) : Bool := [0x0, 0x1, 0x2, 0x3, 0x4, 0x6, 0x7].contains f.toNat

/-- Mantissa width of a floating-point matrix format (02 R31). -/
def mantissaWidth (f : BitVec 4) : Nat :=
  match f.toNat with
  | 1 => 7
  | 2 => 10
  | 3 => 3
  | 4 => 2
  | 5 => 1
  | _ => 0

/-- Whether a planes field suits the format of the A operand (02 R31). -/
def planesSuit (planes fa : BitVec 4) : Bool :=
  planes == 15 || (matrixFloat fa && planes.toNat ≤ mantissaWidth fa)

/-- Whether a pair of formats and a plane count may be multiplied (02 R31). -/
def matrixTriple (planes fa fb : BitVec 4) : Bool :=
  ((matrixFloat fa && matrixFloat fb) || (matrixInt fa && matrixInt fb)) && planesSuit planes fa

/-- The matrix fields of a word (02 R31, 10 R194). -/
def mmaFields (fsrc : BitVec 1) (lvl : BitVec 2) (planes fa fb : BitVec 4) (_kblk : BitVec 3) : Bool :=
  if fsrc == 0 then lvl == 0 && matrixTriple planes fa fb
  else fa == 0 && fb == 0 && planes == 15

/-- Width in bits of a format (04 Table 4-1, 10 Table 10-1). -/
def formatWidth (f : BitVec 4) : Nat :=
  match f.toNat with
  | 0 | 6 | 10 => 32
  | 1 | 2 => 16
  | 5 | 8 => 4
  | _ => 8

/-- Whether the row slots that an instruction reads are at most eight (10 R186). -/
def rowSlotsFit (sparse : Bool) (fb : BitVec 4) (kblk : BitVec 3) : Bool :=
  (kblk.toNat + 1) * (if sparse then 16 else 32) * (16 * formatWidth fb) ≤ 8 * 4096

/-- Whether an instruction may be issued by a sequencer of kind `k` of a compute core (`sh` false) or a shepherd core
(`sh` true): SQ in the SCL stream alone, the C and S marks, and the operand fields (02 R19, R23 to R32, R38).  A step or an
event is no instruction of a stream. -/
def Instr.wf (k : SeqName) (sh : Bool) : Instr → Bool
  | .nop h => (!h.sq || k == .scl)
  | .wait h _ => (!h.sq || k == .scl)
  | .j h _ => (!h.sq || k == .scl)
  | .call h _ => (!h.sq || k == .scl)
  | .ret h => (!h.sq || k == .scl)
  | .loop h _ _ len => (!h.sq || k == .scl) && len != 0
  | .loopi h _ len _ => (!h.sq || k == .scl) && len != 0
  | .align h lvl _ xa budget => (!h.sq || k == .scl) && budget != 0 && (if lvl == 3 then xa != 0 else xa == 0)
  | .relax h => (!h.sq || k == .scl)
  | .bar h lvl _ => (!h.sq || k == .scl) && lvl.toNat < 5
  | .movi h _ _ => (!h.sq || k == .scl)
  | .movw h _ _ => (!h.sq || k == .scl)
  | .movh h _ _ => (!h.sq || k == .scl)
  | .addi h _ _ _ => (!h.sq || k == .scl)
  | .add h _ _ _ _ => (!h.sq || k == .scl)
  | .sub h _ _ _ _ => (!h.sq || k == .scl)
  | .and_ h _ _ _ _ => (!h.sq || k == .scl)
  | .or_ h _ _ _ _ => (!h.sq || k == .scl)
  | .xor_ h _ _ _ _ => (!h.sq || k == .scl)
  | .shl h _ _ _ _ => (!h.sq || k == .scl)
  | .shr h _ _ _ _ => (!h.sq || k == .scl)
  | .sar h _ _ _ _ => (!h.sq || k == .scl)
  | .andi h _ _ _ => (!h.sq || k == .scl)
  | .ori h _ _ _ => (!h.sq || k == .scl)
  | .xori h _ _ _ => (!h.sq || k == .scl)
  | .shli h _ _ imm => (!h.sq || k == .scl) && imm.toNat < 64
  | .shri h _ _ imm => (!h.sq || k == .scl) && imm.toNat < 64
  | .sari h _ _ imm => (!h.sq || k == .scl) && imm.toNat < 64
  | .pcmp h _ _ _ cond => (!h.sq || k == .scl) && cond.toNat < 6
  | .pcmpi h _ _ cond _ => (!h.sq || k == .scl) && cond.toNat < 6
  | .pand h _ _ _ => (!h.sq || k == .scl)
  | .por h _ _ _ => (!h.sq || k == .scl)
  | .pxor h _ _ _ => (!h.sq || k == .scl)
  | .pandn h _ _ _ => (!h.sq || k == .scl)
  | .sel h _ _ _ _ => (!h.sq || k == .scl)
  | .mfs h _ sreg => (!h.sq || k == .scl) && sregReadable sh sreg
  | .mts h _ sreg => (!h.sq || k == .scl) && sregWritable sh sreg
  | .fence h mask scope => (!h.sq || k == .scl) && mask != 0 && scope.toNat < 5
  | .drain h mask scope => (!h.sq || k == .scl) && mask != 0 && scope.toNat < 5
  | .waitany h _ _ => (!h.sq || k == .scl)
  | .waitall h _ _ => (!h.sq || k == .scl)
  | .ffrdy h _ _ => (!h.sq || k == .scl)
  | .waittl h _ _ _ => (!h.sq || k == .scl)
  | .tlrdy h _ _ _ => (!h.sq || k == .scl)
  | .end_ h => (!h.sq || k == .scl)
  | .trap h n => (!h.sq || k == .scl) && n.toNat < 65536
  | .brk h n => (!h.sq || k == .scl) && n.toNat < 65536
  | .chkP h _ _ => (!h.sq || k == .scl)
  | .chkF h mask => (!h.sq || k == .scl) && mask != 0
  | .mul _ _ _ _ _ => k == .scl
  | .mulhs _ _ _ _ _ => k == .scl
  | .mulhu _ _ _ _ _ => k == .scl
  | .idiv _ _ _ _ _ => k == .scl
  | .idivu _ _ _ _ _ => k == .scl
  | .irem _ _ _ _ _ => k == .scl
  | .iremu _ _ _ _ _ => k == .scl
  | .min _ _ _ _ _ => k == .scl
  | .max _ _ _ _ _ => k == .scl
  | .minu _ _ _ _ _ => k == .scl
  | .maxu _ _ _ _ _ => k == .scl
  | .andn _ _ _ _ _ => k == .scl
  | .orn _ _ _ _ _ => k == .scl
  | .xnor _ _ _ _ _ => k == .scl
  | .rol _ _ _ _ _ => k == .scl
  | .ror _ _ _ _ _ => k == .scl
  | .clz _ _ _ _ => k == .scl
  | .ctz _ _ _ _ => k == .scl
  | .popc _ _ _ _ => k == .scl
  | .brev _ _ _ _ => k == .scl
  | .bswap _ _ _ _ => k == .scl
  | .setc _ _ _ _ _ cond => k == .scl && cond.toNat < 6
  | .br _ _ _ _ => k == .scl
  | .beqz _ _ _ => k == .scl
  | .bnez _ _ _ => k == .scl
  | .bltz _ _ _ => k == .scl
  | .bgez _ _ _ => k == .scl
  | .jx _ _ => k == .scl
  | .callx _ _ => k == .scl
  | .xset _ seq _ _ => k == .scl && seq != 0 && !(sh && seq == 2)
  | .xsetp _ seq _ _ => k == .scl && seq != 0 && !(sh && seq == 2)
  | .sld _ _ _ _ ord size sx => k == .scl && ord != 2 && ord != 1 && !(sx == 1 && size == 3)
  | .sst _ _ _ _ ord _ sx => k == .scl && ord != 2 && sx == 0
  | .sldDisp _ _ _ _ ord size sx _ => k == .scl && ord != 2 && ord != 1 && !(sx == 1 && size == 3)
  | .sstDisp _ _ _ _ ord _ sx _ => k == .scl && ord != 2 && sx == 0
  | .satm _ _ _ _ fn _ _ ord xc => k == .scl && (ord != 1 && ord != 2 && (xc == 0 || fn == 7))
  | .waita _ _ _ cond _ _ _ ord => k == .scl && cond.toNat < 6 && ord != 1 && ord != 2
  | .rdt _ _ => k == .scl
  | .rdc _ _ => k == .scl
  | .rdslip _ _ => k == .scl
  | .pitchq _ _ => k == .scl
  | .pitchw _ _ _ => k == .scl
  | .dronew _ _ _ => k == .scl
  | .droneck _ _ _ => k == .scl
  | .flgrd _ _ => k == .scl
  | .flgclr _ mask => k == .scl && mask != 0
  | .flgtst _ _ mask => k == .scl && mask != 0
  | .stepreq _ _ _ => k == .scl && !sh
  | .stepget _ _ => k == .scl && sh
  | .lnkst _ _ port => k == .scl && sh && port.toNat < 12
  | .ld h vt _ _ ord => (!h.sq || k == .scl) && k == .ld && !sh && dstTile vt && ord != 2 && ord != 1
  | .ldDisp h vt _ _ ord _ => (!h.sq || k == .scl) && k == .ld && !sh && dstTile vt && ord != 2 && ord != 1
  | .ldb h vt vi _ _ budget size ord => (!h.sq || k == .scl) && k == .ld && !sh && dstTile vt && ord != 1 && srcTile vi && size != 3 && ord != 2 && budget.toNat ≤ 256
  | .pld h _ _ _ _ => (!h.sq || k == .scl) && k == .ld && !sh
  | .pldDisp h _ _ _ _ _ => (!h.sq || k == .scl) && k == .ld && !sh
  | .rld h _ _ _ => (!h.sq || k == .scl) && k == .ld && !sh
  | .rldDisp h _ _ _ _ => (!h.sq || k == .scl) && k == .ld && !sh
  | .sqld h _ _ => (!h.sq || k == .scl) && k == .ld && !sh
  | .sqldDisp h _ _ _ => (!h.sq || k == .scl) && k == .ld && !sh
  | .rrot h _ _ _ _ => (!h.sq || k == .scl) && k == .ld && !sh
  | .cpy h _ _ _ _ _ _ ord => (!h.sq || k == .scl) && k == .ld && ord != 1 && ord != 2
  | .cpy2 h _ _ _ _ _ _ ord _ _ _ => (!h.sq || k == .scl) && k == .ld && ord != 1 && ord != 2
  | .cfill h _ _ _ _ _ _ ord => (!h.sq || k == .scl) && k == .ld && ord != 1 && ord != 2
  | .cpt h _ _ _ _ _ _ ord _ _ _ fmt => (!h.sq || k == .scl) && k == .ld && ord != 1 && ord != 2 && matrixFormat fmt
  | .tagclr h _ => (!h.sq || k == .scl) && k == .ld
  | .rxarm h _ _ => (!h.sq || k == .scl) && k == .ld && sh
  | .rxchk h _ _ => (!h.sq || k == .scl) && k == .ld && sh
  | .rxmsk h _ _ => (!h.sq || k == .scl) && k == .ld && sh
  | .vfadd h vd va vb _ => (!h.sq || k == .scl) && k == .cmp && !sh && dstTile vd && srcTile va && srcTile vb && oneCluster [vd, va, vb]
  | .vfsub h vd va vb _ => (!h.sq || k == .scl) && k == .cmp && !sh && dstTile vd && srcTile va && srcTile vb && oneCluster [vd, va, vb]
  | .vfmul h vd va vb _ => (!h.sq || k == .scl) && k == .cmp && !sh && dstTile vd && srcTile va && srcTile vb && oneCluster [vd, va, vb]
  | .vfma h vd va vb _ vc => (!h.sq || k == .scl) && k == .cmp && !sh && dstTile vd && srcTile va && srcTile vb && srcTile vc && oneCluster [vd, va, vb, vc]
  | .vfms h vd va vb _ vc => (!h.sq || k == .scl) && k == .cmp && !sh && dstTile vd && srcTile va && srcTile vb && srcTile vc && oneCluster [vd, va, vb, vc]
  | .vfnma h vd va vb _ vc => (!h.sq || k == .scl) && k == .cmp && !sh && dstTile vd && srcTile va && srcTile vb && srcTile vc && oneCluster [vd, va, vb, vc]
  | .vfmin h vd va vb _ => (!h.sq || k == .scl) && k == .cmp && !sh && dstTile vd && srcTile va && srcTile vb && oneCluster [vd, va, vb]
  | .vfmax h vd va vb _ => (!h.sq || k == .scl) && k == .cmp && !sh && dstTile vd && srcTile va && srcTile vb && oneCluster [vd, va, vb]
  | .vfabs h vd va _ => (!h.sq || k == .scl) && k == .cmp && !sh && dstTile vd && srcTile va && oneCluster [vd, va]
  | .vfneg h vd va _ => (!h.sq || k == .scl) && k == .cmp && !sh && dstTile vd && srcTile va && oneCluster [vd, va]
  | .vfceq h vd va vb _ => (!h.sq || k == .scl) && k == .cmp && !sh && dstTile vd && srcTile va && srcTile vb && oneCluster [vd, va, vb]
  | .vfclt h vd va vb _ => (!h.sq || k == .scl) && k == .cmp && !sh && dstTile vd && srcTile va && srcTile vb && oneCluster [vd, va, vb]
  | .vfcle h vd va vb _ => (!h.sq || k == .scl) && k == .cmp && !sh && dstTile vd && srcTile va && srcTile vb && oneCluster [vd, va, vb]
  | .vfcun h vd va vb _ => (!h.sq || k == .scl) && k == .cmp && !sh && dstTile vd && srcTile va && srcTile vb && oneCluster [vd, va, vb]
  | .viadd h vd va vb _ => (!h.sq || k == .scl) && k == .cmp && !sh && dstTile vd && srcTile va && srcTile vb && oneCluster [vd, va, vb]
  | .visub h vd va vb _ => (!h.sq || k == .scl) && k == .cmp && !sh && dstTile vd && srcTile va && srcTile vb && oneCluster [vd, va, vb]
  | .vimul h vd va vb _ => (!h.sq || k == .scl) && k == .cmp && !sh && dstTile vd && srcTile va && srcTile vb && oneCluster [vd, va, vb]
  | .vimulh h vd va vb _ => (!h.sq || k == .scl) && k == .cmp && !sh && dstTile vd && srcTile va && srcTile vb && oneCluster [vd, va, vb]
  | .vimin h vd va vb _ => (!h.sq || k == .scl) && k == .cmp && !sh && dstTile vd && srcTile va && srcTile vb && oneCluster [vd, va, vb]
  | .vimax h vd va vb _ => (!h.sq || k == .scl) && k == .cmp && !sh && dstTile vd && srcTile va && srcTile vb && oneCluster [vd, va, vb]
  | .vumin h vd va vb _ => (!h.sq || k == .scl) && k == .cmp && !sh && dstTile vd && srcTile va && srcTile vb && oneCluster [vd, va, vb]
  | .vumax h vd va vb _ => (!h.sq || k == .scl) && k == .cmp && !sh && dstTile vd && srcTile va && srcTile vb && oneCluster [vd, va, vb]
  | .viadds h vd va vb _ => (!h.sq || k == .scl) && k == .cmp && !sh && dstTile vd && srcTile va && srcTile vb && oneCluster [vd, va, vb]
  | .visubs h vd va vb _ => (!h.sq || k == .scl) && k == .cmp && !sh && dstTile vd && srcTile va && srcTile vb && oneCluster [vd, va, vb]
  | .vand h vd va vb _ => (!h.sq || k == .scl) && k == .cmp && !sh && dstTile vd && srcTile va && srcTile vb && oneCluster [vd, va, vb]
  | .vor h vd va vb _ => (!h.sq || k == .scl) && k == .cmp && !sh && dstTile vd && srcTile va && srcTile vb && oneCluster [vd, va, vb]
  | .vxor h vd va vb _ => (!h.sq || k == .scl) && k == .cmp && !sh && dstTile vd && srcTile va && srcTile vb && oneCluster [vd, va, vb]
  | .vandn h vd va vb _ => (!h.sq || k == .scl) && k == .cmp && !sh && dstTile vd && srcTile va && srcTile vb && oneCluster [vd, va, vb]
  | .vshl h vd va vb _ => (!h.sq || k == .scl) && k == .cmp && !sh && dstTile vd && srcTile va && srcTile vb && oneCluster [vd, va, vb]
  | .vshr h vd va vb _ => (!h.sq || k == .scl) && k == .cmp && !sh && dstTile vd && srcTile va && srcTile vb && oneCluster [vd, va, vb]
  | .vsar h vd va vb _ => (!h.sq || k == .scl) && k == .cmp && !sh && dstTile vd && srcTile va && srcTile vb && oneCluster [vd, va, vb]
  | .viceq h vd va vb _ => (!h.sq || k == .scl) && k == .cmp && !sh && dstTile vd && srcTile va && srcTile vb && oneCluster [vd, va, vb]
  | .viclt h vd va vb _ => (!h.sq || k == .scl) && k == .cmp && !sh && dstTile vd && srcTile va && srcTile vb && oneCluster [vd, va, vb]
  | .vuclt h vd va vb _ => (!h.sq || k == .scl) && k == .cmp && !sh && dstTile vd && srcTile va && srcTile vb && oneCluster [vd, va, vb]
  | .vmov h vd va _ => (!h.sq || k == .scl) && k == .cmp && !sh && dstTile vd && srcTile va && oneCluster [vd, va]
  | .vxm h vd va _ => (!h.sq || k == .scl) && k == .cmp && !sh && dstTile vd && srcTile va && crossCluster vd va
  | .vsel h vd va vb _ vc => (!h.sq || k == .scl) && k == .cmp && !sh && dstTile vd && srcTile va && srcTile vb && srcTile vc && oneCluster [vd, va, vb, vc]
  | .vbcast h vd _ _ => (!h.sq || k == .scl) && k == .cmp && !sh && dstTile vd
  | .vget h _ va _ => (!h.sq || k == .scl) && k == .cmp && !sh && srcTile va
  | .vcvt h vd va src dst _ => (!h.sq || k == .scl) && k == .cmp && !sh && dstTile vd && srcTile va && oneCluster [vd, va] && cvtPair src dst
  | .vpush h _ va vm _ => (!h.sq || k == .scl) && k == .cmp && !sh && srcTile va && srcTile vm && oneCluster [va, vm]
  | .vpop h _ vd _ => (!h.sq || k == .scl) && k == .cmp && !sh && dstTile vd
  | .vqcnt h _ _ => (!h.sq || k == .scl) && k == .cmp && !sh
  | .shape h _ _ => (!h.sq || k == .scl) && k == .cmp && !sh
  | .exp2 h vd va _ => (!h.sq || k == .scl) && k == .cmp && !sh && dstTile vd && srcTile va && oneCluster [vd, va]
  | .log2 h vd va _ => (!h.sq || k == .scl) && k == .cmp && !sh && dstTile vd && srcTile va && oneCluster [vd, va]
  | .rcp h vd va _ => (!h.sq || k == .scl) && k == .cmp && !sh && dstTile vd && srcTile va && oneCluster [vd, va]
  | .rsq h vd va _ => (!h.sq || k == .scl) && k == .cmp && !sh && dstTile vd && srcTile va && oneCluster [vd, va]
  | .sqrt h vd va _ => (!h.sq || k == .scl) && k == .cmp && !sh && dstTile vd && srcTile va && oneCluster [vd, va]
  | .div h vd va vb _ => (!h.sq || k == .scl) && k == .cmp && !sh && dstTile vd && srcTile va && srcTile vb && oneCluster [vd, va, vb]
  | .vrsum h vd va _ => (!h.sq || k == .scl) && k == .cmp && !sh && dstTile vd && srcTile va && oneCluster [vd, va]
  | .vrisum h vd va _ => (!h.sq || k == .scl) && k == .cmp && !sh && dstTile vd && srcTile va && oneCluster [vd, va]
  | .vrmax h vd va _ _ => (!h.sq || k == .scl) && k == .cmp && !sh && dstTile vd && srcTile va && oneCluster [vd, va]
  | .vrmin h vd va _ _ => (!h.sq || k == .scl) && k == .cmp && !sh && dstTile vd && srcTile va && oneCluster [vd, va]
  | .vrimax h vd va _ => (!h.sq || k == .scl) && k == .cmp && !sh && dstTile vd && srcTile va && oneCluster [vd, va]
  | .vrimin h vd va _ => (!h.sq || k == .scl) && k == .cmp && !sh && dstTile vd && srcTile va && oneCluster [vd, va]
  | .vrdot h vd va vb _ => (!h.sq || k == .scl) && k == .cmp && !sh && dstTile vd && srcTile va && srcTile vb && oneCluster [vd, va, vb]
  | .vrlsum h vd va vb _ => (!h.sq || k == .scl) && k == .cmp && !sh && dstTile vd && srcTile va && srcTile vb && oneCluster [vd, va, vb]
  | .vrscl h vd va vb _ => (!h.sq || k == .scl) && k == .cmp && !sh && dstTile vd && srcTile va && srcTile vb && oneCluster [vd, va, vb]
  | .vmcnt h vd va _ => (!h.sq || k == .scl) && k == .cmp && !sh && dstTile vd && srcTile va && oneCluster [vd, va]
  | .mma h _ _ _ fsrc lvl planes fa fb _ kblk => (!h.sq || k == .scl) && k == .cmp && !sh && (mmaFields fsrc lvl planes fa fb kblk && (fsrc == 1 || rowSlotsFit false fb kblk))
  | .mmas h _ _ pb fsrc lvl planes pm fa fb _ kblk => (!h.sq || k == .scl) && k == .cmp && !sh && mmaFields fsrc lvl planes fa fb kblk && pm != pb
  | .mclr h _ => (!h.sq || k == .scl) && k == .cmp && !sh
  | .accmv h vt _ _ _ col0 fmt _ _ => (!h.sq || k == .scl) && k == .cmp && !sh && dstTile vt && col0.toNat ≤ 191 && accmvFormat fmt
  | .accin h vt _ _ _ col0 fmt sat _ => (!h.sq || k == .scl) && k == .cmp && !sh && (srcTile vt && col0.toNat ≤ 191 && (fmt == 0 || fmt == 6) && sat == 0)
  | .ftset h _ _ => (!h.sq || k == .scl) && k == .cmp && !sh
  | .ftget h _ _ => (!h.sq || k == .scl) && k == .cmp && !sh
  | .sqcnt h _ => (!h.sq || k == .scl) && k == .cmp && !sh
  | .sqdrop h _ => (!h.sq || k == .scl) && k == .cmp && !sh
  | .st h vt _ _ ord => (!h.sq || k == .scl) && k == .st && !sh && srcTile vt && ord != 2
  | .stDisp h vt _ _ ord _ => (!h.sq || k == .scl) && k == .st && !sh && srcTile vt && ord != 2
  | .stb h vt vi _ _ budget size ord => (!h.sq || k == .scl) && k == .st && !sh && srcTile vt && srcTile vi && size != 3 && ord != 2 && budget.toNat ≤ 256
  | .atm h _ _ _ fn _ _ ord xc => (!h.sq || k == .scl) && k == .st && (ord != 1 && ord != 2 && (xc == 0 || fn == 7))
  | .rst h _ _ _ _ _ => (!h.sq || k == .scl) && k == .st && sh
  | .rsig h _ _ _ => (!h.sq || k == .scl) && k == .st && sh
  | .ratm h _ _ _ fn _ _ xc => (!h.sq || k == .scl) && k == .st && sh && (xc == 0 || fn == 7)
  | .coll h _ _ => (!h.sq || k == .scl) && k == .st && sh
  | .collw h _ _ => (!h.sq || k == .scl) && k == .st && sh
  | .a2a h _ _ _ => (!h.sq || k == .scl) && k == .st && sh
  | .psend h _ => (!h.sq || k == .scl) && k == .st && sh
  | .guard h port beats => (!h.sq || k == .scl) && k == .st && sh && port.toNat < 12 && beats.toNat ≥ 32
  | .alignRelease _ _ _ => false
  | .segmentDeadline _ _ => false
  | .barComplete _ _ => false
  | .waitTimeout _ _ => false
  | .branchResolve _ _ => false
  | .waitaReread _ _ => false
  | .droneInstantReached _ _ => false
  | .copyComplete _ _ => false
  | .collStep _ _ _ => false
  | .guardIntervalStart _ _ _ _ _ => false
  | .signalAdd _ => false
  | .remoteAtomic _ => false
  | .exchangeStage1 _ => false
  | .exchangeStage2 _ => false
  | .descriptorClose _ _ _ => false
  | .silence _ => false
  | .noticeApply _ => false
  | .variantPlacement _ => false
  | .nodeArm _ => false
  | .semaphorePoll _ _ => false
  | .semwaitTimeout _ _ => false
  | .park _ _ => false
  | .parkedPoll _ _ => false
  | .imageRelease _ => false
  | .completionRecordWrite _ => false
  | .coreGrant _ _ => false
  | .borderMove _ _ => false
  | .preemptionRequest _ _ => false
  | .nodeBudgetExpiry _ _ => false
  | .nodeEnd _ => false
  | .commit _ => false
  | .groupVote _ _ _ => false
  | .groupDecision _ _ => false
  | .voteTimeout _ => false
  | .inDoubt _ => false
  | .musterResult _ _ => false
  | .shepherdExchange _ => false
  | .requestReturn _ => false
  | .pageWalk _ => false
  | .holdRelease _ => false
  | .debugHalt _ => false
  | .debugResume _ => false
  | .groupFault => false
  | .raiseProposal => false
  | .catchUpEnd => false
  | .emergencyThrottle => false
  | .powerOn => false
  | .musterTake => false
  | .alarmClear => false
  | .catchUp => false
  | .groupAnnouncement _ _ _ _ => false
  | .fwd _ => false
  | .dlv _ => false
  | .dup _ => false
  | .routeEnd _ => false
  | .atomicReply _ _ _ => false
  | .slotFreeNotice _ _ _ => false
  | .linkReplay _ _ => false
  | .elasticBufferLimit _ _ => false
  | .linkDown _ => false
  | .droneExchange _ _ _ _ _ => false
  | .beacon _ _ _ _ _ => false
  | .faultNotice _ => false
  | .notice _ => false
  | .lowerNotice _ _ => false
  | .supplyDroop _ => false
  | .configurationRequest _ => false
  | .tail _ _ => false
  | .resume _ => false
  | .reset _ => false
  | .registerWrite _ _ _ _ => false
  | .nopPacket _ => false
  | .launch _ => false
  | .semwait _ => false
  | .semsig _ => false
  | .mark _ => false
  | .fencePacket _ => false
  | .snap _ => false
  | .roll _ => false
  | .commitVote _ => false
  | .gjoin _ => false
  | .gleave _ => false
  | .pin _ => false
  | .unpin _ => false
  | .securityAlarm _ => false
  | .singleStep _ => false
  | .taintRestore _ => false
  | .taintRelease _ => false
  | .snapshotMap _ _ _ => false
  | .snapshotRelease _ _ => false
  | .keyLoad _ _ => false
  | .keySetLoad _ _ _ _ => false
  | .partitionConfig _ _ _ _ => false
  | .fabricPartitionSet _ _ => false
  | .queueCreate _ _ => false
  | .unitReinstate _ => false
  | .dieFirmwareUpdate _ _ _ _ => false
  | .linkRetrain _ _ => false
  | .memoryRetrain _ _ => false
  | .regionGuardViolation _ _ _ _ => false
  | .attestation _ => false
  | .faultRecordRead _ => false
  | .rdcHop _ => false
  | .linkTraining _ _ => false
  | .reservedTypePacket _ => false
  | .pageMapping _ _ _ => false
  | .versionPool _ _ _ => false
  | .debuggable _ _ => false

end Sys2Proof
end

