-- ==== Sys2Proof/Decode.lean ====
section
/-! DEFINITION. From words to instructions (02 R16 to R40), and from instructions back to words. -/

namespace Sys2Proof

/-- The field of `len` bits of a word whose lowest bit is `lo` (00 R2). -/
def fld (w : Word) (lo len : Nat) : BitVec len := w.extractLsb' lo len

/-- The reserved bits of a word, those of a mask, are zero (02 R40). -/
def resv (w m : Word) : Bool := w &&& m == 0#32

/-- The header fields of a first word (02 Table 2-1). -/
def hdrOf (w : Word) : Hdr := ⟨fld w 29 2, fld w 28 1 == 1⟩

/-- The instruction of the shared subset that two words spell, before its field checks (02 R33, Table 2-7). -/
def decodeShared (w0 w1 : Word) : Option Instr :=
  let h := hdrOf w0
  match (fld w0 21 7).toNat with
  | 0x00 =>
    if resv w0 0x1FFFFF#32 then
      some (.nop h)
    else none
  | 0x01 =>
    some (.wait h (fld w0 0 21))
  | 0x02 =>
    some (.j h (fld w0 0 21))
  | 0x03 =>
    some (.call h (fld w0 0 21))
  | 0x04 =>
    if resv w0 0x1FFFFF#32 then
      some (.ret h)
    else none
  | 0x05 =>
    some (.loop h (fld w0 19 2) (fld w0 14 5) (fld w0 0 14))
  | 0x06 =>
    if resv w0 0x7C000#32 then
      some (.loopi h (fld w0 19 2) (fld w0 0 14) (fld w1 0 32))
    else none
  | 0x07 =>
    if resv w0 0x3F#32 then
      some (.align h (fld w0 19 2) (fld w0 11 8) (fld w0 6 5) (fld w1 0 32))
    else none
  | 0x08 =>
    if resv w0 0x1FFFFF#32 then
      some (.relax h)
    else none
  | 0x09 =>
    if resv w0 0x1FFF#32 then
      some (.bar h (fld w0 18 3) (fld w0 13 5))
    else none
  | 0x0A =>
    some (.movi h (fld w0 16 5) (fld w0 0 16))
  | 0x0B =>
    if resv w0 0xFFFF#32 then
      some (.movw h (fld w0 16 5) (fld w1 0 32))
    else none
  | 0x0C =>
    if resv w0 0xFFFF#32 then
      some (.movh h (fld w0 16 5) (fld w1 0 32))
    else none
  | 0x0D =>
    some (.addi h (fld w0 16 5) (fld w0 11 5) (fld w0 0 11))
  | 0x0E =>
    if fld w0 0 3 == 0 then
      some (.add h (fld w0 16 5) (fld w0 11 5) (fld w0 6 5) (fld w0 3 3))
    else if fld w0 0 3 == 1 then
      some (.sub h (fld w0 16 5) (fld w0 11 5) (fld w0 6 5) (fld w0 3 3))
    else if fld w0 0 3 == 2 then
      some (.and_ h (fld w0 16 5) (fld w0 11 5) (fld w0 6 5) (fld w0 3 3))
    else if fld w0 0 3 == 3 then
      some (.or_ h (fld w0 16 5) (fld w0 11 5) (fld w0 6 5) (fld w0 3 3))
    else if fld w0 0 3 == 4 then
      some (.xor_ h (fld w0 16 5) (fld w0 11 5) (fld w0 6 5) (fld w0 3 3))
    else if fld w0 0 3 == 5 then
      some (.shl h (fld w0 16 5) (fld w0 11 5) (fld w0 6 5) (fld w0 3 3))
    else if fld w0 0 3 == 6 then
      some (.shr h (fld w0 16 5) (fld w0 11 5) (fld w0 6 5) (fld w0 3 3))
    else if fld w0 0 3 == 7 then
      some (.sar h (fld w0 16 5) (fld w0 11 5) (fld w0 6 5) (fld w0 3 3))
    else none
  | 0x0F =>
    if fld w0 8 3 == 0 then
      some (.andi h (fld w0 16 5) (fld w0 11 5) (fld w0 0 8))
    else if fld w0 8 3 == 1 then
      some (.ori h (fld w0 16 5) (fld w0 11 5) (fld w0 0 8))
    else if fld w0 8 3 == 2 then
      some (.xori h (fld w0 16 5) (fld w0 11 5) (fld w0 0 8))
    else if fld w0 8 3 == 3 then
      some (.shli h (fld w0 16 5) (fld w0 11 5) (fld w0 0 8))
    else if fld w0 8 3 == 4 then
      some (.shri h (fld w0 16 5) (fld w0 11 5) (fld w0 0 8))
    else if fld w0 8 3 == 5 then
      some (.sari h (fld w0 16 5) (fld w0 11 5) (fld w0 0 8))
    else none
  | 0x10 =>
    if resv w0 0x1F#32 then
      some (.pcmp h (fld w0 18 3) (fld w0 13 5) (fld w0 8 5) (fld w0 5 3))
    else none
  | 0x11 =>
    some (.pcmpi h (fld w0 18 3) (fld w0 13 5) (fld w0 10 3) (fld w0 0 10))
  | 0x12 =>
    if fld w0 10 2 == 0 && resv w0 0x3FF#32 then
      some (.pand h (fld w0 18 3) (fld w0 15 3) (fld w0 12 3))
    else if fld w0 10 2 == 1 && resv w0 0x3FF#32 then
      some (.por h (fld w0 18 3) (fld w0 15 3) (fld w0 12 3))
    else if fld w0 10 2 == 2 && resv w0 0x3FF#32 then
      some (.pxor h (fld w0 18 3) (fld w0 15 3) (fld w0 12 3))
    else if fld w0 10 2 == 3 && resv w0 0x3FF#32 then
      some (.pandn h (fld w0 18 3) (fld w0 15 3) (fld w0 12 3))
    else none
  | 0x13 =>
    if fld w0 0 3 == 0 then
      some (.sel h (fld w0 16 5) (fld w0 11 5) (fld w0 6 5) (fld w0 3 3))
    else none
  | 0x14 =>
    if resv w0 0xF#32 then
      some (.mfs h (fld w0 16 5) (fld w0 4 12))
    else none
  | 0x15 =>
    if resv w0 0xF#32 then
      some (.mts h (fld w0 16 5) (fld w0 4 12))
    else none
  | 0x16 =>
    if resv w0 0x3#32 then
      some (.fence h (fld w0 5 16) (fld w0 2 3))
    else none
  | 0x17 =>
    if resv w0 0x3#32 then
      some (.drain h (fld w0 5 16) (fld w0 2 3))
    else none
  | 0x18 =>
    if fld w0 10 1 == 0 && resv w0 0x3FF#32 then
      some (.waitany h (fld w0 16 5) (fld w0 11 5))
    else if fld w0 10 1 == 1 && resv w0 0x3FF#32 then
      some (.waitall h (fld w0 16 5) (fld w0 11 5))
    else none
  | 0x19 =>
    if resv w0 0x1FFF#32 then
      some (.ffrdy h (fld w0 18 3) (fld w0 13 5))
    else none
  | 0x1A =>
    if resv w0 0x1FF#32 then
      some (.waittl h (fld w0 19 2) (fld w0 14 5) (fld w0 9 5))
    else none
  | 0x1B =>
    if resv w0 0x7FF#32 then
      some (.tlrdy h (fld w0 18 3) (fld w0 16 2) (fld w0 11 5))
    else none
  | 0x1C =>
    if resv w0 0x1FFFFF#32 then
      some (.end_ h)
    else none
  | 0x1D =>
    some (.trap h (fld w0 0 21))
  | 0x1E =>
    some (.brk h (fld w0 0 21))
  | 0x1F =>
    if fld w0 20 1 == 0 && resv w0 0xFFFF#32 then
      some (.chkP h (fld w0 17 3) (fld w0 16 1))
    else if fld w0 20 1 == 1 && resv w0 0xF0000#32 then
      some (.chkF h (fld w0 0 16))
    else none
  | _ => none

/-- The instruction of the SCL space that two words spell, before its field checks (02 R34, Table 2-8). -/
def decodeScl (w0 w1 : Word) : Option Instr :=
  let h := hdrOf w0
  match (fld w0 21 7).toNat with
  | 0x00 =>
    if fld w0 0 3 == 0 then
      some (.mul h (fld w0 16 5) (fld w0 11 5) (fld w0 6 5) (fld w0 3 3))
    else if fld w0 0 3 == 1 then
      some (.mulhs h (fld w0 16 5) (fld w0 11 5) (fld w0 6 5) (fld w0 3 3))
    else if fld w0 0 3 == 2 then
      some (.mulhu h (fld w0 16 5) (fld w0 11 5) (fld w0 6 5) (fld w0 3 3))
    else none
  | 0x01 =>
    if fld w0 0 3 == 0 then
      some (.idiv h (fld w0 16 5) (fld w0 11 5) (fld w0 6 5) (fld w0 3 3))
    else if fld w0 0 3 == 1 then
      some (.idivu h (fld w0 16 5) (fld w0 11 5) (fld w0 6 5) (fld w0 3 3))
    else if fld w0 0 3 == 2 then
      some (.irem h (fld w0 16 5) (fld w0 11 5) (fld w0 6 5) (fld w0 3 3))
    else if fld w0 0 3 == 3 then
      some (.iremu h (fld w0 16 5) (fld w0 11 5) (fld w0 6 5) (fld w0 3 3))
    else none
  | 0x02 =>
    if fld w0 0 3 == 0 then
      some (.min h (fld w0 16 5) (fld w0 11 5) (fld w0 6 5) (fld w0 3 3))
    else if fld w0 0 3 == 1 then
      some (.max h (fld w0 16 5) (fld w0 11 5) (fld w0 6 5) (fld w0 3 3))
    else if fld w0 0 3 == 2 then
      some (.minu h (fld w0 16 5) (fld w0 11 5) (fld w0 6 5) (fld w0 3 3))
    else if fld w0 0 3 == 3 then
      some (.maxu h (fld w0 16 5) (fld w0 11 5) (fld w0 6 5) (fld w0 3 3))
    else none
  | 0x03 =>
    if fld w0 0 3 == 0 then
      some (.andn h (fld w0 16 5) (fld w0 11 5) (fld w0 6 5) (fld w0 3 3))
    else if fld w0 0 3 == 1 then
      some (.orn h (fld w0 16 5) (fld w0 11 5) (fld w0 6 5) (fld w0 3 3))
    else if fld w0 0 3 == 2 then
      some (.xnor h (fld w0 16 5) (fld w0 11 5) (fld w0 6 5) (fld w0 3 3))
    else if fld w0 0 3 == 3 then
      some (.rol h (fld w0 16 5) (fld w0 11 5) (fld w0 6 5) (fld w0 3 3))
    else if fld w0 0 3 == 4 then
      some (.ror h (fld w0 16 5) (fld w0 11 5) (fld w0 6 5) (fld w0 3 3))
    else none
  | 0x04 =>
    if fld w0 0 3 == 0 && resv w0 0x7C0#32 then
      some (.clz h (fld w0 16 5) (fld w0 11 5) (fld w0 3 3))
    else if fld w0 0 3 == 1 && resv w0 0x7C0#32 then
      some (.ctz h (fld w0 16 5) (fld w0 11 5) (fld w0 3 3))
    else if fld w0 0 3 == 2 && resv w0 0x7C0#32 then
      some (.popc h (fld w0 16 5) (fld w0 11 5) (fld w0 3 3))
    else if fld w0 0 3 == 3 && resv w0 0x7C0#32 then
      some (.brev h (fld w0 16 5) (fld w0 11 5) (fld w0 3 3))
    else if fld w0 0 3 == 4 && resv w0 0x7C0#32 then
      some (.bswap h (fld w0 16 5) (fld w0 11 5) (fld w0 3 3))
    else none
  | 0x05 =>
    some (.setc h (fld w0 16 5) (fld w0 11 5) (fld w0 6 5) (fld w0 3 3) (fld w0 0 3))
  | 0x06 =>
    some (.br h (fld w0 18 3) (fld w0 17 1) (fld w0 0 17))
  | 0x07 =>
    if fld w0 14 2 == 0 then
      some (.beqz h (fld w0 16 5) (fld w0 0 14))
    else if fld w0 14 2 == 1 then
      some (.bnez h (fld w0 16 5) (fld w0 0 14))
    else if fld w0 14 2 == 2 then
      some (.bltz h (fld w0 16 5) (fld w0 0 14))
    else if fld w0 14 2 == 3 then
      some (.bgez h (fld w0 16 5) (fld w0 0 14))
    else none
  | 0x08 =>
    if resv w0 0xFFFF#32 then
      some (.jx h (fld w0 16 5))
    else none
  | 0x09 =>
    if resv w0 0xFFFF#32 then
      some (.callx h (fld w0 16 5))
    else none
  | 0x0A =>
    if resv w0 0x1FF#32 then
      some (.xset h (fld w0 19 2) (fld w0 14 5) (fld w0 9 5))
    else none
  | 0x0B =>
    if resv w0 0x1FFF#32 then
      some (.xsetp h (fld w0 19 2) (fld w0 16 3) (fld w0 13 3))
    else none
  | 0x0C =>
    if fld w0 0 1 == 0 then
      some (.sld h (fld w0 16 5) (fld w0 11 5) (fld w0 7 4) (fld w0 4 3) (fld w0 2 2) (fld w0 1 1))
    else if fld w0 0 1 == 1 then
      some (.sldDisp h (fld w0 16 5) (fld w0 11 5) (fld w0 7 4) (fld w0 4 3) (fld w0 2 2) (fld w0 1 1) (fld w1 0 32))
    else none
  | 0x0D =>
    if fld w0 0 1 == 0 then
      some (.sst h (fld w0 16 5) (fld w0 11 5) (fld w0 7 4) (fld w0 4 3) (fld w0 2 2) (fld w0 1 1))
    else if fld w0 0 1 == 1 then
      some (.sstDisp h (fld w0 16 5) (fld w0 11 5) (fld w0 7 4) (fld w0 4 3) (fld w0 2 2) (fld w0 1 1) (fld w1 0 32))
    else none
  | 0x0E =>
    if resv w0 0x3#32 && resv w1 0xFFFFF#32 then
      some (.satm h (fld w0 16 5) (fld w0 11 5) (fld w0 6 5) (fld w0 3 3) (fld w0 2 1) (fld w1 28 4) (fld w1 25 3) (fld w1 20 5))
    else none
  | 0x0F =>
    if resv w0 0x3#32 && resv w1 0x1FFFFFF#32 then
      some (.waita h (fld w0 16 5) (fld w0 11 5) (fld w0 8 3) (fld w0 3 5) (fld w0 2 1) (fld w1 28 4) (fld w1 25 3))
    else none
  | 0x20 =>
    if resv w0 0xFFFF#32 then
      some (.rdt h (fld w0 16 5))
    else none
  | 0x21 =>
    if resv w0 0xFFFF#32 then
      some (.rdc h (fld w0 16 5))
    else none
  | 0x22 =>
    if resv w0 0xFFFF#32 then
      some (.rdslip h (fld w0 16 5))
    else none
  | 0x23 =>
    if resv w0 0xFFFF#32 then
      some (.pitchq h (fld w0 16 5))
    else none
  | 0x24 =>
    if resv w0 0x7FF#32 then
      some (.pitchw h (fld w0 16 5) (fld w0 11 5))
    else none
  | 0x25 =>
    if resv w0 0x7FF#32 then
      some (.dronew h (fld w0 16 5) (fld w0 11 5))
    else none
  | 0x26 =>
    if resv w0 0x1FFF#32 then
      some (.droneck h (fld w0 18 3) (fld w0 13 5))
    else none
  | 0x28 =>
    if resv w0 0xFFFF#32 then
      some (.flgrd h (fld w0 16 5))
    else none
  | 0x29 =>
    if resv w0 0x1F#32 then
      some (.flgclr h (fld w0 5 16))
    else none
  | 0x2A =>
    if resv w0 0x3#32 then
      some (.flgtst h (fld w0 18 3) (fld w0 2 16))
    else none
  | 0x30 =>
    if resv w0 0x7FF#32 then
      some (.stepreq h (fld w0 16 5) (fld w0 11 5))
    else none
  | 0x31 =>
    if resv w0 0xFFFF#32 then
      some (.stepget h (fld w0 16 5))
    else none
  | 0x32 =>
    if resv w0 0xFFF#32 then
      some (.lnkst h (fld w0 16 5) (fld w0 12 4))
    else none
  | _ => none

/-- The instruction of the LD space that two words spell, before its field checks (02 R35, Table 2-9). -/
def decodeLd (w0 w1 : Word) : Option Instr :=
  let h := hdrOf w0
  match (fld w0 21 7).toNat with
  | 0x00 =>
    if fld w0 0 1 == 0 && resv w0 0x6#32 then
      some (.ld h (fld w0 15 6) (fld w0 10 5) (fld w0 6 4) (fld w0 3 3))
    else if fld w0 0 1 == 1 && resv w0 0x6#32 then
      some (.ldDisp h (fld w0 15 6) (fld w0 10 5) (fld w0 6 4) (fld w0 3 3) (fld w1 0 32))
    else none
  | 0x01 =>
    if resv w1 0x3FFFF#32 then
      some (.ldb h (fld w0 15 6) (fld w0 9 6) (fld w0 4 5) (fld w0 0 4) (fld w1 23 9) (fld w1 21 2) (fld w1 18 3))
    else none
  | 0x02 =>
    if fld w0 0 1 == 0 && resv w0 0x1E#32 then
      some (.pld h (fld w0 18 3) (fld w0 13 5) (fld w0 9 4) (fld w0 5 4))
    else if fld w0 0 1 == 1 && resv w0 0x1E#32 then
      some (.pldDisp h (fld w0 18 3) (fld w0 13 5) (fld w0 9 4) (fld w0 5 4) (fld w1 0 32))
    else none
  | 0x03 =>
    if fld w0 0 1 == 0 && resv w0 0x1FE#32 then
      some (.rld h (fld w0 18 3) (fld w0 13 5) (fld w0 9 4))
    else if fld w0 0 1 == 1 && resv w0 0x1FE#32 then
      some (.rldDisp h (fld w0 18 3) (fld w0 13 5) (fld w0 9 4) (fld w1 0 32))
    else none
  | 0x04 =>
    if fld w0 0 1 == 0 && resv w0 0xFFE#32 then
      some (.sqld h (fld w0 16 5) (fld w0 12 4))
    else if fld w0 0 1 == 1 && resv w0 0xFFE#32 then
      some (.sqldDisp h (fld w0 16 5) (fld w0 12 4) (fld w1 0 32))
    else none
  | 0x05 =>
    if resv w0 0x3F#32 then
      some (.rrot h (fld w0 16 5) (fld w0 11 5) (fld w0 10 1) (fld w0 6 4))
    else none
  | 0x10 =>
    if resv w1 0x7FFFFF#32 then
      some (.cpy h (fld w0 16 5) (fld w0 11 5) (fld w0 6 5) (fld w0 0 6) (fld w1 30 2) (fld w1 26 4) (fld w1 23 3))
    else none
  | 0x11 =>
    if resv w1 0xFF#32 then
      some (.cpy2 h (fld w0 16 5) (fld w0 11 5) (fld w0 6 5) (fld w0 0 6) (fld w1 30 2) (fld w1 26 4) (fld w1 23 3) (fld w1 18 5) (fld w1 13 5) (fld w1 8 5))
    else none
  | 0x12 =>
    if resv w1 0x7FFFFF#32 then
      some (.cfill h (fld w0 16 5) (fld w0 11 5) (fld w0 6 5) (fld w0 0 6) (fld w1 30 2) (fld w1 26 4) (fld w1 23 3))
    else none
  | 0x13 =>
    if resv w1 0xF#32 then
      some (.cpt h (fld w0 16 5) (fld w0 11 5) (fld w0 6 5) (fld w0 0 6) (fld w1 30 2) (fld w1 26 4) (fld w1 23 3) (fld w1 18 5) (fld w1 13 5) (fld w1 8 5) (fld w1 4 4))
    else none
  | 0x14 =>
    if resv w0 0xFFFF#32 then
      some (.tagclr h (fld w0 16 5))
    else none
  | 0x40 =>
    if resv w0 0x3FF#32 then
      some (.rxarm h (fld w0 16 5) (fld w0 10 6))
    else none
  | 0x41 =>
    if resv w0 0xFFF#32 then
      some (.rxchk h (fld w0 18 3) (fld w0 12 6))
    else none
  | 0x42 =>
    if resv w0 0x3FF#32 then
      some (.rxmsk h (fld w0 16 5) (fld w0 10 6))
    else none
  | _ => none

/-- The instruction of the CMP space that two words spell, before its field checks (02 R36, Table 2-10). -/
def decodeCmp (w0 w1 : Word) : Option Instr :=
  let h := hdrOf w0
  match (fld w0 21 7).toNat with
  | 0x00 =>
    some (.vfadd h (fld w0 15 6) (fld w0 9 6) (fld w0 3 6) (fld w0 0 3))
  | 0x01 =>
    some (.vfsub h (fld w0 15 6) (fld w0 9 6) (fld w0 3 6) (fld w0 0 3))
  | 0x02 =>
    some (.vfmul h (fld w0 15 6) (fld w0 9 6) (fld w0 3 6) (fld w0 0 3))
  | 0x03 =>
    if resv w1 0x3FFFFFF#32 then
      some (.vfma h (fld w0 15 6) (fld w0 9 6) (fld w0 3 6) (fld w0 0 3) (fld w1 26 6))
    else none
  | 0x04 =>
    if resv w1 0x3FFFFFF#32 then
      some (.vfms h (fld w0 15 6) (fld w0 9 6) (fld w0 3 6) (fld w0 0 3) (fld w1 26 6))
    else none
  | 0x05 =>
    if resv w1 0x3FFFFFF#32 then
      some (.vfnma h (fld w0 15 6) (fld w0 9 6) (fld w0 3 6) (fld w0 0 3) (fld w1 26 6))
    else none
  | 0x06 =>
    some (.vfmin h (fld w0 15 6) (fld w0 9 6) (fld w0 3 6) (fld w0 0 3))
  | 0x07 =>
    some (.vfmax h (fld w0 15 6) (fld w0 9 6) (fld w0 3 6) (fld w0 0 3))
  | 0x08 =>
    if resv w0 0x1F8#32 then
      some (.vfabs h (fld w0 15 6) (fld w0 9 6) (fld w0 0 3))
    else none
  | 0x09 =>
    if resv w0 0x1F8#32 then
      some (.vfneg h (fld w0 15 6) (fld w0 9 6) (fld w0 0 3))
    else none
  | 0x0A =>
    some (.vfceq h (fld w0 15 6) (fld w0 9 6) (fld w0 3 6) (fld w0 0 3))
  | 0x0B =>
    some (.vfclt h (fld w0 15 6) (fld w0 9 6) (fld w0 3 6) (fld w0 0 3))
  | 0x0C =>
    some (.vfcle h (fld w0 15 6) (fld w0 9 6) (fld w0 3 6) (fld w0 0 3))
  | 0x0D =>
    some (.vfcun h (fld w0 15 6) (fld w0 9 6) (fld w0 3 6) (fld w0 0 3))
  | 0x0E =>
    some (.viadd h (fld w0 15 6) (fld w0 9 6) (fld w0 3 6) (fld w0 0 3))
  | 0x0F =>
    some (.visub h (fld w0 15 6) (fld w0 9 6) (fld w0 3 6) (fld w0 0 3))
  | 0x10 =>
    some (.vimul h (fld w0 15 6) (fld w0 9 6) (fld w0 3 6) (fld w0 0 3))
  | 0x11 =>
    some (.vimulh h (fld w0 15 6) (fld w0 9 6) (fld w0 3 6) (fld w0 0 3))
  | 0x12 =>
    some (.vimin h (fld w0 15 6) (fld w0 9 6) (fld w0 3 6) (fld w0 0 3))
  | 0x13 =>
    some (.vimax h (fld w0 15 6) (fld w0 9 6) (fld w0 3 6) (fld w0 0 3))
  | 0x14 =>
    some (.vumin h (fld w0 15 6) (fld w0 9 6) (fld w0 3 6) (fld w0 0 3))
  | 0x15 =>
    some (.vumax h (fld w0 15 6) (fld w0 9 6) (fld w0 3 6) (fld w0 0 3))
  | 0x16 =>
    some (.viadds h (fld w0 15 6) (fld w0 9 6) (fld w0 3 6) (fld w0 0 3))
  | 0x17 =>
    some (.visubs h (fld w0 15 6) (fld w0 9 6) (fld w0 3 6) (fld w0 0 3))
  | 0x18 =>
    some (.vand h (fld w0 15 6) (fld w0 9 6) (fld w0 3 6) (fld w0 0 3))
  | 0x19 =>
    some (.vor h (fld w0 15 6) (fld w0 9 6) (fld w0 3 6) (fld w0 0 3))
  | 0x1A =>
    some (.vxor h (fld w0 15 6) (fld w0 9 6) (fld w0 3 6) (fld w0 0 3))
  | 0x1B =>
    some (.vandn h (fld w0 15 6) (fld w0 9 6) (fld w0 3 6) (fld w0 0 3))
  | 0x1C =>
    some (.vshl h (fld w0 15 6) (fld w0 9 6) (fld w0 3 6) (fld w0 0 3))
  | 0x1D =>
    some (.vshr h (fld w0 15 6) (fld w0 9 6) (fld w0 3 6) (fld w0 0 3))
  | 0x1E =>
    some (.vsar h (fld w0 15 6) (fld w0 9 6) (fld w0 3 6) (fld w0 0 3))
  | 0x1F =>
    some (.viceq h (fld w0 15 6) (fld w0 9 6) (fld w0 3 6) (fld w0 0 3))
  | 0x20 =>
    some (.viclt h (fld w0 15 6) (fld w0 9 6) (fld w0 3 6) (fld w0 0 3))
  | 0x21 =>
    some (.vuclt h (fld w0 15 6) (fld w0 9 6) (fld w0 3 6) (fld w0 0 3))
  | 0x22 =>
    if resv w0 0x1F8#32 then
      some (.vmov h (fld w0 15 6) (fld w0 9 6) (fld w0 0 3))
    else none
  | 0x23 =>
    if resv w0 0x1F8#32 then
      some (.vxm h (fld w0 15 6) (fld w0 9 6) (fld w0 0 3))
    else none
  | 0x24 =>
    if resv w1 0x3FFFFFF#32 then
      some (.vsel h (fld w0 15 6) (fld w0 9 6) (fld w0 3 6) (fld w0 0 3) (fld w1 26 6))
    else none
  | 0x25 =>
    if resv w0 0x3F8#32 then
      some (.vbcast h (fld w0 15 6) (fld w0 10 5) (fld w0 0 3))
    else none
  | 0x26 =>
    if resv w0 0x3#32 then
      some (.vget h (fld w0 16 5) (fld w0 10 6) (fld w0 2 8))
    else none
  | 0x27 =>
    some (.vcvt h (fld w0 15 6) (fld w0 9 6) (fld w0 5 4) (fld w0 1 4) (fld w0 0 1))
  | 0x28 =>
    if resv w0 0x78#32 then
      some (.vpush h (fld w0 19 2) (fld w0 13 6) (fld w0 7 6) (fld w0 0 3))
    else none
  | 0x29 =>
    if resv w0 0xFF#32 then
      some (.vpop h (fld w0 19 2) (fld w0 13 6) (fld w0 8 5))
    else none
  | 0x2A =>
    if resv w0 0x3FFF#32 then
      some (.vqcnt h (fld w0 16 5) (fld w0 14 2))
    else none
  | 0x2B =>
    if resv w0 0x1FFF#32 then
      some (.shape h (fld w0 17 4) (fld w0 13 4))
    else none
  | 0x30 =>
    if resv w0 0x1F8#32 then
      some (.exp2 h (fld w0 15 6) (fld w0 9 6) (fld w0 0 3))
    else none
  | 0x31 =>
    if resv w0 0x1F8#32 then
      some (.log2 h (fld w0 15 6) (fld w0 9 6) (fld w0 0 3))
    else none
  | 0x32 =>
    if resv w0 0x1F8#32 then
      some (.rcp h (fld w0 15 6) (fld w0 9 6) (fld w0 0 3))
    else none
  | 0x33 =>
    if resv w0 0x1F8#32 then
      some (.rsq h (fld w0 15 6) (fld w0 9 6) (fld w0 0 3))
    else none
  | 0x34 =>
    if resv w0 0x1F8#32 then
      some (.sqrt h (fld w0 15 6) (fld w0 9 6) (fld w0 0 3))
    else none
  | 0x35 =>
    some (.div h (fld w0 15 6) (fld w0 9 6) (fld w0 3 6) (fld w0 0 3))
  | 0x36 =>
    if resv w0 0x1F8#32 then
      some (.vrsum h (fld w0 15 6) (fld w0 9 6) (fld w0 0 3))
    else none
  | 0x37 =>
    if resv w0 0x1F8#32 then
      some (.vrisum h (fld w0 15 6) (fld w0 9 6) (fld w0 0 3))
    else none
  | 0x38 =>
    if resv w0 0xF8#32 then
      some (.vrmax h (fld w0 15 6) (fld w0 9 6) (fld w0 8 1) (fld w0 0 3))
    else none
  | 0x39 =>
    if resv w0 0xF8#32 then
      some (.vrmin h (fld w0 15 6) (fld w0 9 6) (fld w0 8 1) (fld w0 0 3))
    else none
  | 0x3A =>
    if resv w0 0x1F8#32 then
      some (.vrimax h (fld w0 15 6) (fld w0 9 6) (fld w0 0 3))
    else none
  | 0x3B =>
    if resv w0 0x1F8#32 then
      some (.vrimin h (fld w0 15 6) (fld w0 9 6) (fld w0 0 3))
    else none
  | 0x3C =>
    some (.vrdot h (fld w0 15 6) (fld w0 9 6) (fld w0 3 6) (fld w0 0 3))
  | 0x3D =>
    some (.vrlsum h (fld w0 15 6) (fld w0 9 6) (fld w0 3 6) (fld w0 0 3))
  | 0x3E =>
    some (.vrscl h (fld w0 15 6) (fld w0 9 6) (fld w0 3 6) (fld w0 0 3))
  | 0x3F =>
    if resv w0 0x1F8#32 then
      some (.vmcnt h (fld w0 15 6) (fld w0 9 6) (fld w0 0 3))
    else none
  | 0x40 =>
    if resv w0 0x3F#32 && resv w1 0xFFFFF#32 then
      some (.mma h (fld w0 19 2) (fld w0 16 3) (fld w0 13 3) (fld w0 12 1) (fld w0 10 2) (fld w0 6 4) (fld w1 28 4) (fld w1 24 4) (fld w1 23 1) (fld w1 20 3))
    else none
  | 0x41 =>
    if resv w0 0x7#32 && resv w1 0xFFFFF#32 then
      some (.mmas h (fld w0 19 2) (fld w0 16 3) (fld w0 13 3) (fld w0 12 1) (fld w0 10 2) (fld w0 6 4) (fld w0 3 3) (fld w1 28 4) (fld w1 24 4) (fld w1 23 1) (fld w1 20 3))
    else none
  | 0x42 =>
    if resv w0 0x7FFFF#32 then
      some (.mclr h (fld w0 19 2))
    else none
  | 0x43 =>
    if resv w0 0x38#32 && resv w1 0x3FFFF#32 then
      some (.accmv h (fld w0 15 6) (fld w0 13 2) (fld w0 6 7) (fld w0 0 3) (fld w1 24 8) (fld w1 20 4) (fld w1 19 1) (fld w1 18 1))
    else none
  | 0x44 =>
    if resv w0 0x38#32 && resv w1 0x3FFFF#32 then
      some (.accin h (fld w0 15 6) (fld w0 13 2) (fld w0 6 7) (fld w0 0 3) (fld w1 24 8) (fld w1 20 4) (fld w1 19 1) (fld w1 18 1))
    else none
  | 0x45 =>
    if resv w0 0xFFF#32 then
      some (.ftset h (fld w0 17 4) (fld w0 12 5))
    else none
  | 0x46 =>
    if resv w0 0xFFF#32 then
      some (.ftget h (fld w0 16 5) (fld w0 12 4))
    else none
  | 0x47 =>
    if resv w0 0xFFFF#32 then
      some (.sqcnt h (fld w0 16 5))
    else none
  | 0x48 =>
    if resv w0 0xFFFF#32 then
      some (.sqdrop h (fld w0 16 5))
    else none
  | _ => none

/-- The instruction of the ST space that two words spell, before its field checks (02 R37, Table 2-11). -/
def decodeSt (w0 w1 : Word) : Option Instr :=
  let h := hdrOf w0
  match (fld w0 21 7).toNat with
  | 0x00 =>
    if fld w0 0 1 == 0 && resv w0 0x6#32 then
      some (.st h (fld w0 15 6) (fld w0 10 5) (fld w0 6 4) (fld w0 3 3))
    else if fld w0 0 1 == 1 && resv w0 0x6#32 then
      some (.stDisp h (fld w0 15 6) (fld w0 10 5) (fld w0 6 4) (fld w0 3 3) (fld w1 0 32))
    else none
  | 0x01 =>
    if resv w1 0x3FFFF#32 then
      some (.stb h (fld w0 15 6) (fld w0 9 6) (fld w0 4 5) (fld w0 0 4) (fld w1 23 9) (fld w1 21 2) (fld w1 18 3))
    else none
  | 0x02 =>
    if resv w0 0x3#32 && resv w1 0xFFFFF#32 then
      some (.atm h (fld w0 16 5) (fld w0 11 5) (fld w0 6 5) (fld w0 3 3) (fld w0 2 1) (fld w1 28 4) (fld w1 25 3) (fld w1 20 5))
    else none
  | 0x40 =>
    if resv w0 0x3F#32 && resv w1 0x3FFFFFF#32 then
      some (.rst h (fld w0 16 5) (fld w0 11 5) (fld w0 6 5) (fld w1 31 1) (fld w1 26 5))
    else none
  | 0x41 =>
    if resv w0 0x3F#32 then
      some (.rsig h (fld w0 16 5) (fld w0 11 5) (fld w0 6 5))
    else none
  | 0x42 =>
    if resv w0 0x3#32 && resv w1 0x3FFFFF#32 then
      some (.ratm h (fld w0 16 5) (fld w0 11 5) (fld w0 6 5) (fld w0 3 3) (fld w0 2 1) (fld w1 27 5) (fld w1 22 5))
    else none
  | 0x43 =>
    if resv w0 0x3FF#32 then
      some (.coll h (fld w0 16 5) (fld w0 10 6))
    else none
  | 0x44 =>
    if resv w0 0x3FF#32 then
      some (.collw h (fld w0 15 6) (fld w0 10 5))
    else none
  | 0x45 =>
    if resv w0 0x1F#32 then
      some (.a2a h (fld w0 16 5) (fld w0 11 5) (fld w0 5 6))
    else none
  | 0x46 =>
    if resv w0 0xFFFF#32 then
      some (.psend h (fld w0 16 5))
    else none
  | 0x47 =>
    if resv w0 0x1FF#32 then
      some (.guard h (fld w0 17 4) (fld w0 9 8))
    else none
  | _ => none

/-- The instruction that two words spell in a stream, before its field checks (02 R17). -/
def decodeRaw (q : SeqName) (w0 w1 : Word) : Option Instr :=
  if fld w0 31 1 == 0 then decodeShared w0 w1
  else match q with
    | .scl => decodeScl w0 w1
    | .ld => decodeLd w0 w1
    | .cmp => decodeCmp w0 w1
    | .st => decodeSt w0 w1

/-- The instruction that the words at the program counter spell for a sequencer of kind `q`, of a shepherd core when `sh`;
`none` is an illegal word (02 R16 to R40). -/
def decode (q : SeqName) (sh : Bool) (w0 w1 : Word) : Option Instr :=
  match decodeRaw q w0 w1 with
  | none => none
  | some i => if i.wf q sh then some i else none

/-- How many words an instruction takes (02 R20); a step of the part takes none. -/
def Instr.len : Instr → Nat
  | .nop _ => 1
  | .wait _ _ => 1
  | .j _ _ => 1
  | .call _ _ => 1
  | .ret _ => 1
  | .loop _ _ _ _ => 1
  | .loopi _ _ _ _ => 2
  | .align _ _ _ _ _ => 2
  | .relax _ => 1
  | .bar _ _ _ => 1
  | .movi _ _ _ => 1
  | .movw _ _ _ => 2
  | .movh _ _ _ => 2
  | .addi _ _ _ _ => 1
  | .add _ _ _ _ _ => 1
  | .sub _ _ _ _ _ => 1
  | .and_ _ _ _ _ _ => 1
  | .or_ _ _ _ _ _ => 1
  | .xor_ _ _ _ _ _ => 1
  | .shl _ _ _ _ _ => 1
  | .shr _ _ _ _ _ => 1
  | .sar _ _ _ _ _ => 1
  | .andi _ _ _ _ => 1
  | .ori _ _ _ _ => 1
  | .xori _ _ _ _ => 1
  | .shli _ _ _ _ => 1
  | .shri _ _ _ _ => 1
  | .sari _ _ _ _ => 1
  | .pcmp _ _ _ _ _ => 1
  | .pcmpi _ _ _ _ _ => 1
  | .pand _ _ _ _ => 1
  | .por _ _ _ _ => 1
  | .pxor _ _ _ _ => 1
  | .pandn _ _ _ _ => 1
  | .sel _ _ _ _ _ => 1
  | .mfs _ _ _ => 1
  | .mts _ _ _ => 1
  | .fence _ _ _ => 1
  | .drain _ _ _ => 1
  | .waitany _ _ _ => 1
  | .waitall _ _ _ => 1
  | .ffrdy _ _ _ => 1
  | .waittl _ _ _ _ => 1
  | .tlrdy _ _ _ _ => 1
  | .end_ _ => 1
  | .trap _ _ => 1
  | .brk _ _ => 1
  | .chkP _ _ _ => 1
  | .chkF _ _ => 1
  | .mul _ _ _ _ _ => 1
  | .mulhs _ _ _ _ _ => 1
  | .mulhu _ _ _ _ _ => 1
  | .idiv _ _ _ _ _ => 1
  | .idivu _ _ _ _ _ => 1
  | .irem _ _ _ _ _ => 1
  | .iremu _ _ _ _ _ => 1
  | .min _ _ _ _ _ => 1
  | .max _ _ _ _ _ => 1
  | .minu _ _ _ _ _ => 1
  | .maxu _ _ _ _ _ => 1
  | .andn _ _ _ _ _ => 1
  | .orn _ _ _ _ _ => 1
  | .xnor _ _ _ _ _ => 1
  | .rol _ _ _ _ _ => 1
  | .ror _ _ _ _ _ => 1
  | .clz _ _ _ _ => 1
  | .ctz _ _ _ _ => 1
  | .popc _ _ _ _ => 1
  | .brev _ _ _ _ => 1
  | .bswap _ _ _ _ => 1
  | .setc _ _ _ _ _ _ => 1
  | .br _ _ _ _ => 1
  | .beqz _ _ _ => 1
  | .bnez _ _ _ => 1
  | .bltz _ _ _ => 1
  | .bgez _ _ _ => 1
  | .jx _ _ => 1
  | .callx _ _ => 1
  | .xset _ _ _ _ => 1
  | .xsetp _ _ _ _ => 1
  | .sld _ _ _ _ _ _ _ => 1
  | .sst _ _ _ _ _ _ _ => 1
  | .sldDisp _ _ _ _ _ _ _ _ => 2
  | .sstDisp _ _ _ _ _ _ _ _ => 2
  | .satm _ _ _ _ _ _ _ _ _ => 2
  | .waita _ _ _ _ _ _ _ _ => 2
  | .rdt _ _ => 1
  | .rdc _ _ => 1
  | .rdslip _ _ => 1
  | .pitchq _ _ => 1
  | .pitchw _ _ _ => 1
  | .dronew _ _ _ => 1
  | .droneck _ _ _ => 1
  | .flgrd _ _ => 1
  | .flgclr _ _ => 1
  | .flgtst _ _ _ => 1
  | .stepreq _ _ _ => 1
  | .stepget _ _ => 1
  | .lnkst _ _ _ => 1
  | .ld _ _ _ _ _ => 1
  | .ldDisp _ _ _ _ _ _ => 2
  | .ldb _ _ _ _ _ _ _ _ => 2
  | .pld _ _ _ _ _ => 1
  | .pldDisp _ _ _ _ _ _ => 2
  | .rld _ _ _ _ => 1
  | .rldDisp _ _ _ _ _ => 2
  | .sqld _ _ _ => 1
  | .sqldDisp _ _ _ _ => 2
  | .rrot _ _ _ _ _ => 1
  | .cpy _ _ _ _ _ _ _ _ => 2
  | .cpy2 _ _ _ _ _ _ _ _ _ _ _ => 2
  | .cfill _ _ _ _ _ _ _ _ => 2
  | .cpt _ _ _ _ _ _ _ _ _ _ _ _ => 2
  | .tagclr _ _ => 1
  | .rxarm _ _ _ => 1
  | .rxchk _ _ _ => 1
  | .rxmsk _ _ _ => 1
  | .vfadd _ _ _ _ _ => 1
  | .vfsub _ _ _ _ _ => 1
  | .vfmul _ _ _ _ _ => 1
  | .vfma _ _ _ _ _ _ => 2
  | .vfms _ _ _ _ _ _ => 2
  | .vfnma _ _ _ _ _ _ => 2
  | .vfmin _ _ _ _ _ => 1
  | .vfmax _ _ _ _ _ => 1
  | .vfabs _ _ _ _ => 1
  | .vfneg _ _ _ _ => 1
  | .vfceq _ _ _ _ _ => 1
  | .vfclt _ _ _ _ _ => 1
  | .vfcle _ _ _ _ _ => 1
  | .vfcun _ _ _ _ _ => 1
  | .viadd _ _ _ _ _ => 1
  | .visub _ _ _ _ _ => 1
  | .vimul _ _ _ _ _ => 1
  | .vimulh _ _ _ _ _ => 1
  | .vimin _ _ _ _ _ => 1
  | .vimax _ _ _ _ _ => 1
  | .vumin _ _ _ _ _ => 1
  | .vumax _ _ _ _ _ => 1
  | .viadds _ _ _ _ _ => 1
  | .visubs _ _ _ _ _ => 1
  | .vand _ _ _ _ _ => 1
  | .vor _ _ _ _ _ => 1
  | .vxor _ _ _ _ _ => 1
  | .vandn _ _ _ _ _ => 1
  | .vshl _ _ _ _ _ => 1
  | .vshr _ _ _ _ _ => 1
  | .vsar _ _ _ _ _ => 1
  | .viceq _ _ _ _ _ => 1
  | .viclt _ _ _ _ _ => 1
  | .vuclt _ _ _ _ _ => 1
  | .vmov _ _ _ _ => 1
  | .vxm _ _ _ _ => 1
  | .vsel _ _ _ _ _ _ => 2
  | .vbcast _ _ _ _ => 1
  | .vget _ _ _ _ => 1
  | .vcvt _ _ _ _ _ _ => 1
  | .vpush _ _ _ _ _ => 1
  | .vpop _ _ _ _ => 1
  | .vqcnt _ _ _ => 1
  | .shape _ _ _ => 1
  | .exp2 _ _ _ _ => 1
  | .log2 _ _ _ _ => 1
  | .rcp _ _ _ _ => 1
  | .rsq _ _ _ _ => 1
  | .sqrt _ _ _ _ => 1
  | .div _ _ _ _ _ => 1
  | .vrsum _ _ _ _ => 1
  | .vrisum _ _ _ _ => 1
  | .vrmax _ _ _ _ _ => 1
  | .vrmin _ _ _ _ _ => 1
  | .vrimax _ _ _ _ => 1
  | .vrimin _ _ _ _ => 1
  | .vrdot _ _ _ _ _ => 1
  | .vrlsum _ _ _ _ _ => 1
  | .vrscl _ _ _ _ _ => 1
  | .vmcnt _ _ _ _ => 1
  | .mma _ _ _ _ _ _ _ _ _ _ _ => 2
  | .mmas _ _ _ _ _ _ _ _ _ _ _ _ => 2
  | .mclr _ _ => 1
  | .accmv _ _ _ _ _ _ _ _ _ => 2
  | .accin _ _ _ _ _ _ _ _ _ => 2
  | .ftset _ _ _ => 1
  | .ftget _ _ _ => 1
  | .sqcnt _ _ => 1
  | .sqdrop _ _ => 1
  | .st _ _ _ _ _ => 1
  | .stDisp _ _ _ _ _ _ => 2
  | .stb _ _ _ _ _ _ _ _ => 2
  | .atm _ _ _ _ _ _ _ _ _ => 2
  | .rst _ _ _ _ _ _ => 2
  | .rsig _ _ _ _ => 1
  | .ratm _ _ _ _ _ _ _ _ => 2
  | .coll _ _ _ => 1
  | .collw _ _ _ => 1
  | .a2a _ _ _ _ => 1
  | .psend _ _ => 1
  | .guard _ _ _ => 1
  | _ => 0

/-- The header fields of an instruction (02 Table 2-1); a step of the part has none. -/
def Instr.hdr : Instr → Hdr
  | .nop h => h
  | .wait h _ => h
  | .j h _ => h
  | .call h _ => h
  | .ret h => h
  | .loop h _ _ _ => h
  | .loopi h _ _ _ => h
  | .align h _ _ _ _ => h
  | .relax h => h
  | .bar h _ _ => h
  | .movi h _ _ => h
  | .movw h _ _ => h
  | .movh h _ _ => h
  | .addi h _ _ _ => h
  | .add h _ _ _ _ => h
  | .sub h _ _ _ _ => h
  | .and_ h _ _ _ _ => h
  | .or_ h _ _ _ _ => h
  | .xor_ h _ _ _ _ => h
  | .shl h _ _ _ _ => h
  | .shr h _ _ _ _ => h
  | .sar h _ _ _ _ => h
  | .andi h _ _ _ => h
  | .ori h _ _ _ => h
  | .xori h _ _ _ => h
  | .shli h _ _ _ => h
  | .shri h _ _ _ => h
  | .sari h _ _ _ => h
  | .pcmp h _ _ _ _ => h
  | .pcmpi h _ _ _ _ => h
  | .pand h _ _ _ => h
  | .por h _ _ _ => h
  | .pxor h _ _ _ => h
  | .pandn h _ _ _ => h
  | .sel h _ _ _ _ => h
  | .mfs h _ _ => h
  | .mts h _ _ => h
  | .fence h _ _ => h
  | .drain h _ _ => h
  | .waitany h _ _ => h
  | .waitall h _ _ => h
  | .ffrdy h _ _ => h
  | .waittl h _ _ _ => h
  | .tlrdy h _ _ _ => h
  | .end_ h => h
  | .trap h _ => h
  | .brk h _ => h
  | .chkP h _ _ => h
  | .chkF h _ => h
  | .mul h _ _ _ _ => h
  | .mulhs h _ _ _ _ => h
  | .mulhu h _ _ _ _ => h
  | .idiv h _ _ _ _ => h
  | .idivu h _ _ _ _ => h
  | .irem h _ _ _ _ => h
  | .iremu h _ _ _ _ => h
  | .min h _ _ _ _ => h
  | .max h _ _ _ _ => h
  | .minu h _ _ _ _ => h
  | .maxu h _ _ _ _ => h
  | .andn h _ _ _ _ => h
  | .orn h _ _ _ _ => h
  | .xnor h _ _ _ _ => h
  | .rol h _ _ _ _ => h
  | .ror h _ _ _ _ => h
  | .clz h _ _ _ => h
  | .ctz h _ _ _ => h
  | .popc h _ _ _ => h
  | .brev h _ _ _ => h
  | .bswap h _ _ _ => h
  | .setc h _ _ _ _ _ => h
  | .br h _ _ _ => h
  | .beqz h _ _ => h
  | .bnez h _ _ => h
  | .bltz h _ _ => h
  | .bgez h _ _ => h
  | .jx h _ => h
  | .callx h _ => h
  | .xset h _ _ _ => h
  | .xsetp h _ _ _ => h
  | .sld h _ _ _ _ _ _ => h
  | .sst h _ _ _ _ _ _ => h
  | .sldDisp h _ _ _ _ _ _ _ => h
  | .sstDisp h _ _ _ _ _ _ _ => h
  | .satm h _ _ _ _ _ _ _ _ => h
  | .waita h _ _ _ _ _ _ _ => h
  | .rdt h _ => h
  | .rdc h _ => h
  | .rdslip h _ => h
  | .pitchq h _ => h
  | .pitchw h _ _ => h
  | .dronew h _ _ => h
  | .droneck h _ _ => h
  | .flgrd h _ => h
  | .flgclr h _ => h
  | .flgtst h _ _ => h
  | .stepreq h _ _ => h
  | .stepget h _ => h
  | .lnkst h _ _ => h
  | .ld h _ _ _ _ => h
  | .ldDisp h _ _ _ _ _ => h
  | .ldb h _ _ _ _ _ _ _ => h
  | .pld h _ _ _ _ => h
  | .pldDisp h _ _ _ _ _ => h
  | .rld h _ _ _ => h
  | .rldDisp h _ _ _ _ => h
  | .sqld h _ _ => h
  | .sqldDisp h _ _ _ => h
  | .rrot h _ _ _ _ => h
  | .cpy h _ _ _ _ _ _ _ => h
  | .cpy2 h _ _ _ _ _ _ _ _ _ _ => h
  | .cfill h _ _ _ _ _ _ _ => h
  | .cpt h _ _ _ _ _ _ _ _ _ _ _ => h
  | .tagclr h _ => h
  | .rxarm h _ _ => h
  | .rxchk h _ _ => h
  | .rxmsk h _ _ => h
  | .vfadd h _ _ _ _ => h
  | .vfsub h _ _ _ _ => h
  | .vfmul h _ _ _ _ => h
  | .vfma h _ _ _ _ _ => h
  | .vfms h _ _ _ _ _ => h
  | .vfnma h _ _ _ _ _ => h
  | .vfmin h _ _ _ _ => h
  | .vfmax h _ _ _ _ => h
  | .vfabs h _ _ _ => h
  | .vfneg h _ _ _ => h
  | .vfceq h _ _ _ _ => h
  | .vfclt h _ _ _ _ => h
  | .vfcle h _ _ _ _ => h
  | .vfcun h _ _ _ _ => h
  | .viadd h _ _ _ _ => h
  | .visub h _ _ _ _ => h
  | .vimul h _ _ _ _ => h
  | .vimulh h _ _ _ _ => h
  | .vimin h _ _ _ _ => h
  | .vimax h _ _ _ _ => h
  | .vumin h _ _ _ _ => h
  | .vumax h _ _ _ _ => h
  | .viadds h _ _ _ _ => h
  | .visubs h _ _ _ _ => h
  | .vand h _ _ _ _ => h
  | .vor h _ _ _ _ => h
  | .vxor h _ _ _ _ => h
  | .vandn h _ _ _ _ => h
  | .vshl h _ _ _ _ => h
  | .vshr h _ _ _ _ => h
  | .vsar h _ _ _ _ => h
  | .viceq h _ _ _ _ => h
  | .viclt h _ _ _ _ => h
  | .vuclt h _ _ _ _ => h
  | .vmov h _ _ _ => h
  | .vxm h _ _ _ => h
  | .vsel h _ _ _ _ _ => h
  | .vbcast h _ _ _ => h
  | .vget h _ _ _ => h
  | .vcvt h _ _ _ _ _ => h
  | .vpush h _ _ _ _ => h
  | .vpop h _ _ _ => h
  | .vqcnt h _ _ => h
  | .shape h _ _ => h
  | .exp2 h _ _ _ => h
  | .log2 h _ _ _ => h
  | .rcp h _ _ _ => h
  | .rsq h _ _ _ => h
  | .sqrt h _ _ _ => h
  | .div h _ _ _ _ => h
  | .vrsum h _ _ _ => h
  | .vrisum h _ _ _ => h
  | .vrmax h _ _ _ _ => h
  | .vrmin h _ _ _ _ => h
  | .vrimax h _ _ _ => h
  | .vrimin h _ _ _ => h
  | .vrdot h _ _ _ _ => h
  | .vrlsum h _ _ _ _ => h
  | .vrscl h _ _ _ _ => h
  | .vmcnt h _ _ _ => h
  | .mma h _ _ _ _ _ _ _ _ _ _ => h
  | .mmas h _ _ _ _ _ _ _ _ _ _ _ => h
  | .mclr h _ => h
  | .accmv h _ _ _ _ _ _ _ _ => h
  | .accin h _ _ _ _ _ _ _ _ => h
  | .ftset h _ _ => h
  | .ftget h _ _ => h
  | .sqcnt h _ => h
  | .sqdrop h _ => h
  | .st h _ _ _ _ => h
  | .stDisp h _ _ _ _ _ => h
  | .stb h _ _ _ _ _ _ _ => h
  | .atm h _ _ _ _ _ _ _ _ => h
  | .rst h _ _ _ _ _ => h
  | .rsig h _ _ _ => h
  | .ratm h _ _ _ _ _ _ _ => h
  | .coll h _ _ => h
  | .collw h _ _ => h
  | .a2a h _ _ _ => h
  | .psend h _ => h
  | .guard h _ _ => h
  | _ => ⟨0, false⟩

/-- The first word of a form: space bit, opcode, header and operand bits (02 Table 2-1). -/
def firstWord (priv op : Nat) (h : Hdr) (operands : Nat) : Word :=
  BitVec.ofNat 32 (priv * 2 ^ 31 + h.idle.toNat * 2 ^ 29 + (if h.sq then 1 else 0) * 2 ^ 28 + op * 2 ^ 21 + operands)

/-- The operand bits of the first word of format K (02 Table 2-2). -/
def bitsK0 (n : BitVec 21) : Nat :=
  n.toNat

/-- The operand bits of the first word of format J (02 Table 2-2). -/
def bitsJ0 (off : BitVec 21) : Nat :=
  off.toNat

/-- The operand bits of the first word of format LP (02 Table 2-2). -/
def bitsLP0 (lvl : BitVec 2) (xa : BitVec 5) (len : BitVec 14) : Nat :=
  lvl.toNat * 2 ^ 19 + xa.toNat * 2 ^ 14 + len.toNat

/-- The operand bits of the first word of format LPI (02 Table 2-2). -/
def bitsLPI0 (lvl : BitVec 2) (len : BitVec 14) : Nat :=
  lvl.toNat * 2 ^ 19 + len.toNat

/-- The operand bits of the second word of format LPI (02 Table 2-2). -/
def bitsLPI1 (count : BitVec 32) : Nat :=
  count.toNat

/-- The operand bits of the first word of format AL (02 Table 2-2). -/
def bitsAL0 (lvl : BitVec 2) (seg : BitVec 8) (xa : BitVec 5) : Nat :=
  lvl.toNat * 2 ^ 19 + seg.toNat * 2 ^ 11 + xa.toNat * 2 ^ 6

/-- The operand bits of the second word of format AL (02 Table 2-2). -/
def bitsAL1 (budget : BitVec 32) : Nat :=
  budget.toNat

/-- The operand bits of the first word of format BR (02 Table 2-2). -/
def bitsBR0 (lvl : BitVec 3) (xt : BitVec 5) : Nat :=
  lvl.toNat * 2 ^ 18 + xt.toNat * 2 ^ 13

/-- The operand bits of the first word of format XL (02 Table 2-2). -/
def bitsXL0 (xd : BitVec 5) (imm : BitVec 16) : Nat :=
  xd.toNat * 2 ^ 16 + imm.toNat

/-- The operand bits of the first word of format XLW (02 Table 2-2). -/
def bitsXLW0 (xd : BitVec 5) : Nat :=
  xd.toNat * 2 ^ 16

/-- The operand bits of the second word of format XLW (02 Table 2-2). -/
def bitsXLW1 (imm : BitVec 32) : Nat :=
  imm.toNat

/-- The operand bits of the first word of format XI (02 Table 2-2). -/
def bitsXI0 (xd xa : BitVec 5) (imm : BitVec 11) : Nat :=
  xd.toNat * 2 ^ 16 + xa.toNat * 2 ^ 11 + imm.toNat

/-- The operand bits of the first word of format XR (02 Table 2-2). -/
def bitsXR0 (xd xa xb : BitVec 5) (pg : BitVec 3) : Nat :=
  xd.toNat * 2 ^ 16 + xa.toNat * 2 ^ 11 + xb.toNat * 2 ^ 6 + pg.toNat * 2 ^ 3

/-- The operand bits of the first word of format XF (02 Table 2-2). -/
def bitsXF0 (xd xa : BitVec 5) (imm : BitVec 8) : Nat :=
  xd.toNat * 2 ^ 16 + xa.toNat * 2 ^ 11 + imm.toNat

/-- The operand bits of the first word of format PC (02 Table 2-2). -/
def bitsPC0 (pd : BitVec 3) (xa xb : BitVec 5) (cond : BitVec 3) : Nat :=
  pd.toNat * 2 ^ 18 + xa.toNat * 2 ^ 13 + xb.toNat * 2 ^ 8 + cond.toNat * 2 ^ 5

/-- The operand bits of the first word of format PI (02 Table 2-2). -/
def bitsPI0 (pd : BitVec 3) (xa : BitVec 5) (cond : BitVec 3) (imm : BitVec 10) : Nat :=
  pd.toNat * 2 ^ 18 + xa.toNat * 2 ^ 13 + cond.toNat * 2 ^ 10 + imm.toNat

/-- The operand bits of the first word of format PL (02 Table 2-2). -/
def bitsPL0 (pd pa pb : BitVec 3) : Nat :=
  pd.toNat * 2 ^ 18 + pa.toNat * 2 ^ 15 + pb.toNat * 2 ^ 12

/-- The operand bits of the first word of format XSD (02 Table 2-2). -/
def bitsXSD0 (xd : BitVec 5) (sreg : BitVec 12) : Nat :=
  xd.toNat * 2 ^ 16 + sreg.toNat * 2 ^ 4

/-- The operand bits of the first word of format XSA (02 Table 2-2). -/
def bitsXSA0 (xa : BitVec 5) (sreg : BitVec 12) : Nat :=
  xa.toNat * 2 ^ 16 + sreg.toNat * 2 ^ 4

/-- The operand bits of the first word of format FC (02 Table 2-2). -/
def bitsFC0 (mask : BitVec 16) (scope : BitVec 3) : Nat :=
  mask.toNat * 2 ^ 5 + scope.toNat * 2 ^ 2

/-- The operand bits of the first word of format WT (02 Table 2-2). -/
def bitsWT0 (xa xt : BitVec 5) : Nat :=
  xa.toNat * 2 ^ 16 + xt.toNat * 2 ^ 11

/-- The operand bits of the first word of format PT (02 Table 2-2). -/
def bitsPT0 (pd : BitVec 3) (xa : BitVec 5) : Nat :=
  pd.toNat * 2 ^ 18 + xa.toNat * 2 ^ 13

/-- The operand bits of the first word of format TW (02 Table 2-2). -/
def bitsTW0 (ctx : BitVec 2) (xa xt : BitVec 5) : Nat :=
  ctx.toNat * 2 ^ 19 + xa.toNat * 2 ^ 14 + xt.toNat * 2 ^ 9

/-- The operand bits of the first word of format TC (02 Table 2-2). -/
def bitsTC0 (pd : BitVec 3) (ctx : BitVec 2) (xa : BitVec 5) : Nat :=
  pd.toNat * 2 ^ 18 + ctx.toNat * 2 ^ 16 + xa.toNat * 2 ^ 11

/-- The operand bits of the first word of format CKP (02 Table 2-2). -/
def bitsCKP0 (p : BitVec 3) (neg : BitVec 1) : Nat :=
  p.toNat * 2 ^ 17 + neg.toNat * 2 ^ 16

/-- The operand bits of the first word of format CKF (02 Table 2-2). -/
def bitsCKF0 (mask : BitVec 16) : Nat :=
  mask.toNat

/-- The operand bits of the first word of format XRU (02 Table 2-2). -/
def bitsXRU0 (xd xa : BitVec 5) (pg : BitVec 3) : Nat :=
  xd.toNat * 2 ^ 16 + xa.toNat * 2 ^ 11 + pg.toNat * 2 ^ 3

/-- The operand bits of the first word of format XRC (02 Table 2-2). -/
def bitsXRC0 (xd xa xb : BitVec 5) (pg cond : BitVec 3) : Nat :=
  xd.toNat * 2 ^ 16 + xa.toNat * 2 ^ 11 + xb.toNat * 2 ^ 6 + pg.toNat * 2 ^ 3 + cond.toNat

/-- The operand bits of the first word of format BC (02 Table 2-2). -/
def bitsBC0 (p : BitVec 3) (neg : BitVec 1) (off : BitVec 17) : Nat :=
  p.toNat * 2 ^ 18 + neg.toNat * 2 ^ 17 + off.toNat

/-- The operand bits of the first word of format BZ (02 Table 2-2). -/
def bitsBZ0 (xa : BitVec 5) (off : BitVec 14) : Nat :=
  xa.toNat * 2 ^ 16 + off.toNat

/-- The operand bits of the first word of format XA (02 Table 2-2). -/
def bitsXA0 (xa : BitVec 5) : Nat :=
  xa.toNat * 2 ^ 16

/-- The operand bits of the first word of format XX (02 Table 2-2). -/
def bitsXX0 (seq : BitVec 2) (xd xa : BitVec 5) : Nat :=
  seq.toNat * 2 ^ 19 + xd.toNat * 2 ^ 14 + xa.toNat * 2 ^ 9

/-- The operand bits of the first word of format XP (02 Table 2-2). -/
def bitsXP0 (seq : BitVec 2) (pd ps : BitVec 3) : Nat :=
  seq.toNat * 2 ^ 19 + pd.toNat * 2 ^ 16 + ps.toNat * 2 ^ 13

/-- The operand bits of the first word of format MS (02 Table 2-2). -/
def bitsMS0 (xd xa : BitVec 5) (oc : BitVec 4) (ord : BitVec 3) (size : BitVec 2) (sx : BitVec 1) : Nat :=
  xd.toNat * 2 ^ 16 + xa.toNat * 2 ^ 11 + oc.toNat * 2 ^ 7 + ord.toNat * 2 ^ 4 + size.toNat * 2 ^ 2 + sx.toNat * 2 ^ 1

/-- The operand bits of the first word of format MS (02 Table 2-2). -/
def bitsMSD0 (xd xa : BitVec 5) (oc : BitVec 4) (ord : BitVec 3) (size : BitVec 2) (sx : BitVec 1) : Nat :=
  xd.toNat * 2 ^ 16 + xa.toNat * 2 ^ 11 + oc.toNat * 2 ^ 7 + ord.toNat * 2 ^ 4 + size.toNat * 2 ^ 2 + sx.toNat * 2 ^ 1

/-- The operand bits of the second word of format MS (02 Table 2-2). -/
def bitsMSD1 (disp : BitVec 32) : Nat :=
  disp.toNat

/-- The operand bits of the first word of format AM (02 Table 2-2). -/
def bitsAM0 (xd xa xb : BitVec 5) (fn : BitVec 3) (size : BitVec 1) : Nat :=
  xd.toNat * 2 ^ 16 + xa.toNat * 2 ^ 11 + xb.toNat * 2 ^ 6 + fn.toNat * 2 ^ 3 + size.toNat * 2 ^ 2

/-- The operand bits of the second word of format AM (02 Table 2-2). -/
def bitsAM1 (oc : BitVec 4) (ord : BitVec 3) (xc : BitVec 5) : Nat :=
  oc.toNat * 2 ^ 28 + ord.toNat * 2 ^ 25 + xc.toNat * 2 ^ 20

/-- The operand bits of the first word of format WA (02 Table 2-2). -/
def bitsWA0 (xa xb : BitVec 5) (cond : BitVec 3) (xt : BitVec 5) (size : BitVec 1) : Nat :=
  xa.toNat * 2 ^ 16 + xb.toNat * 2 ^ 11 + cond.toNat * 2 ^ 8 + xt.toNat * 2 ^ 3 + size.toNat * 2 ^ 2

/-- The operand bits of the second word of format WA (02 Table 2-2). -/
def bitsWA1 (oc : BitVec 4) (ord : BitVec 3) : Nat :=
  oc.toNat * 2 ^ 28 + ord.toNat * 2 ^ 25

/-- The operand bits of the first word of format XD (02 Table 2-2). -/
def bitsXD0 (xd : BitVec 5) : Nat :=
  xd.toNat * 2 ^ 16

/-- The operand bits of the first word of format XW (02 Table 2-2). -/
def bitsXW0 (xa xt : BitVec 5) : Nat :=
  xa.toNat * 2 ^ 16 + xt.toNat * 2 ^ 11

/-- The operand bits of the first word of format FM (02 Table 2-2). -/
def bitsFM0 (mask : BitVec 16) : Nat :=
  mask.toNat * 2 ^ 5

/-- The operand bits of the first word of format FT (02 Table 2-2). -/
def bitsFT0 (pd : BitVec 3) (mask : BitVec 16) : Nat :=
  pd.toNat * 2 ^ 18 + mask.toNat * 2 ^ 2

/-- The operand bits of the first word of format LS (02 Table 2-2). -/
def bitsLS0 (xd : BitVec 5) (port : BitVec 4) : Nat :=
  xd.toNat * 2 ^ 16 + port.toNat * 2 ^ 12

/-- The operand bits of the first word of format TM (02 Table 2-2). -/
def bitsTM0 (vt : BitVec 6) (xa : BitVec 5) (oc : BitVec 4) (ord : BitVec 3) : Nat :=
  vt.toNat * 2 ^ 15 + xa.toNat * 2 ^ 10 + oc.toNat * 2 ^ 6 + ord.toNat * 2 ^ 3

/-- The operand bits of the first word of format TM (02 Table 2-2). -/
def bitsTMD0 (vt : BitVec 6) (xa : BitVec 5) (oc : BitVec 4) (ord : BitVec 3) : Nat :=
  vt.toNat * 2 ^ 15 + xa.toNat * 2 ^ 10 + oc.toNat * 2 ^ 6 + ord.toNat * 2 ^ 3

/-- The operand bits of the second word of format TM (02 Table 2-2). -/
def bitsTMD1 (disp : BitVec 32) : Nat :=
  disp.toNat

/-- The operand bits of the first word of format BK (02 Table 2-2). -/
def bitsBK0 (vt vi : BitVec 6) (xa : BitVec 5) (oc : BitVec 4) : Nat :=
  vt.toNat * 2 ^ 15 + vi.toNat * 2 ^ 9 + xa.toNat * 2 ^ 4 + oc.toNat

/-- The operand bits of the second word of format BK (02 Table 2-2). -/
def bitsBK1 (budget : BitVec 9) (size : BitVec 2) (ord : BitVec 3) : Nat :=
  budget.toNat * 2 ^ 23 + size.toNat * 2 ^ 21 + ord.toNat * 2 ^ 18

/-- The operand bits of the first word of format SL (02 Table 2-2). -/
def bitsSL0 (slot : BitVec 3) (xa : BitVec 5) (oc planes : BitVec 4) : Nat :=
  slot.toNat * 2 ^ 18 + xa.toNat * 2 ^ 13 + oc.toNat * 2 ^ 9 + planes.toNat * 2 ^ 5

/-- The operand bits of the first word of format SL (02 Table 2-2). -/
def bitsSLD0 (slot : BitVec 3) (xa : BitVec 5) (oc planes : BitVec 4) : Nat :=
  slot.toNat * 2 ^ 18 + xa.toNat * 2 ^ 13 + oc.toNat * 2 ^ 9 + planes.toNat * 2 ^ 5

/-- The operand bits of the second word of format SL (02 Table 2-2). -/
def bitsSLD1 (disp : BitVec 32) : Nat :=
  disp.toNat

/-- The operand bits of the first word of format SLR (02 Table 2-2). -/
def bitsSLR0 (slot : BitVec 3) (xa : BitVec 5) (oc : BitVec 4) : Nat :=
  slot.toNat * 2 ^ 18 + xa.toNat * 2 ^ 13 + oc.toNat * 2 ^ 9

/-- The operand bits of the first word of format SLR (02 Table 2-2). -/
def bitsSLRD0 (slot : BitVec 3) (xa : BitVec 5) (oc : BitVec 4) : Nat :=
  slot.toNat * 2 ^ 18 + xa.toNat * 2 ^ 13 + oc.toNat * 2 ^ 9

/-- The operand bits of the second word of format SLR (02 Table 2-2). -/
def bitsSLRD1 (disp : BitVec 32) : Nat :=
  disp.toNat

/-- The operand bits of the first word of format QL (02 Table 2-2). -/
def bitsQL0 (xa : BitVec 5) (oc : BitVec 4) : Nat :=
  xa.toNat * 2 ^ 16 + oc.toNat * 2 ^ 12

/-- The operand bits of the first word of format QL (02 Table 2-2). -/
def bitsQLD0 (xa : BitVec 5) (oc : BitVec 4) : Nat :=
  xa.toNat * 2 ^ 16 + oc.toNat * 2 ^ 12

/-- The operand bits of the second word of format QL (02 Table 2-2). -/
def bitsQLD1 (disp : BitVec 32) : Nat :=
  disp.toNat

/-- The operand bits of the first word of format RT (02 Table 2-2). -/
def bitsRT0 (xa xb : BitVec 5) (dir : BitVec 1) (oc : BitVec 4) : Nat :=
  xa.toNat * 2 ^ 16 + xb.toNat * 2 ^ 11 + dir.toNat * 2 ^ 10 + oc.toNat * 2 ^ 6

/-- The operand bits of the first word of format CP (02 Table 2-2). -/
def bitsCP0 (xd xa xb : BitVec 5) (tag : BitVec 6) : Nat :=
  xd.toNat * 2 ^ 16 + xa.toNat * 2 ^ 11 + xb.toNat * 2 ^ 6 + tag.toNat

/-- The operand bits of the second word of format CP (02 Table 2-2). -/
def bitsCP1 (ctx : BitVec 2) (oc : BitVec 4) (ord : BitVec 3) : Nat :=
  ctx.toNat * 2 ^ 30 + oc.toNat * 2 ^ 26 + ord.toNat * 2 ^ 23

/-- The operand bits of the first word of format CP2 (02 Table 2-2). -/
def bitsCP20 (xd xa xb : BitVec 5) (tag : BitVec 6) : Nat :=
  xd.toNat * 2 ^ 16 + xa.toNat * 2 ^ 11 + xb.toNat * 2 ^ 6 + tag.toNat

/-- The operand bits of the second word of format CP2 (02 Table 2-2). -/
def bitsCP21 (ctx : BitVec 2) (oc : BitVec 4) (ord : BitVec 3) (xr xs xt : BitVec 5) : Nat :=
  ctx.toNat * 2 ^ 30 + oc.toNat * 2 ^ 26 + ord.toNat * 2 ^ 23 + xr.toNat * 2 ^ 18 + xs.toNat * 2 ^ 13 + xt.toNat * 2 ^ 8

/-- The operand bits of the first word of format CPT (02 Table 2-2). -/
def bitsCPT0 (xd xa xb : BitVec 5) (tag : BitVec 6) : Nat :=
  xd.toNat * 2 ^ 16 + xa.toNat * 2 ^ 11 + xb.toNat * 2 ^ 6 + tag.toNat

/-- The operand bits of the second word of format CPT (02 Table 2-2). -/
def bitsCPT1 (ctx : BitVec 2) (oc : BitVec 4) (ord : BitVec 3) (xr xs xt : BitVec 5) (fmt : BitVec 4) : Nat :=
  ctx.toNat * 2 ^ 30 + oc.toNat * 2 ^ 26 + ord.toNat * 2 ^ 23 + xr.toNat * 2 ^ 18 + xs.toNat * 2 ^ 13 + xt.toNat * 2 ^ 8 + fmt.toNat * 2 ^ 4

/-- The operand bits of the first word of format AR (02 Table 2-2). -/
def bitsAR0 (xa : BitVec 5) (rx : BitVec 6) : Nat :=
  xa.toNat * 2 ^ 16 + rx.toNat * 2 ^ 10

/-- The operand bits of the first word of format RC (02 Table 2-2). -/
def bitsRC0 (pd : BitVec 3) (rx : BitVec 6) : Nat :=
  pd.toNat * 2 ^ 18 + rx.toNat * 2 ^ 12

/-- The operand bits of the first word of format RM (02 Table 2-2). -/
def bitsRM0 (xd : BitVec 5) (rx : BitVec 6) : Nat :=
  xd.toNat * 2 ^ 16 + rx.toNat * 2 ^ 10

/-- The operand bits of the first word of format V3 (02 Table 2-2). -/
def bitsV30 (vd va vb : BitVec 6) (pg : BitVec 3) : Nat :=
  vd.toNat * 2 ^ 15 + va.toNat * 2 ^ 9 + vb.toNat * 2 ^ 3 + pg.toNat

/-- The operand bits of the first word of format V4 (02 Table 2-2). -/
def bitsV40 (vd va vb : BitVec 6) (pg : BitVec 3) : Nat :=
  vd.toNat * 2 ^ 15 + va.toNat * 2 ^ 9 + vb.toNat * 2 ^ 3 + pg.toNat

/-- The operand bits of the second word of format V4 (02 Table 2-2). -/
def bitsV41 (vc : BitVec 6) : Nat :=
  vc.toNat * 2 ^ 26

/-- The operand bits of the first word of format V1 (02 Table 2-2). -/
def bitsV10 (vd va : BitVec 6) (pg : BitVec 3) : Nat :=
  vd.toNat * 2 ^ 15 + va.toNat * 2 ^ 9 + pg.toNat

/-- The operand bits of the first word of format VX (02 Table 2-2). -/
def bitsVX0 (vd : BitVec 6) (xa : BitVec 5) (pg : BitVec 3) : Nat :=
  vd.toNat * 2 ^ 15 + xa.toNat * 2 ^ 10 + pg.toNat

/-- The operand bits of the first word of format VG (02 Table 2-2). -/
def bitsVG0 (xd : BitVec 5) (va : BitVec 6) (lane : BitVec 8) : Nat :=
  xd.toNat * 2 ^ 16 + va.toNat * 2 ^ 10 + lane.toNat * 2 ^ 2

/-- The operand bits of the first word of format CV (02 Table 2-2). -/
def bitsCV0 (vd va : BitVec 6) (src dst : BitVec 4) (sat : BitVec 1) : Nat :=
  vd.toNat * 2 ^ 15 + va.toNat * 2 ^ 9 + src.toNat * 2 ^ 5 + dst.toNat * 2 ^ 1 + sat.toNat

/-- The operand bits of the first word of format VQ (02 Table 2-2). -/
def bitsVQ0 (q : BitVec 2) (va vm : BitVec 6) (pg : BitVec 3) : Nat :=
  q.toNat * 2 ^ 19 + va.toNat * 2 ^ 13 + vm.toNat * 2 ^ 7 + pg.toNat

/-- The operand bits of the first word of format VP (02 Table 2-2). -/
def bitsVP0 (q : BitVec 2) (vd : BitVec 6) (xd : BitVec 5) : Nat :=
  q.toNat * 2 ^ 19 + vd.toNat * 2 ^ 13 + xd.toNat * 2 ^ 8

/-- The operand bits of the first word of format QC (02 Table 2-2). -/
def bitsQC0 (xd : BitVec 5) (q : BitVec 2) : Nat :=
  xd.toNat * 2 ^ 16 + q.toNat * 2 ^ 14

/-- The operand bits of the first word of format SH (02 Table 2-2). -/
def bitsSH0 (rows cols : BitVec 4) : Nat :=
  rows.toNat * 2 ^ 17 + cols.toNat * 2 ^ 13

/-- The operand bits of the first word of format RX (02 Table 2-2). -/
def bitsRX0 (vd va : BitVec 6) (nan : BitVec 1) (pg : BitVec 3) : Nat :=
  vd.toNat * 2 ^ 15 + va.toNat * 2 ^ 9 + nan.toNat * 2 ^ 8 + pg.toNat

/-- The operand bits of the first word of format MM (02 Table 2-2). -/
def bitsMM0 (c : BitVec 2) (pa pb : BitVec 3) (fsrc : BitVec 1) (lvl : BitVec 2) (planes : BitVec 4) : Nat :=
  c.toNat * 2 ^ 19 + pa.toNat * 2 ^ 16 + pb.toNat * 2 ^ 13 + fsrc.toNat * 2 ^ 12 + lvl.toNat * 2 ^ 10 + planes.toNat * 2 ^ 6

/-- The operand bits of the second word of format MM (02 Table 2-2). -/
def bitsMM1 (fa fb : BitVec 4) (zero : BitVec 1) (kblk : BitVec 3) : Nat :=
  fa.toNat * 2 ^ 28 + fb.toNat * 2 ^ 24 + zero.toNat * 2 ^ 23 + kblk.toNat * 2 ^ 20

/-- The operand bits of the first word of format MMS (02 Table 2-2). -/
def bitsMMS0 (c : BitVec 2) (pa pb : BitVec 3) (fsrc : BitVec 1) (lvl : BitVec 2) (planes : BitVec 4) (pm : BitVec 3) : Nat :=
  c.toNat * 2 ^ 19 + pa.toNat * 2 ^ 16 + pb.toNat * 2 ^ 13 + fsrc.toNat * 2 ^ 12 + lvl.toNat * 2 ^ 10 + planes.toNat * 2 ^ 6 + pm.toNat * 2 ^ 3

/-- The operand bits of the second word of format MMS (02 Table 2-2). -/
def bitsMMS1 (fa fb : BitVec 4) (zero : BitVec 1) (kblk : BitVec 3) : Nat :=
  fa.toNat * 2 ^ 28 + fb.toNat * 2 ^ 24 + zero.toNat * 2 ^ 23 + kblk.toNat * 2 ^ 20

/-- The operand bits of the first word of format MC (02 Table 2-2). -/
def bitsMC0 (c : BitVec 2) : Nat :=
  c.toNat * 2 ^ 19

/-- The operand bits of the first word of format AC (02 Table 2-2). -/
def bitsAC0 (vt : BitVec 6) (c : BitVec 2) (row0 : BitVec 7) (pg : BitVec 3) : Nat :=
  vt.toNat * 2 ^ 15 + c.toNat * 2 ^ 13 + row0.toNat * 2 ^ 6 + pg.toNat

/-- The operand bits of the second word of format AC (02 Table 2-2). -/
def bitsAC1 (col0 : BitVec 8) (fmt : BitVec 4) (sat tr : BitVec 1) : Nat :=
  col0.toNat * 2 ^ 24 + fmt.toNat * 2 ^ 20 + sat.toNat * 2 ^ 19 + tr.toNat * 2 ^ 18

/-- The operand bits of the first word of format FW (02 Table 2-2). -/
def bitsFW0 (ft : BitVec 4) (xa : BitVec 5) : Nat :=
  ft.toNat * 2 ^ 17 + xa.toNat * 2 ^ 12

/-- The operand bits of the first word of format FR (02 Table 2-2). -/
def bitsFR0 (xd : BitVec 5) (ft : BitVec 4) : Nat :=
  xd.toNat * 2 ^ 16 + ft.toNat * 2 ^ 12

/-- The operand bits of the first word of format RS (02 Table 2-2). -/
def bitsRS0 (xa xb xc : BitVec 5) : Nat :=
  xa.toNat * 2 ^ 16 + xb.toNat * 2 ^ 11 + xc.toNat * 2 ^ 6

/-- The operand bits of the second word of format RS (02 Table 2-2). -/
def bitsRS1 (cls : BitVec 1) (xr : BitVec 5) : Nat :=
  cls.toNat * 2 ^ 31 + xr.toNat * 2 ^ 26

/-- The operand bits of the first word of format SG (02 Table 2-2). -/
def bitsSG0 (xa xb xr : BitVec 5) : Nat :=
  xa.toNat * 2 ^ 16 + xb.toNat * 2 ^ 11 + xr.toNat * 2 ^ 6

/-- The operand bits of the first word of format RA (02 Table 2-2). -/
def bitsRA0 (xd xa xb : BitVec 5) (fn : BitVec 3) (size : BitVec 1) : Nat :=
  xd.toNat * 2 ^ 16 + xa.toNat * 2 ^ 11 + xb.toNat * 2 ^ 6 + fn.toNat * 2 ^ 3 + size.toNat * 2 ^ 2

/-- The operand bits of the second word of format RA (02 Table 2-2). -/
def bitsRA1 (xr xc : BitVec 5) : Nat :=
  xr.toNat * 2 ^ 27 + xc.toNat * 2 ^ 22

/-- The operand bits of the first word of format CL (02 Table 2-2). -/
def bitsCL0 (xa : BitVec 5) (hd : BitVec 6) : Nat :=
  xa.toNat * 2 ^ 16 + hd.toNat * 2 ^ 10

/-- The operand bits of the first word of format CW (02 Table 2-2). -/
def bitsCW0 (hd : BitVec 6) (xt : BitVec 5) : Nat :=
  hd.toNat * 2 ^ 15 + xt.toNat * 2 ^ 10

/-- The operand bits of the first word of format AA (02 Table 2-2). -/
def bitsAA0 (xa xb : BitVec 5) (hd : BitVec 6) : Nat :=
  xa.toNat * 2 ^ 16 + xb.toNat * 2 ^ 11 + hd.toNat * 2 ^ 5

/-- The operand bits of the first word of format GD (02 Table 2-2). -/
def bitsGD0 (port : BitVec 4) (beats : BitVec 8) : Nat :=
  port.toNat * 2 ^ 17 + beats.toNat * 2 ^ 9

/-- The words of an instruction of the shared subset (02 R33, Table 2-7); none for any other. -/
def encodeShared : Instr → List Word
  | .nop h => [firstWord 0 0x00 h (0)]
  | .wait h n => [firstWord 0 0x01 h (bitsK0 n)]
  | .j h off => [firstWord 0 0x02 h (bitsJ0 off)]
  | .call h off => [firstWord 0 0x03 h (bitsJ0 off)]
  | .ret h => [firstWord 0 0x04 h (0)]
  | .loop h lvl xa len => [firstWord 0 0x05 h (bitsLP0 lvl xa len)]
  | .loopi h lvl len count => [firstWord 0 0x06 h (bitsLPI0 lvl len), BitVec.ofNat 32 (bitsLPI1 count)]
  | .align h lvl seg xa budget => [firstWord 0 0x07 h (bitsAL0 lvl seg xa), BitVec.ofNat 32 (bitsAL1 budget)]
  | .relax h => [firstWord 0 0x08 h (0)]
  | .bar h lvl xt => [firstWord 0 0x09 h (bitsBR0 lvl xt)]
  | .movi h xd imm => [firstWord 0 0x0A h (bitsXL0 xd imm)]
  | .movw h xd imm => [firstWord 0 0x0B h (bitsXLW0 xd), BitVec.ofNat 32 (bitsXLW1 imm)]
  | .movh h xd imm => [firstWord 0 0x0C h (bitsXLW0 xd), BitVec.ofNat 32 (bitsXLW1 imm)]
  | .addi h xd xa imm => [firstWord 0 0x0D h (bitsXI0 xd xa imm)]
  | .add h xd xa xb pg => [firstWord 0 0x0E h (bitsXR0 xd xa xb pg)]
  | .sub h xd xa xb pg => [firstWord 0 0x0E h (bitsXR0 xd xa xb pg + 0x1)]
  | .and_ h xd xa xb pg => [firstWord 0 0x0E h (bitsXR0 xd xa xb pg + 0x2)]
  | .or_ h xd xa xb pg => [firstWord 0 0x0E h (bitsXR0 xd xa xb pg + 0x3)]
  | .xor_ h xd xa xb pg => [firstWord 0 0x0E h (bitsXR0 xd xa xb pg + 0x4)]
  | .shl h xd xa xb pg => [firstWord 0 0x0E h (bitsXR0 xd xa xb pg + 0x5)]
  | .shr h xd xa xb pg => [firstWord 0 0x0E h (bitsXR0 xd xa xb pg + 0x6)]
  | .sar h xd xa xb pg => [firstWord 0 0x0E h (bitsXR0 xd xa xb pg + 0x7)]
  | .andi h xd xa imm => [firstWord 0 0x0F h (bitsXF0 xd xa imm)]
  | .ori h xd xa imm => [firstWord 0 0x0F h (bitsXF0 xd xa imm + 0x100)]
  | .xori h xd xa imm => [firstWord 0 0x0F h (bitsXF0 xd xa imm + 0x200)]
  | .shli h xd xa imm => [firstWord 0 0x0F h (bitsXF0 xd xa imm + 0x300)]
  | .shri h xd xa imm => [firstWord 0 0x0F h (bitsXF0 xd xa imm + 0x400)]
  | .sari h xd xa imm => [firstWord 0 0x0F h (bitsXF0 xd xa imm + 0x500)]
  | .pcmp h pd xa xb cond => [firstWord 0 0x10 h (bitsPC0 pd xa xb cond)]
  | .pcmpi h pd xa cond imm => [firstWord 0 0x11 h (bitsPI0 pd xa cond imm)]
  | .pand h pd pa pb => [firstWord 0 0x12 h (bitsPL0 pd pa pb)]
  | .por h pd pa pb => [firstWord 0 0x12 h (bitsPL0 pd pa pb + 0x400)]
  | .pxor h pd pa pb => [firstWord 0 0x12 h (bitsPL0 pd pa pb + 0x800)]
  | .pandn h pd pa pb => [firstWord 0 0x12 h (bitsPL0 pd pa pb + 0xC00)]
  | .sel h xd xa xb pg => [firstWord 0 0x13 h (bitsXR0 xd xa xb pg)]
  | .mfs h xd sreg => [firstWord 0 0x14 h (bitsXSD0 xd sreg)]
  | .mts h xa sreg => [firstWord 0 0x15 h (bitsXSA0 xa sreg)]
  | .fence h mask scope => [firstWord 0 0x16 h (bitsFC0 mask scope)]
  | .drain h mask scope => [firstWord 0 0x17 h (bitsFC0 mask scope)]
  | .waitany h xa xt => [firstWord 0 0x18 h (bitsWT0 xa xt)]
  | .waitall h xa xt => [firstWord 0 0x18 h (bitsWT0 xa xt + 0x400)]
  | .ffrdy h pd xa => [firstWord 0 0x19 h (bitsPT0 pd xa)]
  | .waittl h ctx xa xt => [firstWord 0 0x1A h (bitsTW0 ctx xa xt)]
  | .tlrdy h pd ctx xa => [firstWord 0 0x1B h (bitsTC0 pd ctx xa)]
  | .end_ h => [firstWord 0 0x1C h (0)]
  | .trap h n => [firstWord 0 0x1D h (bitsK0 n)]
  | .brk h n => [firstWord 0 0x1E h (bitsK0 n)]
  | .chkP h p neg => [firstWord 0 0x1F h (bitsCKP0 p neg)]
  | .chkF h mask => [firstWord 0 0x1F h (bitsCKF0 mask + 0x100000)]
  | _ => []

/-- The words of an instruction of the SCL space (02 R34, Table 2-8); none for any other. -/
def encodeScl : Instr → List Word
  | .mul h xd xa xb pg => [firstWord 1 0x00 h (bitsXR0 xd xa xb pg)]
  | .mulhs h xd xa xb pg => [firstWord 1 0x00 h (bitsXR0 xd xa xb pg + 0x1)]
  | .mulhu h xd xa xb pg => [firstWord 1 0x00 h (bitsXR0 xd xa xb pg + 0x2)]
  | .idiv h xd xa xb pg => [firstWord 1 0x01 h (bitsXR0 xd xa xb pg)]
  | .idivu h xd xa xb pg => [firstWord 1 0x01 h (bitsXR0 xd xa xb pg + 0x1)]
  | .irem h xd xa xb pg => [firstWord 1 0x01 h (bitsXR0 xd xa xb pg + 0x2)]
  | .iremu h xd xa xb pg => [firstWord 1 0x01 h (bitsXR0 xd xa xb pg + 0x3)]
  | .min h xd xa xb pg => [firstWord 1 0x02 h (bitsXR0 xd xa xb pg)]
  | .max h xd xa xb pg => [firstWord 1 0x02 h (bitsXR0 xd xa xb pg + 0x1)]
  | .minu h xd xa xb pg => [firstWord 1 0x02 h (bitsXR0 xd xa xb pg + 0x2)]
  | .maxu h xd xa xb pg => [firstWord 1 0x02 h (bitsXR0 xd xa xb pg + 0x3)]
  | .andn h xd xa xb pg => [firstWord 1 0x03 h (bitsXR0 xd xa xb pg)]
  | .orn h xd xa xb pg => [firstWord 1 0x03 h (bitsXR0 xd xa xb pg + 0x1)]
  | .xnor h xd xa xb pg => [firstWord 1 0x03 h (bitsXR0 xd xa xb pg + 0x2)]
  | .rol h xd xa xb pg => [firstWord 1 0x03 h (bitsXR0 xd xa xb pg + 0x3)]
  | .ror h xd xa xb pg => [firstWord 1 0x03 h (bitsXR0 xd xa xb pg + 0x4)]
  | .clz h xd xa pg => [firstWord 1 0x04 h (bitsXRU0 xd xa pg)]
  | .ctz h xd xa pg => [firstWord 1 0x04 h (bitsXRU0 xd xa pg + 0x1)]
  | .popc h xd xa pg => [firstWord 1 0x04 h (bitsXRU0 xd xa pg + 0x2)]
  | .brev h xd xa pg => [firstWord 1 0x04 h (bitsXRU0 xd xa pg + 0x3)]
  | .bswap h xd xa pg => [firstWord 1 0x04 h (bitsXRU0 xd xa pg + 0x4)]
  | .setc h xd xa xb pg cond => [firstWord 1 0x05 h (bitsXRC0 xd xa xb pg cond)]
  | .br h p neg off => [firstWord 1 0x06 h (bitsBC0 p neg off)]
  | .beqz h xa off => [firstWord 1 0x07 h (bitsBZ0 xa off)]
  | .bnez h xa off => [firstWord 1 0x07 h (bitsBZ0 xa off + 0x4000)]
  | .bltz h xa off => [firstWord 1 0x07 h (bitsBZ0 xa off + 0x8000)]
  | .bgez h xa off => [firstWord 1 0x07 h (bitsBZ0 xa off + 0xC000)]
  | .jx h xa => [firstWord 1 0x08 h (bitsXA0 xa)]
  | .callx h xa => [firstWord 1 0x09 h (bitsXA0 xa)]
  | .xset h seq xd xa => [firstWord 1 0x0A h (bitsXX0 seq xd xa)]
  | .xsetp h seq pd ps => [firstWord 1 0x0B h (bitsXP0 seq pd ps)]
  | .sld h xd xa oc ord size sx => [firstWord 1 0x0C h (bitsMS0 xd xa oc ord size sx)]
  | .sst h xd xa oc ord size sx => [firstWord 1 0x0D h (bitsMS0 xd xa oc ord size sx)]
  | .sldDisp h xd xa oc ord size sx disp => [firstWord 1 0x0C h (bitsMSD0 xd xa oc ord size sx + 0x1), BitVec.ofNat 32 (bitsMSD1 disp)]
  | .sstDisp h xd xa oc ord size sx disp => [firstWord 1 0x0D h (bitsMSD0 xd xa oc ord size sx + 0x1), BitVec.ofNat 32 (bitsMSD1 disp)]
  | .satm h xd xa xb fn size oc ord xc => [firstWord 1 0x0E h (bitsAM0 xd xa xb fn size), BitVec.ofNat 32 (bitsAM1 oc ord xc)]
  | .waita h xa xb cond xt size oc ord => [firstWord 1 0x0F h (bitsWA0 xa xb cond xt size), BitVec.ofNat 32 (bitsWA1 oc ord)]
  | .rdt h xd => [firstWord 1 0x20 h (bitsXD0 xd)]
  | .rdc h xd => [firstWord 1 0x21 h (bitsXD0 xd)]
  | .rdslip h xd => [firstWord 1 0x22 h (bitsXD0 xd)]
  | .pitchq h xd => [firstWord 1 0x23 h (bitsXD0 xd)]
  | .pitchw h xa xt => [firstWord 1 0x24 h (bitsXW0 xa xt)]
  | .dronew h xa xt => [firstWord 1 0x25 h (bitsXW0 xa xt)]
  | .droneck h pd xa => [firstWord 1 0x26 h (bitsPT0 pd xa)]
  | .flgrd h xd => [firstWord 1 0x28 h (bitsXD0 xd)]
  | .flgclr h mask => [firstWord 1 0x29 h (bitsFM0 mask)]
  | .flgtst h pd mask => [firstWord 1 0x2A h (bitsFT0 pd mask)]
  | .stepreq h xa xt => [firstWord 1 0x30 h (bitsXW0 xa xt)]
  | .stepget h xd => [firstWord 1 0x31 h (bitsXD0 xd)]
  | .lnkst h xd port => [firstWord 1 0x32 h (bitsLS0 xd port)]
  | _ => []

/-- The words of an instruction of the LD space (02 R35, Table 2-9); none for any other. -/
def encodeLd : Instr → List Word
  | .ld h vt xa oc ord => [firstWord 1 0x00 h (bitsTM0 vt xa oc ord)]
  | .ldDisp h vt xa oc ord disp => [firstWord 1 0x00 h (bitsTMD0 vt xa oc ord + 0x1), BitVec.ofNat 32 (bitsTMD1 disp)]
  | .ldb h vt vi xa oc budget size ord => [firstWord 1 0x01 h (bitsBK0 vt vi xa oc), BitVec.ofNat 32 (bitsBK1 budget size ord)]
  | .pld h slot xa oc planes => [firstWord 1 0x02 h (bitsSL0 slot xa oc planes)]
  | .pldDisp h slot xa oc planes disp => [firstWord 1 0x02 h (bitsSLD0 slot xa oc planes + 0x1), BitVec.ofNat 32 (bitsSLD1 disp)]
  | .rld h slot xa oc => [firstWord 1 0x03 h (bitsSLR0 slot xa oc)]
  | .rldDisp h slot xa oc disp => [firstWord 1 0x03 h (bitsSLRD0 slot xa oc + 0x1), BitVec.ofNat 32 (bitsSLRD1 disp)]
  | .sqld h xa oc => [firstWord 1 0x04 h (bitsQL0 xa oc)]
  | .sqldDisp h xa oc disp => [firstWord 1 0x04 h (bitsQLD0 xa oc + 0x1), BitVec.ofNat 32 (bitsQLD1 disp)]
  | .rrot h xa xb dir oc => [firstWord 1 0x05 h (bitsRT0 xa xb dir oc)]
  | .cpy h xd xa xb tag ctx oc ord => [firstWord 1 0x10 h (bitsCP0 xd xa xb tag), BitVec.ofNat 32 (bitsCP1 ctx oc ord)]
  | .cpy2 h xd xa xb tag ctx oc ord xr xs xt => [firstWord 1 0x11 h (bitsCP20 xd xa xb tag), BitVec.ofNat 32 (bitsCP21 ctx oc ord xr xs xt)]
  | .cfill h xd xa xb tag ctx oc ord => [firstWord 1 0x12 h (bitsCP0 xd xa xb tag), BitVec.ofNat 32 (bitsCP1 ctx oc ord)]
  | .cpt h xd xa xb tag ctx oc ord xr xs xt fmt => [firstWord 1 0x13 h (bitsCPT0 xd xa xb tag), BitVec.ofNat 32 (bitsCPT1 ctx oc ord xr xs xt fmt)]
  | .tagclr h xa => [firstWord 1 0x14 h (bitsXA0 xa)]
  | .rxarm h xa rx => [firstWord 1 0x40 h (bitsAR0 xa rx)]
  | .rxchk h pd rx => [firstWord 1 0x41 h (bitsRC0 pd rx)]
  | .rxmsk h xd rx => [firstWord 1 0x42 h (bitsRM0 xd rx)]
  | _ => []

/-- The words of an instruction of the CMP space (02 R36, Table 2-10); none for any other. -/
def encodeCmp : Instr → List Word
  | .vfadd h vd va vb pg => [firstWord 1 0x00 h (bitsV30 vd va vb pg)]
  | .vfsub h vd va vb pg => [firstWord 1 0x01 h (bitsV30 vd va vb pg)]
  | .vfmul h vd va vb pg => [firstWord 1 0x02 h (bitsV30 vd va vb pg)]
  | .vfma h vd va vb pg vc => [firstWord 1 0x03 h (bitsV40 vd va vb pg), BitVec.ofNat 32 (bitsV41 vc)]
  | .vfms h vd va vb pg vc => [firstWord 1 0x04 h (bitsV40 vd va vb pg), BitVec.ofNat 32 (bitsV41 vc)]
  | .vfnma h vd va vb pg vc => [firstWord 1 0x05 h (bitsV40 vd va vb pg), BitVec.ofNat 32 (bitsV41 vc)]
  | .vfmin h vd va vb pg => [firstWord 1 0x06 h (bitsV30 vd va vb pg)]
  | .vfmax h vd va vb pg => [firstWord 1 0x07 h (bitsV30 vd va vb pg)]
  | .vfabs h vd va pg => [firstWord 1 0x08 h (bitsV10 vd va pg)]
  | .vfneg h vd va pg => [firstWord 1 0x09 h (bitsV10 vd va pg)]
  | .vfceq h vd va vb pg => [firstWord 1 0x0A h (bitsV30 vd va vb pg)]
  | .vfclt h vd va vb pg => [firstWord 1 0x0B h (bitsV30 vd va vb pg)]
  | .vfcle h vd va vb pg => [firstWord 1 0x0C h (bitsV30 vd va vb pg)]
  | .vfcun h vd va vb pg => [firstWord 1 0x0D h (bitsV30 vd va vb pg)]
  | .viadd h vd va vb pg => [firstWord 1 0x0E h (bitsV30 vd va vb pg)]
  | .visub h vd va vb pg => [firstWord 1 0x0F h (bitsV30 vd va vb pg)]
  | .vimul h vd va vb pg => [firstWord 1 0x10 h (bitsV30 vd va vb pg)]
  | .vimulh h vd va vb pg => [firstWord 1 0x11 h (bitsV30 vd va vb pg)]
  | .vimin h vd va vb pg => [firstWord 1 0x12 h (bitsV30 vd va vb pg)]
  | .vimax h vd va vb pg => [firstWord 1 0x13 h (bitsV30 vd va vb pg)]
  | .vumin h vd va vb pg => [firstWord 1 0x14 h (bitsV30 vd va vb pg)]
  | .vumax h vd va vb pg => [firstWord 1 0x15 h (bitsV30 vd va vb pg)]
  | .viadds h vd va vb pg => [firstWord 1 0x16 h (bitsV30 vd va vb pg)]
  | .visubs h vd va vb pg => [firstWord 1 0x17 h (bitsV30 vd va vb pg)]
  | .vand h vd va vb pg => [firstWord 1 0x18 h (bitsV30 vd va vb pg)]
  | .vor h vd va vb pg => [firstWord 1 0x19 h (bitsV30 vd va vb pg)]
  | .vxor h vd va vb pg => [firstWord 1 0x1A h (bitsV30 vd va vb pg)]
  | .vandn h vd va vb pg => [firstWord 1 0x1B h (bitsV30 vd va vb pg)]
  | .vshl h vd va vb pg => [firstWord 1 0x1C h (bitsV30 vd va vb pg)]
  | .vshr h vd va vb pg => [firstWord 1 0x1D h (bitsV30 vd va vb pg)]
  | .vsar h vd va vb pg => [firstWord 1 0x1E h (bitsV30 vd va vb pg)]
  | .viceq h vd va vb pg => [firstWord 1 0x1F h (bitsV30 vd va vb pg)]
  | .viclt h vd va vb pg => [firstWord 1 0x20 h (bitsV30 vd va vb pg)]
  | .vuclt h vd va vb pg => [firstWord 1 0x21 h (bitsV30 vd va vb pg)]
  | .vmov h vd va pg => [firstWord 1 0x22 h (bitsV10 vd va pg)]
  | .vxm h vd va pg => [firstWord 1 0x23 h (bitsV10 vd va pg)]
  | .vsel h vd va vb pg vc => [firstWord 1 0x24 h (bitsV40 vd va vb pg), BitVec.ofNat 32 (bitsV41 vc)]
  | .vbcast h vd xa pg => [firstWord 1 0x25 h (bitsVX0 vd xa pg)]
  | .vget h xd va lane => [firstWord 1 0x26 h (bitsVG0 xd va lane)]
  | .vcvt h vd va src dst sat => [firstWord 1 0x27 h (bitsCV0 vd va src dst sat)]
  | .vpush h q va vm pg => [firstWord 1 0x28 h (bitsVQ0 q va vm pg)]
  | .vpop h q vd xd => [firstWord 1 0x29 h (bitsVP0 q vd xd)]
  | .vqcnt h xd q => [firstWord 1 0x2A h (bitsQC0 xd q)]
  | .shape h rows cols => [firstWord 1 0x2B h (bitsSH0 rows cols)]
  | .exp2 h vd va pg => [firstWord 1 0x30 h (bitsV10 vd va pg)]
  | .log2 h vd va pg => [firstWord 1 0x31 h (bitsV10 vd va pg)]
  | .rcp h vd va pg => [firstWord 1 0x32 h (bitsV10 vd va pg)]
  | .rsq h vd va pg => [firstWord 1 0x33 h (bitsV10 vd va pg)]
  | .sqrt h vd va pg => [firstWord 1 0x34 h (bitsV10 vd va pg)]
  | .div h vd va vb pg => [firstWord 1 0x35 h (bitsV30 vd va vb pg)]
  | .vrsum h vd va pg => [firstWord 1 0x36 h (bitsV10 vd va pg)]
  | .vrisum h vd va pg => [firstWord 1 0x37 h (bitsV10 vd va pg)]
  | .vrmax h vd va nan pg => [firstWord 1 0x38 h (bitsRX0 vd va nan pg)]
  | .vrmin h vd va nan pg => [firstWord 1 0x39 h (bitsRX0 vd va nan pg)]
  | .vrimax h vd va pg => [firstWord 1 0x3A h (bitsV10 vd va pg)]
  | .vrimin h vd va pg => [firstWord 1 0x3B h (bitsV10 vd va pg)]
  | .vrdot h vd va vb pg => [firstWord 1 0x3C h (bitsV30 vd va vb pg)]
  | .vrlsum h vd va vb pg => [firstWord 1 0x3D h (bitsV30 vd va vb pg)]
  | .vrscl h vd va vb pg => [firstWord 1 0x3E h (bitsV30 vd va vb pg)]
  | .vmcnt h vd va pg => [firstWord 1 0x3F h (bitsV10 vd va pg)]
  | .mma h c pa pb fsrc lvl planes fa fb zero kblk => [firstWord 1 0x40 h (bitsMM0 c pa pb fsrc lvl planes), BitVec.ofNat 32 (bitsMM1 fa fb zero kblk)]
  | .mmas h c pa pb fsrc lvl planes pm fa fb zero kblk => [firstWord 1 0x41 h (bitsMMS0 c pa pb fsrc lvl planes pm), BitVec.ofNat 32 (bitsMMS1 fa fb zero kblk)]
  | .mclr h c => [firstWord 1 0x42 h (bitsMC0 c)]
  | .accmv h vt c row0 pg col0 fmt sat tr => [firstWord 1 0x43 h (bitsAC0 vt c row0 pg), BitVec.ofNat 32 (bitsAC1 col0 fmt sat tr)]
  | .accin h vt c row0 pg col0 fmt sat tr => [firstWord 1 0x44 h (bitsAC0 vt c row0 pg), BitVec.ofNat 32 (bitsAC1 col0 fmt sat tr)]
  | .ftset h ft xa => [firstWord 1 0x45 h (bitsFW0 ft xa)]
  | .ftget h xd ft => [firstWord 1 0x46 h (bitsFR0 xd ft)]
  | .sqcnt h xd => [firstWord 1 0x47 h (bitsXD0 xd)]
  | .sqdrop h xa => [firstWord 1 0x48 h (bitsXA0 xa)]
  | _ => []

/-- The words of an instruction of the ST space (02 R37, Table 2-11); none for any other. -/
def encodeSt : Instr → List Word
  | .st h vt xa oc ord => [firstWord 1 0x00 h (bitsTM0 vt xa oc ord)]
  | .stDisp h vt xa oc ord disp => [firstWord 1 0x00 h (bitsTMD0 vt xa oc ord + 0x1), BitVec.ofNat 32 (bitsTMD1 disp)]
  | .stb h vt vi xa oc budget size ord => [firstWord 1 0x01 h (bitsBK0 vt vi xa oc), BitVec.ofNat 32 (bitsBK1 budget size ord)]
  | .atm h xd xa xb fn size oc ord xc => [firstWord 1 0x02 h (bitsAM0 xd xa xb fn size), BitVec.ofNat 32 (bitsAM1 oc ord xc)]
  | .rst h xa xb xc cls xr => [firstWord 1 0x40 h (bitsRS0 xa xb xc), BitVec.ofNat 32 (bitsRS1 cls xr)]
  | .rsig h xa xb xr => [firstWord 1 0x41 h (bitsSG0 xa xb xr)]
  | .ratm h xd xa xb fn size xr xc => [firstWord 1 0x42 h (bitsRA0 xd xa xb fn size), BitVec.ofNat 32 (bitsRA1 xr xc)]
  | .coll h xa hd => [firstWord 1 0x43 h (bitsCL0 xa hd)]
  | .collw h hd xt => [firstWord 1 0x44 h (bitsCW0 hd xt)]
  | .a2a h xa xb hd => [firstWord 1 0x45 h (bitsAA0 xa xb hd)]
  | .psend h xa => [firstWord 1 0x46 h (bitsXA0 xa)]
  | .guard h port beats => [firstWord 1 0x47 h (bitsGD0 port beats)]
  | _ => []

/-- The words of an instruction (02 R16 to R37); a step of the part has none. -/
def encode (i : Instr) : List Word :=
  encodeShared i ++ encodeScl i ++ encodeLd i ++ encodeCmp i ++ encodeSt i

/-- The base words of the SCL space (06 Table 6-1) that are no base word of the CMP space (log 11). -/
def sclBases : List Nat :=
  [0x80000001, 0x80000002, 0x80200001, 0x80200002, 0x80200003, 0x80400001, 0x80400002, 0x80400003, 0x80600000, 0x80600001, 0x80600002, 0x80600003, 0x80600004, 0x80800000, 0x80800001, 0x80800002, 0x80800003, 0x80800004, 0x80A00000, 0x80E04000, 0x80E08000, 0x80E0C000, 0x84800000]

/-- The base words of the LD and ST spaces (07, 12) that are no base word of the CMP and SCL spaces, with their streams and core kinds
(log 11). -/
def portBases : List (Nat × SeqName × Bool) :=
  [(0x88000000, .ld, true), (0x88200000, .ld, true), (0x88600000, .st, true), (0x88800000, .st, true)]

/-- The stream of which a word is a base word, its header and operand fields aside, where that is not the CMP stream. -/
def baseStream (w0 : Word) : List (SeqName × Bool) :=
  let b := (w0 &&& 0x8FFFFFFF#32).toNat
  (if sclBases.contains b then [(.scl, false)] else []) ++ (portBases.filter (fun r => r.1 == b)).map (·.2)

/-- The streams in which a word of the opcode table is tried, in order: SQ is legal in the SCL stream alone (02 R19); the
shared subset means the same in every stream; a private word is read in the stream of which it is a base word, then in the first one
that holds it (log 11). -/
def tableStreams (w0 : Word) : List (SeqName × Bool) :=
  if fld w0 28 1 == 1 then [(.scl, false), (.scl, true)]
  else if fld w0 31 1 == 0 then [(.scl, false)]
  else baseStream w0 ++ [(.cmp, false), (.ld, false), (.st, false), (.scl, false), (.ld, true), (.st, true), (.scl, true)]

/-- The stream, the core kind and the instruction of a table word (log 11): the first stream of the list in which the words
spell a form of the table's length. -/
def tablePick (nbits : Nat) (w0 w1 : Word) : List (SeqName × Bool) → Option (SeqName × Bool × Instr)
  | [] => none
  | (q, sh) :: rest =>
    match decode q sh w0 w1 with
    | none => tablePick nbits w0 w1 rest
    | some i => if i.len * 32 == nbits || nbits == 0 then some (q, sh, i) else tablePick nbits w0 w1 rest

/-- The reading of a table word: a form of the table's length if some stream has one, else any form. -/
def tableReading (nbits w : Nat) : Option (SeqName × Bool × Instr) :=
  let w0 : Word := BitVec.ofNat 32 w
  let w1 : Word := BitVec.ofNat 32 (w / 2 ^ 32)
  match tablePick nbits w0 w1 (tableStreams w0) with
  | some r => some r
  | none => tablePick 0 w0 w1 (tableStreams w0)

/-- The instruction that the decoder reads from a row of the opcode table, its bits numbered as the table numbers them. -/
def decodeTableWord (nbits w : Nat) : Option Instr := (tableReading nbits w).map (·.2.2)

end Sys2Proof
end

