-- ==== Sys2Proof/Config.lean ====
section
/-! DEFINITION. What an implementation fixes and the manual leaves open: constants without a body, so that no proof
can learn a value of one (logs 5, 6, 8). -/

namespace Sys2Proof.Config

/-- The undefined byte that location `a` holds since the event numbered `seed` made it undefined (00 R1; log 5). -/
opaque freeByteAt : Nat → Nat → Byte

/-- The undefined 32-bit value numbered `n` (00 R1; log 5). -/
opaque freeWord : Nat → Word

/-- The undefined bit numbered `n` (00 R1, 10 R195; log 5). -/
opaque freeBit : Nat → Bool

/-- The time in cycles, beyond the least one allowed, that the manual does not fix for the operation numbered `n`:
translation, device and host memory, copies, commit, pinning (11 R206, 15 R320, 16 R341; log 6). -/
opaque delay : Nat → Nat

/-- Which of the 16 copy engines of a die serves the copy numbered `n` (11 R205; log 13). -/
opaque copyEngine : Nat → Nat

/-- Whether power-on step 1 or 2 passes on this package (17 R354; log 8). -/
opaque powerStepPasses : Nat → Bool

/-- Whether unit `u` passes the self-test of power-on step 5 (17 R354; log 8). -/
opaque selfTestPasses : Nat → Bool

/-- Whether the muster run numbered `n` passes (15 R323; log 8). -/
opaque musterPasses : Nat → Bool

/-- Whether a wrapped key unwraps under the package's key-encryption key (16 R352; log 8). -/
opaque keyUnwraps : List Byte → Bool

/-- What byte `i` of a line of device memory reads as under a key, where the line has been encrypted under another one: old key, new key,
line, the line's bytes under the old key, `i` (16 R352; log 23). -/
opaque otherKey : List Byte → List Byte → Nat → List Byte → Nat → Byte

/-- The signature of the identity key over a byte string (17 R364; log 8). -/
opaque identitySign : List Byte → List Byte

/-- The platform owner key named by the signed configuration (17 R363; log 8). -/
opaque ownerKey : List Byte

/-- The four vendor keys, and the SHA-512 hashes of them that mask ROM holds (17 R362; log 8). -/
opaque vendorKey : Nat → List Byte
opaque vendorKeyHash : Nat → List Byte

/-- What flash and mask ROM hold: 0 the mask ROM, 1 monitor, 2 scheduler, 3 configuration, 4 to 7 the firmware of dies 0 to 3 at power-on,
8 the repair maps (17 R354, R364; log 8). -/
opaque flashContent : Nat → List Byte

/-- The signature that flash holds with an image, by the numbers of `flashContent` (17 R354, R362; log 8). -/
opaque flashSignature : Nat → List Byte

/-- The security version that a flash image carries; where it stands in the image is not given (17 R362; log 8). -/
opaque imageVersion : List Byte → Nat

/-- The certificate chain of the identity key, which flash holds (17 R364; log 8). -/
opaque certificateChain : List Byte

/-- What the signed configuration and the repair maps of flash hold; their layouts are not given (17 R354, R358, R361, R362, R368, 16 R351,
R353; log 8): the mode of host port `p`, the minimum version, the key slots of the erase mask, the lower power cap of the tray in watts, the
frames of the repair maps, and the region guards of a firmware core (base, limit, read, write, execute). -/
opaque portRunsCxl : Nat → Bool
opaque minVersion : Nat
opaque eraseMask : Nat → Bool
opaque trayCap : Option Nat
opaque repairFrames : List Nat
opaque regionGuards : Nat → List (Nat × Nat × Bool × Bool × Bool)

/-- Whether the routes of a detour map use none of the three ports of a die (17 R367; log 8). -/
opaque mapExcludes : Nat → Nat → Bool

/-- The host port to which a PASID is bound when its first queue is created (17 R359; log 8). -/
opaque boundPort : Nat → Nat

/-- Whether the host answers the request numbered `n` with a translation failure, a rejection or data (11 R210; log 6). -/
opaque hostAnswers : Nat → Nat

end Sys2Proof.Config
end

