-- ==== Sys2Proof/Machine/State.lean ====
section
/-! DEFINITION. The state of one package, as plain data, and its state at reset (01, 02 Table 2-6, 05 R81, and the rules named
at each piece). -/

namespace Sys2Proof.Machine

/-- The machine stops with a fault on no step: every exception the manual describes is taken, and its effect is a next state
(15 R313). The type has no constructor, which is safe. -/
inductive Fault
  deriving DecidableEq, Repr

/-- Why a step has no meaning. -/
inductive Refusal
  /-- Raised by an arm of `exec` whose instruction has no meaning yet; the mnemonic is that of the opcode table.  Safe: the
  machine stops. -/
  | notModelled (mnemonic : String)
  deriving DecidableEq, Repr

/-- Fault codes (15 Table 15-1). -/
inductive Code
  | illegal | callDepth | retEmpty | window | alignment | protection | translation | timing | deadline | scaleq | stream
  | trap | check | waitTimeout | slip | link | group | uncorrectable | tainted | alarm | overrun
  deriving DecidableEq, Repr

/-- What a fault record keeps of a fault beside its code (15 Table 15-3). -/
structure Raise where
  code : Code
  addr : Nat := 0
  orig : Nat := 0
  info : Nat := 0
  deriving DecidableEq, Repr

/-- A loop level: iteration register and hidden fields (05 R81, R96); `order` numbers the starts, to tell which level was
started most recently (05 R97). -/
structure Loop where
  active : Bool := false
  lc : Dword := 0
  count : Dword := 0
  start : Dword := 0
  last : Dword := 0
  order : Nat := 0
  deriving DecidableEq, Repr

/-- An unresolved conditional branch (06 R118). -/
structure Branch where
  id : Nat
  at_ : Nat
  taken : Bool
  target : Dword
  sq : Bool
  deriving DecidableEq, Repr

/-- What a waiting form waits for, with the operands it read at issue. -/
inductive WaitFor
  /-- a tag mask, all of it or any of it (11 R230) -/
  | tags (all : Bool) (mask : Dword)
  /-- a timeline counter at or above a count (11 R232) -/
  | timeline (ctx : BitVec 2) (n : Dword)
  /-- a pitch epoch after another (13 R289) -/
  | pitch (epoch : Word)
  /-- a drone instant (13 R289) -/
  | drone (instant : Dword)
  /-- the completion of a collective handle (12 R264) -/
  | handle (hd : Idx64)
  /-- room in the step mailbox (12 R266) -/
  | mailbox
  /-- the completion of a `BAR` (05 R104) -/
  | bar (lvl : Nat)
  /-- the release of an `ALIGN`, with segment id and budget (05 R103) -/
  | align (lvl : Nat) (seg : BitVec 8) (budget : Word)
  /-- a word in memory: the read in flight, or the cycle after which its line must be written (11 R237) -/
  | word (addr value : Dword) (cond : BitVec 3) (wide : Bool) (oc : BitVec 4) (ord : BitVec 3) (readAt : Nat)
      (pending met : Bool)
  deriving DecidableEq, Repr

/-- A wait in progress: its first cycle, its timeout (0 for none), what it waits for, and whether its instruction is
squashable. -/
structure Wait where
  t0 : Nat
  tmo : Nat
  what : WaitFor
  sq : Bool := false
  deriving DecidableEq, Repr

/-- What asks for an order among accesses of different classes: a `FENCE` (11 R216), a `DRAIN` (11 R221), or a completed `BAR`
(05 R95). -/
inductive MarkKind
  | fence | drain | fold
  deriving DecidableEq, Repr

/-- An order asked for on cycle `at_`: accesses of `who` issued before it, of the classes `pre`, are performed before the own
accesses issued from `from_` on, of the classes `post`. It is in force from its commit cycle on (06 R119). -/
structure Mark where
  kind : MarkKind
  who : SeqId
  at_ : Nat
  from_ : Nat
  pre : BitVec 16
  post : BitVec 16
  sq : Bool
  commit : Nat
  deriving DecidableEq, Repr

/-- One sequencer (05 R81). -/
structure Seq where
  pc : Dword := 0
  x : Vector Dword 32 := Vector.replicate 32 0
  p : Vector Bool 8 := Vector.replicate 8 false
  loops : Vector Loop 4 := Vector.replicate 4 {}
  stack : List Dword := []
  aligned : Bool := false
  seg : BitVec 8 := 0
  /-- level of the rendezvous that opened the current segment (05 R87) -/
  lvl : Nat := 0
  /-- deadline of the current segment, and the number of the segment -/
  deadline : Nat := 0
  serial : Nat := 0
  /-- `PHASE` bit 0 -/
  phase : Bool := false
  /-- has an entry in the variant (05 R82); has issued its `END` (15 R334) -/
  entry : Bool := false
  ended : Bool := false
  /-- the earliest issue cycle of the next instruction, before its `IDLE` (05 R83) -/
  base : Nat := 0
  wait : Option Wait := none
  /-- the instruction at the program counter serialises SCL and has issued in a branch's shadow, which holds it (06 R121, 15 Table 15-4) -/
  held : Bool := false
  branches : List Branch := []
  /-- the cycle of the last resolution, and the target that a taken branch redirects to at the end of that cycle (06 R118) -/
  resolved : Option Nat := none
  redirect : Option Dword := none
  /-- the target that the fetch takes when a wait of an instruction that is not squashable has ended (06 R118, R119) -/
  after : Option Dword := none
  issued : Nat := 0
  starts : Nat := 0
  /-- how many `ALIGN`s of levels 0 to 3 and `BAR`s of levels 0 to 4 it has issued (05 R87, R95) -/
  aligns : Vector Nat 4 := Vector.replicate 4 0
  bars : Vector Nat 5 := Vector.replicate 5 0
  /-- the orders that its `FENCE`s, `DRAIN`s and `BAR`s ask for, while an access that they name is still to be performed
  (11 R216 to R221, 05 R95) -/
  marks : List Mark := []
  /-- the latest landing cycle of its flag-setting results (15 R336) -/
  flagAt : Nat := 0
  /-- after a halt, the cycle on which its cut point would have issued, once that is known (15 R331) -/
  cutAt : Option Nat := none
  deriving DecidableEq, Repr

/-- A tile: 256 words of 32 bits (01 Table 1-4). -/
abbrev Tile := List Word

/-- The kind of an accumulator (10 R195). -/
inductive AccKind
  | fp32 | int32
  deriving DecidableEq, Repr

/-- An accumulator: 128 rows of 192 elements, row after row, and its kind (10 R184, R195). -/
structure Acc where
  cells : List Word
  kind : AccKind
  deriving DecidableEq, Repr

/-- An entry of the scale queue: outstanding until its data has landed (07 R146, R147). -/
structure ScaleEntry where
  id : Nat
  data : Option (List Byte)
  deriving DecidableEq, Repr

/-- An engine instruction that has issued and not finished reading its slots (07 R145, 10 R189): for each K-block, the cycle
of the read and the plane, row and metadata slots it reads. -/
structure EngineRead where
  cyc : Nat
  plane : Nat
  rows : List Nat
  deriving DecidableEq, Repr

/-- One contiguous row of a copy: source (none for a fill), destination and length (11 R226, R227). -/
structure CopyRow where
  src : Option Dword
  dst : Dword
  len : Nat
  deriving DecidableEq, Repr

/-- What a copy writes. -/
inductive CopyKind
  | move | fill (pattern : Dword)
  /-- element format, columns, rows, source stride and image stride of `CPT` (11 R228) -/
  | planes (fmt : BitVec 4) (n k : Nat) (src : Dword) (stride : Dword)
  deriving DecidableEq, Repr

/-- A copy in the queue of a core (11 R205, R206). -/
structure Copy where
  serial : Nat
  iss : Nat
  tag : BitVec 6
  ctx : BitVec 2
  ticket : Nat
  oc : BitVec 4
  ord : BitVec 3
  kind : CopyKind
  rows : List CopyRow
  /-- claimed scratchpad lines: package offsets of first and last line (07 R139) -/
  claims : List (Nat × Nat)
  /-- source bytes read so far, by source address; source lines still to be read, destination lines still to be written -/
  buf : List (Nat × Byte)
  unread : Nat
  unwritten : Nat
  node : Nat
  deriving DecidableEq, Repr

/-- What a request to windows 0x10 and 0x20 does when its translation completes (11 R211). -/
inductive ReqOp
  | load (xd : XReg) (size : Nat) (sx : Bool)
  | store (data : List Byte)
  | atomic (xd : XReg) (fn : BitVec 3) (wide : Bool) (b c : Dword)
  | waitRead (t0 : Nat)
  deriving DecidableEq, Repr

/-- A request to windows 0x10 and 0x20, outstanding until it returns (11 R211). -/
structure Req where
  id : Nat
  q : SeqName
  pc : Dword
  addr : Dword
  op : ReqOp
  oc : BitVec 4
  ord : BitVec 3
  sq : Bool
  commit : Nat
  iss : Nat
  /-- the access has been performed; the value it returns -/
  done : Option Dword
  deriving DecidableEq, Repr

/-- States of a receive descriptor (12 R248, R249). -/
inductive DescState
  | idle | arming | open_ | closed | complete
  deriving DecidableEq, Repr

/-- A receive descriptor (12 R248, Table 12-5). -/
structure Desc where
  state : DescState := .idle
  serial : Nat := 0
  base : Dword := 0
  e : Nat := 0
  ex : Bool := false
  red : Bool := false
  rank : Nat := 0
  any : Bool := false
  delta : Nat := 0
  maskAddr : Dword := 0
  countAddr : Dword := 0
  /-- cycle of the close, for a LOSSY window -/
  close : Nat := 0
  /-- blocks on time or written, with their counts -/
  got : List (Nat × Nat) := []
  deriving DecidableEq, Repr

/-- An exact send slot: who marked it busy, whether as an `RST` or `RATM` (12 R253, R257), and the reply that a `RATM` waits
for. -/
structure SendSlot where
  busy : Bool := false
  dest : Nat := 0
  rst : Bool := false
  reply : Option (SeqName × XReg × Bool) := none
  /-- the issue cycle of the send that marked it -/
  since : Nat := 0
  deriving DecidableEq, Repr

/-- A send on its way to its port (12 R246, R259 to R261): the issue cycle of its instruction; the form's class (none for `PSEND`), kind, template, source,
destination, payload of a signal or atomic, length in bytes, atomic function and size, the register of a reply, the handle of a
program's send; then the bytes read. `planned` marks a send that must leave on its exact cycle or raise TIMING. -/
structure SendPlan where
  since : Nat
  cls : Option Bool
  kind : Nat
  tmpl : Dword
  src : Option Dword
  dst : Option Dword
  payload : List Byte
  len : Nat
  fn : Nat
  size : Bool
  reply : Option XReg
  hd : Option Idx64
  relay : Nat
  tokens : Nat
  planned : Bool
  free : Bool
  read : Bool
  first : Nat
  head : List Byte
  data : List Byte
  /-- it has passed check 6 and marked its slot, and waits for acknowledgements (12 R253, R257) -/
  marked : Bool := false
  /-- a packet of an exchange that carries a token from a core of another die (12 R243) -/
  away : Bool := false
  deriving DecidableEq, Repr

/-- A collective handle of a shepherd core (12 R263 to R265). -/
structure Handle where
  busy : Bool := false
  exchange : Bool := false
  exact : Bool := false
  w : Nat := 0
  s : Nat := 0
  addr : Dword := 0
  t : Nat := 0
  aligned : Bool := false
  pc : Dword := 0
  done : Nat := 0
  armed : List Nat := []
  /-- the steps read so far (12 R264) -/
  steps : List (List Byte) := []
  node : Nat := 0
  /-- EXACT sends not acknowledged, oldest first: kind, destination rank, relay and tokens that it carries -/
  flight : List (Nat × Nat × Nat × Nat) := []
  /-- an exchange: own tokens not acknowledged, packets waiting for room in W, addresses of its two template tables, and the
  stage-1 packets whose tokens it passes on: number, tokens left, notice to send (12 R265) -/
  tokens : Nat := 0
  /-- the W of the last exchange once its list has been read, and how many exchanges the handle has had -/
  xw : Nat := 0
  count : Nat := 0
  outq : List SendPlan := []
  tab1 : Dword := 0
  tab2 : Dword := 0
  relays : List (Nat × Nat × Packet × PortId) := []
  deriving DecidableEq, Repr

/-- An EXACT packet that has arrived and is not yet performed: it has one of the 256 buffers of its shepherd, or it stands on its
held link, behind the packet that has found none (12 R254, R257). -/
structure Held where
  id : Nat
  a : Arrival
  admitted : Bool
  deriving DecidableEq, Repr

/-- An entry of the step mailbox: the posting unit and the value (12 R266). -/
structure Post where
  unit : UnitId
  value : Dword
  deriving DecidableEq, Repr

/-- One compute core or shepherd-core site. -/
structure Core where
  scl : Seq := {}
  ld : Seq := {}
  cmp : Seq := {}
  st : Seq := {}
  /-- `TAGS` and the pending count of each tag (11 R207) -/
  tags : BitVec 64 := 0
  tagPending : Vector Nat 64 := Vector.replicate 64 0
  /-- the last cycle on which a completion set tags, and the tags that it set (11 R207) -/
  tagsAt : Nat := 0
  tagsSet : BitVec 64 := 0
  /-- `TLC0` to `TLC3`, and the last ticket of each context (11 R208) -/
  tlc : Vector Dword 4 := Vector.replicate 4 0
  ticket : Vector Nat 4 := Vector.replicate 4 0
  copies : List Copy := []
  /-- the cycle on which an entry of the copy queue was last freed, and how many then (11 R205) -/
  freedAt : Nat := 0
  freed : Nat := 0
  fold : Dword := 0
  nodeId : Dword := 0
  attempt : BitVec 8 := 0
  /-- `PHASE` bits 1 to 4 -/
  phases : Vector Bool 4 := Vector.replicate 4 false
  flags : BitVec 16 := 0
  shp : BitVec 8 := 0xFF
  /-- a0-a15, b0-b15, o0-o3 by tile code, then la, lb, ls (02 Table 2-4) -/
  tiles : Vector Tile 39 := Vector.replicate 39 (List.replicate 256 0)
  accs : Vector Acc 4 := Vector.replicate 4 ⟨List.replicate 24576 0, .fp32⟩
  planes : Vector (List Byte) 8 := Vector.replicate 8 (List.replicate 12288 0)
  rows : Vector (List Byte) 8 := Vector.replicate 8 (List.replicate 4096 0)
  sq : List ScaleEntry := []
  ft : Vector (BitVec 12) 16 := Vector.replicate 16 0
  streams : Vector (List Word) 4 := Vector.replicate 4 []
  /-- first cycles on which pipe A, pipe B, the special-function unit, the matrix engine, the line read port, the line write
  port, the banked port and the scalar port are free -/
  pipeA : Nat := 0
  pipeB : Nat := 0
  sfu : Nat := 0
  engine : Nat := 0
  lineRead : Nat := 0
  lineWrite : Nat := 0
  banked : Nat := 0
  scalar : Nat := 0
  engineReads : List EngineRead := []
  /-- the first `MXERR` replacement of the attempt: its cycle, and the field of a completion record (10 R196, 14 Table 14-10) -/
  mxerr : Option (Nat × Nat) := none
  reqs : List Req := []
  /-- words whose error is uncorrectable, by kind and place: 0 plane slots, 1 row slots, 2 scale entries (by entry), each by byte
  address; 3 accumulators, by cell; 4 tiles, by lane; 5 stream buffers, by queue and place (10 R196, 15 R326) -/
  bad : List (Nat × Nat) := []
  /-- the partition that holds it, the last one that did, and the node that runs on it (14 R308) -/
  owner : Option PartId := none
  lastOwner : Option PartId := none
  node : Option Nat := none
  quarantined : Bool := false
  muster : Bool := false
  moving : Bool := false
  withdrawn : Bool := false
  fresh : Bool := false
  /-- the rotation, or the exchange of its die, takes it at the end of its node (15 R323) -/
  wanted : Bool := false
  /-- consecutive passing runs since quarantine, and the cycle on which the last muster run began (15 R324, 17 R367) -/
  passes : Nat := 0
  runStart : Nat := 0
  /-- the shepherd part (12) -/
  descs : Vector Desc 64 := Vector.replicate 64 {}
  mailbox : List Post := []
  slots : Vector SendSlot 64 := Vector.replicate 64 {}
  handles : Vector Handle 64 := Vector.replicate 64 {}
  exbuf : List Held := []
  deriving DecidableEq, Repr

/-- A register that an effect will write or an instruction names (05 R86). -/
inductive Dest
  | x (s : SeqId) (r : XReg)
  | p (s : SeqId) (r : PReg)
  | tile (u : UnitId) (code : Nat)
  | acc (u : UnitId) (c : BitVec 2)
  | plane (u : UnitId) (n : Nat)
  | row (u : UnitId) (n : Nat)
  deriving DecidableEq, Repr

/-- Where the bytes that a load reads go. -/
inductive LoadTo
  | x (r : XReg) (sx : Bool)
  | tile (code : Nat)
  | lanes (code : Nat)
  | plane (n : Nat) (planes : Nat)
  | row (n : Nat)
  | scale (id : Nat)
  | wait (t0 : Nat)
  | ring (target : Nat)
  | record (rx : Idx64) (serial : Nat)
  deriving DecidableEq, Repr

/-- Rank of an access's port among the writes of one array cycle (07 R133). -/
inductive PortRank
  | copy | service (unit : UnitId) | ring | scalar | banked | line
  deriving DecidableEq, Repr

/-- The operands of one K-block as the matrix engine read them: plane slot; the row slots one after another, with the offset of
the block's first stored row; metadata slot; and for each the byte addresses of words whose error is uncorrectable
(10 R187, R196, R198, R200). -/
structure KBlock where
  plane : List Byte
  rows : List Byte
  off : Nat
  index : List Byte
  badPlane : List Nat
  badRows : List Nat
  badIndex : List Nat
  deriving DecidableEq, Repr

/-- What an operation in flight does when its cycle comes. -/
inductive EffOp
  /-- an index register of a sequencer; `cross` for `XSET` (05 R85) -/
  | setX (s : SeqId) (r : XReg) (v : Dword) (cross : Bool)
  | setP (s : SeqId) (r : PReg) (v : Bool) (cross : Bool)
  /-- lanes of a tile, from lane 0 on; the lanes beyond keep their value (08 R151) -/
  | setTile (u : UnitId) (code : Nat) (lanes : Tile)
  /-- a last-result register as a whole (08 R152) -/
  | setLast (u : UnitId) (code : Nat) (lanes : Tile)
  | setFlags (u : UnitId) (bits : BitVec 16)
  | clearFlags (u : UnitId) (bits : BitVec 16)
  | setShp (u : UnitId) (v : BitVec 8)
  | setFt (u : UnitId) (n : BitVec 4) (v : BitVec 12)
  | push (u : UnitId) (q : BitVec 2) (ws : Tile)
  /-- a whole slot (07 R144) -/
  | setSlot (u : UnitId) (plane : Bool) (n : Nat) (data : List Byte)
  | setScale (u : UnitId) (id : Nat) (data : List Byte)
  /-- the window of an accumulator that `ACCIN` writes, or all of it (10 R201, R202) -/
  | setAcc (u : UnitId) (c : BitVec 2) (cells : List (Nat × Word)) (kind : Option AccKind)
  | clearAcc (u : UnitId) (c : BitVec 2)
  /-- an `MMA` or `MMAS`: the operands gathered so far, block by block (10 R198) -/
  | gather (u : UnitId) (id b pa : Nat) (rows : List Nat)
  | matrix (u : UnitId) (id : Nat) (c : BitVec 2) (fa fb : BitVec 4) (p : Nat) (kb : Nat) (zero sparse : Bool) (pb pm : Nat)
      (scales : List (List Byte × List Nat)) (blocks : List KBlock)
  /-- a read of an array, at most 1,024 bytes a cycle: package offsets still to read, bytes read, where they go, the landing
  cycle, and the table's array cycle (07 R132, R136) -/
  | load (addrs : List Nat) (got : List Byte) (dest : LoadTo) (land tbl : Nat)
  /-- a write of an array: package offsets and bytes, and the table's array cycle -/
  | store (rank : PortRank) (cells : List (Nat × Byte)) (tbl : Nat)
  | atomic (rank : PortRank) (addr : Nat) (fn : BitVec 3) (wide : Bool) (b c : Dword) (xd : Option XReg) (land tbl : Nat)
  /-- a source line of a copy is read; a destination line is written; `sent`: its request to window 0x10 or 0x20 has been
  dispatched (11 R209, R211) -/
  | copyRead (serial : Nat) (addrs : List Dword) (sent : Bool)
  | copyWrite (serial : Nat) (cells : List (Dword × Option Dword × Byte × Nat)) (sent : Bool)
  | postStep (dest : UnitId) (value : Dword)
  /-- the entry that a squashable `STEPGET` took in a branch's shadow, until the branch has resolved (12 R266, 06 R119) -/
  | takeStep (took : Post)
  /-- the members of a ring that must have issued `RROT` on the same cycle in the same direction (07 R149) -/
  | ringCheck (prev : Bool) (ring : List UnitId)
  | clearTags (u : UnitId) (mask : Dword)
  /-- a send: its template and source are read, then it is checked and leaves (12 R246, Table 12-3) -/
  | send (p : SendPlan)
  /-- a LOSSY block on time: written, and its mask bit set (12 R250) -/
  | deliver (port : PortId) (rx : Idx64) (serial blk cnt : Nat) (off : Nat) (data : List Byte)
  /-- an EXACT block: written, and counted by an open EXACT descriptor; with the last one of a packet the packet is performed
  (12 R249, R253) -/
  | exact (rx : Option Idx64) (off : Nat) (data : List Byte) (done : Option Nat)
  /-- an RDC hop combines block `j` of a packet in transit with the buffer (12 R251) -/
  | combine (port : PortId) (key j : Nat) (rx : Idx64) (serial blk off : Nat) (op : Bool)
  /-- a packet in transit is ready to leave since a cycle; `src` is its arrival port, or 12 for a local send (12 R240) -/
  | depart (key : Nat) (port : PortId) (chan ready src : Nat)
  /-- a notice or a reply sets out: its destination's shepherd acts on the first entry of its return route (12 R242) -/
  | answer (a : Arrival)
  /-- its last beat leaves; the cycle of the first -/
  | gone (key : Nat) (port : PortId) (chan first : Nat)
  /-- a buffered signal or atomic is tried (12 R257) -/
  | perform (id : Nat)
  | head (hd : Idx64)
  /-- the list of an exchange is read; `listed`: it has been, and its tokens are (12 R265) -/
  | exchange (hd : Idx64) (list : Dword) (count : Nat) (listed : Bool)
  /-- tokens of an exchange have been written or acknowledged: own ones for relay 0 (12 R265) -/
  | tokensDone (hd : Idx64) (relay n : Nat)
  | closed (rx : Idx64) (serial : Nat)
  /-- a fault held until its branch resolves (06 R120) -/
  | fault (r : Raise)
  /-- a fault found when its operation would have landed (07 R137) -/
  | late (r : Raise)
  deriving DecidableEq, Repr

/-- An operation in flight: the cycle on which it acts, the cycle and the sequencer that issued it with the address of the
instruction, its node, whether it is squashable, when it commits (06 R119), and whether its latency is fixed (05 R86). -/
structure Eff where
  at_ : Nat
  iss : Nat
  by_ : SeqId
  pc : Dword
  node : Nat
  sq : Bool
  commit : Nat
  fixed : Bool
  /-- issued in aligned mode: a delay at the target raises `TIMING` (07 R137) -/
  timed : Bool := false
  /-- the ordering class and the ord of an access to an array that has not acted (07 R135, 02 Table 2-3) -/
  oc : Option (BitVec 4) := none
  ord : BitVec 3 := 0
  /-- the effective address of an access to an array, for its fault record; of a banked one that of its first element, with the size of an
  element (15 Table 15-3) -/
  ea : Dword := 0
  esz : Nat := 0
  /-- the register that stays pending while a fault is held in its operation's place (05 R86, 06 R120) -/
  dst : Option Dest := none
  op : EffOp
  deriving DecidableEq, Repr

/-- When an event of the agenda is due: on a cycle, or on the first cycle that begins at or after an instant of drone time
(13 R277). -/
inductive Due
  | cyc (n : Nat)
  | ns (n : Nat)
  deriving DecidableEq, Repr

/-- An event to come, with the node and the issue cycle of the instruction that caused it, where one did. -/
structure Todo where
  due : Due
  ev : Instr
  node : Option Nat := none
  iss : Nat := 0
  deriving DecidableEq, Repr

/-- A start entry of a variant (03 Table 3-6). -/
structure Entry where
  rank : Nat
  q : SeqName
  addr : Nat
  offset : Nat
  deriving DecidableEq, Repr

/-- A variant of a timetable family (03 Table 3-6). -/
structure Variant where
  cores : Nat
  detour : Nat
  entries : List Entry
  folds : List Dword
  deriving DecidableEq, Repr

/-- A timetable family (03 Table 3-6). -/
structure Family where
  id : Nat
  nonidem : Bool
  tolerant : Bool
  group : Bool
  budget : Nat
  variants : List Variant
  deriving DecidableEq, Repr

/-- A pinned image (03 R54, R58); `ranges` hold the kind of core, the first byte and the size of each code section. -/
structure Image where
  handle : Nat
  /-- the image id of its header (03 R48) -/
  id : List Byte := []
  part : PartId
  ranges : List (Bool × Nat × Nat)
  families : List Family
  retiring : Bool := false
  /-- the `UNPIN` packets whose records wait for the release -/
  unpins : List (QueueId × Nat) := []
  deriving DecidableEq, Repr

/-- An arrival at a rendezvous or a fold (05 R87, R95). -/
structure Arrived where
  who : SeqId
  bar : Bool
  lvl : Nat
  k : Nat
  seg : BitVec 8
  d : Dword
  at_ : Nat
  budget : Word
  deriving DecidableEq, Repr

/-- A staged page of a node (16 R343): first address of the page in the context, its size, the shadow frame, and the address of
the live leaf. -/
structure Staged where
  va : Nat
  size : Nat
  frame : Nat
  leaf : Nat
  deriving DecidableEq, Repr

/-- A pre-image of a committed node (16 R344): address of the leaf and of the page, old leaf, new leaf, page size. -/
structure PreImage where
  leaf : Nat
  va : Nat
  old : Dword
  new : Dword
  size : Nat
  deriving DecidableEq, Repr

/-- The life of a node (14 R303 to R306, 15 R313 to R331). -/
inductive NodeState
  /-- launched, waiting for its placement; held: not armed until system software releases the translation -/
  | waiting (held : Bool)
  | armed | running
  /-- all `END`s issued; waiting for its operations; waiting for the group's decision -/
  | ending | voted | committing
  | committed | tainted | inDoubt
  /-- halted by the debugger -/
  | halted
  deriving DecidableEq, Repr

/-- A node (01 R12). -/
structure Node where
  nd : Nat
  id : Dword
  queue : QueueId
  seq : Nat
  part : PartId
  pasid : Nat
  image : Nat
  family : Family
  variant : Variant
  args : Dword
  fresh : Bool
  strict : Bool
  coord : Nat
  tag : Nat
  mask : Word
  record : Bool
  attempt : Nat
  cores : List UnitId
  sheps : List (Nat × UnitId)
  t0 : Nat
  rank : Nat
  size : Nat
  state : NodeState
  waitFrom : Nat
  arrived : List Arrived
  announced : List (Bool × Nat × Nat × Dword)
  staged : List Staged
  pre : List PreImage
  /-- units that must still pass a muster run, with the cycle of the node's stop on each (15 R324) -/
  uncleared : List (UnitId × Nat)
  lossyZeros : Nat
  votes : List Nat
  /-- the cycle and drone time of its stop; `FLAGS` then, and the first `MXERR` replacement (14 Table 14-10, 15 Table 15-3) -/
  stopAt : Nat
  stopDrone : Nat := 0
  flagsAt : BitVec 16 := 0
  mxerrAt : Nat := 0
  /-- the fault record of a part in doubt; the `COMMIT-VOTE` packet that decides it (15 R322) -/
  record_ : List Byte := []
  voteOf : Option (QueueId × Nat) := none
  /-- a quarantined unit that it used (15 R325) -/
  taint : Option UnitId := none
  /-- re-queues that count towards the limit of 15 (15 R317, R318) -/
  tries : Nat := 0
  /-- an alarm came between its arming and its first start (14 R305) -/
  alarmed : Bool := false
  /-- the halt cycle, and the saved cores of a halted node (15 R330) -/
  halt : Option Nat
  saved : List (UnitId × Core)
  savedSpad : List Host.Cell
  savedSeeds : List (UnitId × Nat)
  /-- events of a halted node that move with its resume (15 R331) -/
  later : List Todo
  stepping : Option SeqId
  /-- everything that a halted node started had completed on an earlier cycle (15 R330, R331) -/
  quiet : Bool := false
  /-- a single step that waits for the node's cores (15 R331, R332) -/
  pendingStep : Option SeqId := none
  deriving DecidableEq, Repr

/-- A completion record (14 Table 14-10). -/
structure Record where
  id : Dword
  seq : Nat
  typ : Nat
  status : Nat
  fault : Nat
  unit : Nat
  kind : Nat
  attempt : Nat
  cores : Nat
  detour : Nat
  flags : BitVec 16
  cycles : Nat
  zeros : Nat
  mxerr : Nat
  /-- the node whose writes come before the record (11 R224); 0 for none -/
  after : Nat := 0
  deriving DecidableEq, Repr

/-- States of a queue (14 Table 14-3). -/
inductive QState
  | idle | run | parked | stopped | overrun
  deriving DecidableEq, Repr

/-- The packet of a queue that has been read and has not completed (14 R298, R301). -/
structure Started where
  /-- the number of this start: what is due for it names it -/
  id : Nat
  seq : Nat
  typ : Nat
  words : List Word
  at_ : Nat
  deriving DecidableEq, Repr

/-- A command queue: its context, the registers of its notify page, and what the drover holds of it (14 R292 to R311). -/
structure Queue where
  cfg : Option QueueCfg := none
  tail : Word := 0
  head : Word := 0
  state : QState := .idle
  cause : BitVec 4 := 0
  out : Bool := true
  ctail : Word := 0
  chead : Word := 0
  captured : Option Word := none
  started : Option Started := none
  /-- the image key set of its partition, and `REQSIG`, when that packet started (17 R363) -/
  keys : List (List Byte) := []
  reqSig : Bool := false
  due : List Record := []
  debuggable : Bool := false
  /-- the fault record: node id, then the bytes of 15 Table 15-3 -/
  faultRec : Option (List Byte) := none
  /-- a pre-emption request kept for the next launch: the partition and the waiting node for which it asks (15 R318) -/
  kept : Option (PartId × Nat) := none
  /-- held back by a held re-queue (15 R317) -/
  heldBack : Bool := false
  deriving DecidableEq, Repr

/-- A snapshot: id, context, region, and the recorded leaves by their addresses (16 R347). -/
structure Snapshot where
  id : Nat
  /-- the context whose pages it holds -/
  pasid : Nat
  base : Nat
  len : Nat
  leaves : List (Nat × Dword)
  deriving DecidableEq, Repr

/-- What the plug-in of a partition has decided: the queues that it admits, where it names them, the priorities of the partition's queues where
they differ from those of their creation, and the frames of 64 KiB and of 32 MiB that it asks the memory manager for. Empty, it is the
scheduler's default policy (17 R360, R361, Table 17-4; log 39). -/
structure Policy where
  admits : Option (List QueueId) := none
  order : List (QueueId × Nat) := []
  asks : Nat × Nat := (0, 0)
  deriving DecidableEq, Repr

/-- A call that a lower level has put into the mailbox of a level of a firmware core (17 R360). -/
structure FwCall where
  core : Fin 8
  level : FwLevel
  call : Instr
  deriving DecidableEq, Repr

/-- A partition (14 R307, 16 R343, R347, 17 R360, R363). -/
structure Partition where
  target : Nat := 0
  ceiling : Nat := 0
  usage : Nat := 0
  /-- free frames of the version pool, and whether each is of 32 MiB (16 R343) -/
  pool : List (Nat × Bool) := []
  snapshots : List Snapshot := []
  pendingGroup : Bool := false
  keys : List (List Byte) := []
  reqSig : Bool := false
  plugin : Bool := true
  policy : Policy := {}
  deriving DecidableEq, Repr

/-- A Wying port (12 R238 to R240, R267). -/
structure Port where
  reach : Nat := 0
  late : Nat := 0
  badCrc : Nat := 0
  stray : Nat := 0
  fill : Nat := 128
  replay : Bool := false
  trained : Bool := false
  up : Bool := false
  /-- the busy intervals of the three outbound channels, and the guard intervals: first and last cycle -/
  chan : Vector (List (Nat × Nat)) 3 := Vector.replicate 3 []
  guards : List (Nat × Nat) := []
  /-- the cycle from which no channel carries an inbound beat (13 R285) -/
  quietFrom : Nat := 0
  replays : Nat := 0
  /-- the reach of a re-training that is deferred (17 R367) -/
  deferred : Option Nat := none
  deriving DecidableEq, Repr

/-- What leaves the package, or is answered to the outside. -/
inductive Out
  | packet (port : PortId) (chan : Nat) (first : Nat) (pkt : Packet)
  /-- service words, with the ports on which they leave (13 R271, R279) -/
  | notice (ports : List Nat) (n : NoticeWord)
  | faultWord (ports : List Nat) (f : FaultWord)
  | beacon (ports : List Nat) (rank lim slip lowest : Nat) (silent : List Nat)
  | stamp (at_ : Nat)
  | announce (bar : Bool) (k : Nat) (d : Dword)
  | vote (nd : Nat) (yes : Bool)
  | decision (nd : Nat) (yes : Bool)
  /-- a configuration request completed with data, or with retry status (17 R356) -/
  | config (port : Nat) (retry : Bool)
  /-- answers of the DOE mailbox: a protocol version, what the exchange agrees on, a hash of the certificate chain, the chain, a measurement
  record with its signature, or an error (17 R364) -/
  | doe (answer : List Byte)
  | doeError
  | attested (record sig : List Byte)
  /-- the handle and the image id that a `PIN` reports (03 R48) -/
  | pinned (handle : Nat) (id : List Byte)
  | faultRead (q : QueueId) (rec : List Byte)
  /-- a firmware call refused, or answered with page addresses -/
  | refusedCall (what : Nat)
  | pages (vas : List Nat)
  deriving DecidableEq, Repr

/-- The group as this package sees it (13 R269 to R281). -/
structure Group where
  member : Bool := false
  rank : Nat := 0
  members : List Nat := [0]
  tag : Nat := 0
  parent : Nat := 0xFF
  alternate : Nat := 0xFF
  deputy : Nat := 0
  bell : Bool := true
  bellRank : Nat := 0
  leadUs : Nat := 250
  joining : Option (QueueId × Nat) := none
  leaving : Option (QueueId × Nat) := none
  /-- the tree neighbours and the ports on which their beacons come; drone time of the last beacon of each, and the limit codes
  reported -/
  tree : List (Nat × Nat) := []
  heard : List (Nat × Nat) := []
  limits : List (Nat × Nat) := []
  silent : List Nat := []
  notices : List NoticeWord := []
  /-- announcements that came before the group node they concern was launched here: fold or rendezvous, rank, number, instant (05 R88,
  R95) -/
  early : List (Bool × Nat × Nat × Dword) := []
  /-- notices that a joiner has heard before it is a member (13 R278) -/
  listen : List NoticeWord := []
  faults : List FaultWord := []
  seen : List (Nat × Nat) := []
  sync : Bool := true
  goodExchanges : Nat := 0
  /-- the number of the word by which a joiner has told that it is ready (13 R278, log 29) -/
  asked : Option Nat := none
  /-- the offset of the last exchange, after a step forward 0; none before the first (13 R269) -/
  lastOffset : Option Int := none
  sent : Nat := 0
  deriving DecidableEq, Repr

/-- A cause that stops a node at the end of this cycle (15 Table 15-2): rank, unit, sequencer, and what is recorded. -/
structure Cause where
  node : Nat
  rank : Nat
  unit : Nat
  seq : Option (SeqName × Dword)
  r : Raise
  deriving DecidableEq, Repr

/-- The phases of one cycle (log 1). -/
inductive Phase
  | resolve | land | events | issue | close
  deriving DecidableEq, Repr

/-- What is kept from the start of the issue phase, to undo what a node that stops on this cycle issued on it (15 R313). -/
structure Before where
  cores : Vector Core 40
  nodes : List Node
  agenda : List Todo
  effs : List Eff
  sent : Nat
  deriving DecidableEq, Repr

/-- A region guard: a physical base, a limit and rights (17 R361). -/
structure RegionGuard where
  base : Nat
  limit : Nat
  r : Bool
  w : Bool
  x : Bool
  deriving DecidableEq, Repr

/-- The state of one package. -/
structure State where
  -- the clock and drone time (01 R8, 13)
  cyc : Nat
  drone : Nat
  /-- the fraction of a nanosecond, in units of 1 / (65 × pitch code) ns (log 3) -/
  droneRem : Nat
  /-- rate correction of the reference oscillator, in units of 2^-32 of its rate (13 R269) -/
  slew : Int
  /-- drone time when usage, beacons and stamps were last looked at (13 R269, R279, 14 R307) -/
  served : Nat
  /-- the nominal count in 65ths of a cycle (13 R272) -/
  n65 : Nat
  droop : Bool
  catchUp : Bool
  pitch : Nat
  epoch : Word
  limit : Nat
  /-- limit codes that the monitor forecasts, with their instants (13 R276) -/
  forecasts : List (Nat × Nat)
  emerg : Bool
  group : Group
  -- the hub (17)
  stage : Nat
  err : Nat
  errV : Bool
  ready : Bool
  alarm : Bool
  alarmAt : Nat
  /-- the alarm sources that are out of their ranges (17 R366) -/
  outOfRange : List AlarmSource
  keys : List Nat
  eraseMask : List Nat
  /-- slots that an alarm has erased and that no key has been loaded into since (17 R366) -/
  erased : List Nat
  /-- the wrapped key last loaded into a slot (16 R352) -/
  keyBlobs : List (Nat × List Byte)
  minVersion : Nat
  /-- the modes of the host ports, the tray's lower cap in watts, and the frames of the repair map, as flash gives them (17 R351, R354, R358,
  R368) -/
  cxl : Vector Bool 2
  trayCap : Option Nat
  repair : List Nat
  /-- how far the DOE mailbox of each host port has come in its exchange: version, capabilities, algorithms (17 R358, R364, log 39) -/
  spdm : Vector Nat 2
  /-- the bytes of the firmware mailboxes in BAR0, which is 2^14 bytes at port × 2^14, and the calls in the mailboxes of the levels of the
  firmware cores, the oldest first (17 R358, R360) -/
  bar0 : List Host.Cell
  fwCalls : List FwCall
  roots : List (Nat × Nat)
  /-- contexts that an erased slot 0 has lost and firmware has not rebuilt (16 R353) -/
  lost : List Nat
  bound : List (Nat × Nat)
  cacheOn : List Nat
  hostDown : List Nat
  /-- the region guards of the firmware cores, 16 each at most, which the monitor alone sets (17 R361) -/
  regionGuards : List (Fin 8 × RegionGuard)
  /-- blocked plug-in accesses: unit id of the firmware core, and address (17 R361) -/
  guardRecs : List (Nat × Nat)
  dieVersion : Vector Nat 4
  /-- the firmware image of each die that has been updated since power-on (17 R367) -/
  dieImages : List (Nat × List Byte)
  retired : List Nat
  poisoned : List Nat
  badDev : List Nat
  badSpad : List Nat
  badHost : List Nat
  retrain : List (Nat × Nat)
  -- the cores (01)
  cores : Vector Core 40
  /-- which site of each die is active (15 R323) -/
  active : Vector Bool 4
  -- memories (01 Table 1-4)
  spad : List Host.Cell
  /-- for each compute core the seed of the bytes that its scratchpad holds where nothing has been written: 0 for zeros (05 Table
  5-1, log 5) -/
  spadSeed : Vector Nat 32
  dev : List Host.Cell
  /-- the keys under which lines of device memory were last written, the latest first: first line, count, key (16 R352, log 23) -/
  devKeys : List (Nat × Nat × List Byte)
  host : List Host.Cell
  code : List Host.Cell
  codeSh : List Host.Cell
  -- the front end (14)
  queues : Vector Queue 256
  parts : Vector Partition 16
  fabric : Option PartId
  detour : Nat
  /-- start of the 100 ms window (14 R307) -/
  window : Nat
  images : List Image
  nodes : List Node
  rr : Vector Nat 8
  musterUs : Nat
  musterNext : Nat
  shepNext : Nat
  -- the fabric (12)
  ports : Vector Port 12
  /-- packets that a hop or a sender holds until their last beat has left -/
  transit : List (Nat × Packet)
  -- the model's own (logs 1, 5, 6)
  phase : Phase
  turn : List SeqId
  cur : SeqId
  /-- the issue cycle of the instruction that caused the event at hand -/
  evIss : Nat
  agenda : List Todo
  effs : List Eff
  causes : List Cause
  before : Option Before
  outbox : List Out
  serial : Nat
  free : Nat
  deriving DecidableEq, Repr

/-- The package right after reset is released: the values of 17 Table 17-2 and R357, 13 R270, R272, R274, 14 Tables 14-2 and
14-3, R307, 12 R267, 15 R323; everything else as log 2 says. Its one event is the first power-on step (17 R354). -/
def State.reset : State where
  cyc := 0
  drone := 0
  droneRem := 0
  slew := 0
  served := 0
  n65 := 0
  droop := false
  catchUp := false
  pitch := 250
  epoch := 0
  limit := 1023
  forecasts := []
  emerg := false
  group := {}
  stage := 1
  err := 0
  errV := false
  ready := false
  alarm := false
  alarmAt := 0
  outOfRange := []
  keys := [0]
  eraseMask := []
  erased := []
  keyBlobs := []
  minVersion := 0
  cxl := Vector.replicate 2 false
  trayCap := none
  repair := []
  spdm := Vector.replicate 2 0
  bar0 := []
  fwCalls := []
  roots := []
  lost := []
  bound := []
  cacheOn := []
  hostDown := []
  regionGuards := []
  guardRecs := []
  dieVersion := Vector.replicate 4 0
  dieImages := []
  retired := []
  poisoned := []
  badDev := []
  badSpad := []
  badHost := []
  retrain := []
  cores := Vector.replicate 40 {}
  active := Vector.replicate 4 false
  spad := []
  spadSeed := Vector.replicate 32 0
  dev := []
  devKeys := []
  host := []
  code := []
  codeSh := []
  queues := Vector.replicate 256 {}
  parts := Vector.replicate 16 {}
  fabric := none
  detour := 0
  window := 0
  images := []
  nodes := []
  rr := Vector.replicate 8 255
  musterUs := 250
  musterNext := 0
  shepNext := 0
  ports := Vector.replicate 12 {}
  transit := []
  phase := .resolve
  turn := []
  cur := ⟨0, .scl⟩
  evIss := 0
  agenda := [{ due := .cyc 0, ev := .powerOn }]
  effs := []
  causes := []
  before := none
  outbox := []
  serial := 1
  free := 0

end Sys2Proof.Machine
end

