-- ==== Sys2Proof/Machine/Mem.lean ====
section
/-! DEFINITION. Memories as cells in one canonical form, and the bytes of the scratchpads, of device memory, of host memory
and of the code stores (01 Table 1-4, 00 R3). -/

namespace Sys2Proof.Machine
open Host

/-- The byte at an address, where `bg` says what an unlisted address reads as. -/
def cellRead (bg : Nat → Byte) : List Cell → Nat → Byte
  | [], a => bg a
  | (k, v) :: t, a => if k = a then v else if a < k then bg a else cellRead bg t a

/-- Writing one byte keeps the cells sorted and lists no byte equal to what an unlisted address reads as. -/
def cellWrite (bg : Nat → Byte) : List Cell → Nat → Byte → List Cell
  | [], a, b => if b = bg a then [] else [(a, b)]
  | (k, v) :: t, a, b =>
    if a < k then (if b = bg a then (k, v) :: t else (a, b) :: (k, v) :: t)
    else if a = k then (if b = bg a then t else (a, b) :: t)
    else (k, v) :: cellWrite bg t a b

/-- The addresses of the cells rise strictly from one above `lo` on. -/
def cellsAbove (bg : Nat → Byte) : Option Nat → List Cell → Bool
  | _, [] => true
  | lo, (k, v) :: t => (match lo with | none => true | some l => decide (l < k)) && v != bg k && cellsAbove bg (some k) t

/-- The canonical form of a memory: addresses strictly rising, and no entry equal to what an unlisted address reads as. -/
def Memory.wf (bg : Nat → Byte) (m : List Cell) : Bool := cellsAbove bg none m

/-- Writes bytes one after another from an address on. -/
def cellWrites (bg : Nat → Byte) (m : List Cell) (a : Nat) : List Byte → List Cell
  | [] => m
  | b :: bs => cellWrites bg (cellWrite bg m a b) (a + 1) bs

/-- Reads `n` bytes from an address on. -/
def cellReads (bg : Nat → Byte) (m : List Cell) (a : Nat) : Nat → List Byte
  | 0 => []
  | n + 1 => cellRead bg m a :: cellReads bg m (a + 1) n

/-- Drops the cells of an address range: they read as unlisted again. -/
def cellForget (m : List Cell) (lo hi : Nat) : List Cell :=
  m.filter (fun c => c.1 < lo || hi ≤ c.1)

/-- What an unlisted byte of device memory, host memory and the code stores reads as (log 4). -/
def zeroBg (_ : Nat) : Byte := 0

/-- The size of a core's scratchpad (01 Table 1-4). -/
def spadSize : Nat := 2 ^ 29

/-- The unit with this number; numbers from 40 on name no unit and are never reached. -/
def unitOf (n : Nat) : UnitId := Fin.ofNat 40 n

/-- What an unlisted byte of the scratchpads reads as: zero, or the undefined byte of its core's seed (00 R1, logs 4, 5). -/
def State.spadBg (s : State) (a : Nat) : Byte :=
  let seed := s.spadSeed.get (Fin.ofNat 32 (a / spadSize))
  if a < 2 ^ 34 && seed != 0 then Config.freeByteAt seed a else 0

/-- The byte at a package offset of the scratchpads, core c from c × 2^29 on (01 R7). -/
def State.spadByte (s : State) (a : Nat) : Byte := cellRead s.spadBg s.spad a

def State.setSpadByte (s : State) (a : Nat) (b : Byte) : State := { s with spad := cellWrite s.spadBg s.spad a b }

def State.setSpadCells (s : State) (cells : List (Nat × Byte)) : State :=
  cells.foldl (fun s c => s.setSpadByte c.1 c.2) s

/-- The content of a compute core's scratchpad is lost: it reads as undefined from now on, or as zero with seed 0. A shepherd core
has no scratchpad (01 Table 1-4). -/
def State.wipeSpad (s : State) (u : UnitId) (seed : Nat) : State :=
  if h : u.val < 32 then
    { s with
      spad := cellForget s.spad (u.val * spadSize) ((u.val + 1) * spadSize)
      spadSeed := s.spadSeed.set u.val seed h }
  else s

def State.spadBytes (s : State) (a n : Nat) : List Byte := cellReads s.spadBg s.spad a n

/-- Physical device memory, 1 TiB, each line as it reads under the key that it has been written under (01 Table 1-4, 16 R352). -/
def State.devBytes (s : State) (a n : Nat) : List Byte := cellReads zeroBg s.dev a n

def State.setDevBytes (s : State) (a : Nat) (bs : List Byte) : State := { s with dev := cellWrites zeroBg s.dev a bs }

/-! ### The keys of device memory (16 R352)

Every line is encrypted under the key of the slot that the entry names through which it was last written. A line that nothing has written
reads as zero under every key (log 4). -/

/-- The key last loaded into a slot, as its wrapped form names it; a slot that nothing has loaded has the key of power-on. -/
def State.keyOf (s : State) (slot : Nat) : List Byte := ((s.keyBlobs.find? (fun k => k.1 == slot)).map (·.2)).getD []

/-- The key that a line of device memory was last written under, where one is recorded. -/
def State.lineKey (s : State) (x : Nat) : Option (List Byte) :=
  (s.devKeys.find? (fun r => r.1 ≤ x && x < r.1 + r.2.1)).map (·.2.2)

/-- The line has been written under another key. -/
def State.foreign (s : State) (key : List Byte) (x : Nat) : Bool := (s.lineKey x).any (fun k => k != key)

/-- A byte of device memory as it reads under a key: undefined, as a function of its line, where the line stands under another key. -/
def State.byteUnder (s : State) (key : List Byte) (a : Nat) : Byte :=
  let x := a / 64
  if s.foreign key x then Config.otherKey ((s.lineKey x).getD []) key x (s.devBytes (64 * x) 64) (a % 64) else cellRead zeroBg s.dev a

/-- Bytes of device memory as they read under the key of a slot. -/
def State.readKey (s : State) (slot a n : Nat) : List Byte :=
  let key := s.keyOf slot
  if s.devKeys.any (fun r => r.2.2 != key && decide (64 * r.1 < a + n) && decide (a < 64 * (r.1 + r.2.1))) then
    (List.range n).map (fun i => s.byteUnder key (a + i))
  else s.devBytes a n

/-- A range of lines, first line, count and key, that is written now: joined to the range written last where they touch under one key. -/
def noteKey (r : Nat × Nat × List Byte) (l : List (Nat × Nat × List Byte)) : List (Nat × Nat × List Byte) :=
  let fin := r.1 + r.2.1
  let meets (h : Nat × Nat × List Byte) : Bool := decide (h.1 < fin) && decide (r.1 < h.1 + h.2.1)
  if (l.find? meets).any (fun h => h.2.2 == r.2.2 && decide (h.1 ≤ r.1) && decide (fin ≤ h.1 + h.2.1)) then l
  else
    let r := match l with
      | h :: _ => if h.2.2 == r.2.2 && decide (h.1 ≤ fin) && decide (r.1 ≤ h.1 + h.2.1) then
          (min h.1 r.1, max (h.1 + h.2.1) fin - min h.1 r.1, r.2.2) else r
      | [] => r
    r :: l.filter (fun h => decide (h.1 < r.1) || decide (r.1 + r.2.1 < h.1 + h.2.1))

/-- The lines that an access touches: first line and count. -/
def lineSpan (a n : Nat) : Nat × Nat := if n = 0 then (a / 64, 0) else (a / 64, (a + n - 1) / 64 + 1 - a / 64)

/-- A line that has been written under another key, as a write under this one finds it. -/
def State.rekeyed (s : State) (key : List Byte) (d : List Cell) (x : Nat) : List Cell :=
  if s.foreign key x then cellWrites zeroBg d (64 * x) ((List.range 64).map (fun i => s.byteUnder key (64 * x + i))) else d

/-- Bytes of device memory written under the key of a slot; what stands beside them in the first and the last line is read under it. -/
def State.writeKey (s : State) (slot a : Nat) (bs : List Byte) : State :=
  let key := s.keyOf slot
  let x := lineSpan a bs.length
  let ends := if x.2 = 0 then [] else [x.1, x.1 + x.2 - 1]
  { s with
    dev := cellWrites zeroBg (ends.foldl (s.rekeyed key) s.dev) a bs
    devKeys := if x.2 = 0 then s.devKeys else noteKey (x.1, x.2, key) s.devKeys }

/-- Whole lines of device memory that read as zero under the key of a slot. -/
def State.blankKey (s : State) (slot a n : Nat) : State :=
  { s with
    dev := cellForget s.dev a (a + n)
    devKeys := noteKey (a / 64, n / 64, s.keyOf slot) s.devKeys }

/-- Host memory as a PASID sees it: its addresses stand at PASID × 2^56 (16, window 0x20). -/
def State.hostBytes (s : State) (pasid a n : Nat) : List Byte := cellReads zeroBg s.host (pasid * 2 ^ 56 + a) n

def State.setHostBytes (s : State) (pasid a : Nat) (bs : List Byte) : State :=
  { s with host := cellWrites zeroBg s.host (pasid * 2 ^ 56 + a) bs }

/-- A word of the code store of compute cores or of shepherd sites (03 R56). -/
def State.codeWord (s : State) (sh : Bool) (a : Nat) : Word :=
  BitVec.ofNat 32 (leNat (cellReads zeroBg (if sh then s.codeSh else s.code) a 4))

def State.setCodeBytes (s : State) (sh : Bool) (a : Nat) (bs : List Byte) : State :=
  if sh then { s with codeSh := cellWrites zeroBg s.codeSh a bs } else { s with code := cellWrites zeroBg s.code a bs }

end Sys2Proof.Machine
end

