-- ==== Sys2Proof/Machine/Numeric.lean ====
section
/-! DEFINITION. Number formats, rounding and the helpers of arithmetic (04). -/

namespace Sys2Proof.Machine

/-- The value of an element: NaN, a signed infinity, or (-1)^neg × m × 2^e exactly (04 R60). -/
inductive FVal
  | nan
  | inf (neg : Bool)
  | fin (neg : Bool) (m : Nat) (e : Int)
  deriving DecidableEq, Repr

/-- A set of sticky flags, bit k for flag k (04 R73). -/
abbrev Flags := BitVec 16

/-- `NV`: a NaN arose from non-NaN operands. -/
def fNV : Flags := 0x01
/-- `DZ`: an exact infinite result from finite operands. -/
def fDZ : Flags := 0x02
/-- `OF`: a float result overflowed. -/
def fOF : Flags := 0x04
/-- `UF`: a non-zero exact result rounded to zero. -/
def fUF : Flags := 0x08
/-- `IOVF`: an integer result saturated. -/
def fIOVF : Flags := 0x10
/-- `FSAT`: a float result was clamped. -/
def fFSAT : Flags := 0x20
/-- `MXERR`: a matrix operand element was replaced. -/
def fMXERR : Flags := 0x40
/-- `VOID`: a masked reduction met a block with no valid contribution. -/
def fVOID : Flags := 0x80

/-- A floating-point format: widths, bias, largest finite encoding without its sign, infinity where it has one, and canonical
NaN (04 R61, Table 4-1). -/
structure Fmt where
  e : Nat
  m : Nat
  bias : Nat
  max : Nat
  inf : Option Nat
  nan : Nat

def fp32 : Fmt := ⟨8, 23, 127, 0x7F7FFFFF, some 0x7F800000, 0x7FC00000⟩
def bf16 : Fmt := ⟨8, 7, 127, 0x7F7F, some 0x7F80, 0x7FC0⟩
def fp16 : Fmt := ⟨5, 10, 15, 0x7BFF, some 0x7C00, 0x7E00⟩
def e4m3 : Fmt := ⟨4, 3, 7, 0x7E, none, 0x7F⟩
def e5m2 : Fmt := ⟨5, 2, 15, 0x7B, some 0x7C, 0x7E⟩
def e2m1 : Fmt := ⟨2, 1, 1, 0x7, none, 0⟩

/-- The format of a code (02 Table 2-5). -/
def fmtOf (c : BitVec 4) : Fmt :=
  match c.toNat with
  | 1 => bf16
  | 2 => fp16
  | 3 => e4m3
  | 4 => e5m2
  | 5 => e2m1
  | _ => fp32

/-- Whether a code names an integer format (04 R66). -/
def intCode (c : BitVec 4) : Bool := [6, 7, 8, 10].contains c.toNat

/-- `Decode(fmt, bits)` (04 R62). -/
def decodeF (f : Fmt) (bits : Nat) : FVal :=
  let s := bits / 2 ^ (f.e + f.m) % 2 == 1
  let ef := bits / 2 ^ f.m % 2 ^ f.e
  let mf := bits % 2 ^ f.m
  let mag := bits % 2 ^ (f.e + f.m)
  match f.inf with
  | some i => if mag == i then .inf s else if mag > i then .nan else
      if ef == 0 then .fin s mf (1 - f.bias - f.m) else .fin s (2 ^ f.m + mf) ((ef : Int) - f.bias - f.m)
  | none => if f.nan != 0 && mag == f.nan then .nan else
      if ef == 0 then .fin s mf (1 - f.bias - f.m) else .fin s (2 ^ f.m + mf) ((ef : Int) - f.bias - f.m)

/-- The encoding whose magnitude is `m` × 2^`e`, rounded to nearest with ties to even on a grid of unbounded exponent; values
above the largest finite one come out above `f.max` (04 R69). -/
def roundMag (f : Fmt) (m : Nat) (e : Int) : Nat :=
  if m = 0 then 0
  else
    let qmin : Int := 1 - f.bias - f.m
    let q : Int := max ((Nat.log2 m : Int) + e - f.m) qmin
    let shift := q - e
    let n := if shift ≤ 0 then m * 2 ^ (-shift).toNat
      else if shift > Nat.log2 m + 2 then 0
      else
        let d := 2 ^ shift.toNat
        let lo := m / d
        let r := m % d
        if 2 * r > d || (2 * r == d && lo % 2 == 1) then lo + 1 else lo
    (q - qmin).toNat * 2 ^ f.m + n

def signBit (f : Fmt) (neg : Bool) : Nat := if neg then 2 ^ (f.e + f.m) else 0

/-- `RoundRNE(x, fmt)`, and with `sat` the float targets of `SatConvert(x, fmt)` (04 R69, R70). -/
def roundF (f : Fmt) (sat : Bool) : FVal → Nat × Flags
  | .nan => (f.nan, 0)
  | .inf neg =>
    if sat then (signBit f neg + f.max, fFSAT)
    else match f.inf with
      | some i => (signBit f neg + i, 0)
      | none => (f.nan, fNV)
  | .fin neg m e =>
    let r := roundMag f m e
    if r > f.max then
      if sat then (signBit f neg + f.max, fFSAT)
      else match f.inf with
        | some i => (signBit f neg + i, fOF)
        | none => (f.nan, fOF)
    else (signBit f neg + r, if r == 0 && m != 0 then fUF else 0)

/-- A result in FP32 with its flags. -/
def round32 (v : FVal) : Word × Flags := let r := roundF fp32 false v; (BitVec.ofNat 32 r.1, r.2)

def dec32 (w : Word) : FVal := decodeF fp32 w.toNat

/-- Negation of a decoded value, exact. -/
def FVal.negate : FVal → FVal
  | .nan => .nan
  | .inf n => .inf !n
  | .fin n m e => .fin (!n) m e

def FVal.isNeg : FVal → Bool
  | .nan => false
  | .inf n => n
  | .fin n _ _ => n

def FVal.isZero : FVal → Bool
  | .fin _ 0 _ => true
  | _ => false

/-- Multiplication by 2^k, exact; the sign of zero is kept (04 R64). -/
def FVal.scale (k : Int) : FVal → FVal
  | .fin n m e => .fin n m (e + k)
  | v => v

/-- The signed integer n × 2^(e - e0), for e0 ≤ e. -/
def signedAt (neg : Bool) (m : Nat) (e e0 : Int) : Int :=
  let a : Int := m * 2 ^ (e - e0).toNat
  if neg then -a else a

/-- The exact sum of two values, with the NaN, infinity and zero-sign rules of 04 R72. -/
def addV (x y : FVal) : FVal × Flags :=
  match x, y with
  | .nan, _ => (.nan, 0)
  | _, .nan => (.nan, 0)
  | .inf a, .inf b => if a == b then (.inf a, 0) else (.nan, fNV)
  | .inf a, _ => (.inf a, 0)
  | _, .inf b => (.inf b, 0)
  | .fin a m e, .fin b n g =>
    let e0 := min e g
    let t := signedAt a m e e0 + signedAt b n g e0
    if t = 0 then (.fin (a && b && m == 0 && n == 0) 0 0, 0) else (.fin (decide (t < 0)) t.natAbs e0, 0)

/-- The exact product of two values (04 R72). -/
def mulV (x y : FVal) : FVal × Flags :=
  match x, y with
  | .nan, _ => (.nan, 0)
  | _, .nan => (.nan, 0)
  | .inf a, .inf b => (.inf (a != b), 0)
  | .inf a, .fin b n _ => if n = 0 then (.nan, fNV) else (.inf (a != b), 0)
  | .fin a m _, .inf b => if m = 0 then (.nan, fNV) else (.inf (a != b), 0)
  | .fin a m e, .fin b n g => (.fin (a != b) (m * n) (e + g), 0)

/-- Rounds an exact result to FP32 and gathers its flags. -/
def finish32 (r : FVal × Flags) : Word × Flags := let o := round32 r.1; (o.1, o.2 ||| r.2)

/-- `FAdd(x, y, FP32)` (04 R72). -/
def fadd (x y : FVal) : Word × Flags := finish32 (addV x y)

/-- `FMul(x, y, FP32)` (04 R72). -/
def fmul (x y : FVal) : Word × Flags := finish32 (mulV x y)

/-- `FFma(x, y, z, FP32)`: x × y + z with one rounding (04 R72). DESIGN CHOICE (log 38): the product of an infinity and a zero sets `NV` also
where the addend is NaN, which the manual leaves open. -/
def ffma (x y z : FVal) : Word × Flags :=
  let p := mulV x y
  let s := addV p.1 z
  finish32 (s.1, s.2 ||| p.2)

/-- The order of two numbers, exact; `none` where an operand is NaN. -/
def cmpV (x y : FVal) : Option Ordering :=
  match x, y with
  | .nan, _ => none
  | _, .nan => none
  | .inf a, .inf b => some (if a == b then .eq else if a then .lt else .gt)
  | .inf a, _ => some (if a then .lt else .gt)
  | _, .inf b => some (if b then .gt else .lt)
  | .fin a m e, .fin b n g =>
    let e0 := min e g
    some (compare (signedAt a m e e0) (signedAt b n g e0))

/-- Integer range of a format: least and greatest value (04 R66). -/
def intRange (c : BitVec 4) : Int × Int :=
  match c.toNat with
  | 6 => (-2 ^ 31, 2 ^ 31 - 1)
  | 7 => (-128, 127)
  | 8 => (-8, 7)
  | _ => (0, 2 ^ 32 - 1)

/-- The integer that the low bits of an encoding stand for (04 R66). -/
def decodeI (c : BitVec 4) (bits : Nat) : Int :=
  let w := formatWidth c
  let b := bits % 2 ^ w
  if c.toNat == 10 then b else if b ≥ 2 ^ (w - 1) then (b : Int) - 2 ^ w else b

/-- The low bits of an integer in the width of a format. -/
def encodeI (c : BitVec 4) (v : Int) : Nat := (v % 2 ^ formatWidth c).toNat

/-- Clamping to the range of an integer format, with `IOVF` when it clamps (04 R70). -/
def clampI (c : BitVec 4) (v : Int) : Nat × Flags :=
  let r := intRange c
  if v < r.1 then (encodeI c r.1, fIOVF) else if v > r.2 then (encodeI c r.2, fIOVF) else (encodeI c v, 0)

/-- The nearest integer, ties to even. -/
def nearestI (neg : Bool) (m : Nat) (e : Int) : Int :=
  let a : Int :=
    if e ≥ 0 then m * 2 ^ e.toNat
    else if -e > Nat.log2 m + 2 then 0
    else
      let d := 2 ^ (-e).toNat
      let lo := m / d
      let r := m % d
      if 2 * r > d || (2 * r == d && lo % 2 == 1) then lo + 1 else lo
  if neg then -a else a

/-- `SatConvert` to an integer format (04 R70). -/
def toInt (c : BitVec 4) : FVal → Nat × Flags
  | .nan => (0, fNV)
  | .inf neg => (encodeI c (if neg then (intRange c).1 else (intRange c).2), fIOVF)
  | .fin neg m e => clampI c (nearestI neg m e)

/-- Whether a float to float pair is exact (04 R71). -/
def exactPair (src dst : BitVec 4) : Bool :=
  match src.toNat, dst.toNat with
  | 1, 0 => true
  | 2, 0 => true
  | 3, 0 | 3, 1 | 3, 2 => true
  | 4, 0 | 4, 1 | 4, 2 => true
  | _, _ => false

/-- `Convert(bits, from, to, sat)` (04 R71, Table 4-4). -/
def convertV (bits : Nat) (src dst : BitVec 4) (sat : Bool) : Nat × Flags :=
  if intCode src then
    let v := decodeI src bits
    if intCode dst then (if sat then clampI dst v else (encodeI dst v, 0))
    else roundF (fmtOf dst) sat (.fin (decide (v < 0)) v.natAbs 0)
  else
    let v := decodeF (fmtOf src) bits
    if intCode dst then toInt dst v
    else roundF (fmtOf dst) (sat && !exactPair src dst) v

/-- `DecodeX(code, scale, extra)` (04 R64). -/
def decodeX (code scale extra : Nat) : FVal :=
  if scale = 0xFF then .nan
  else (if code = 8 then decodeF e4m3 extra else decodeF e2m1 code).scale ((scale : Int) - 127)

/-- `signmag(e)` for an integer encoding of width `w` in bit-plane layout (04 R80). -/
def signmag (w e : Nat) : Int :=
  let a : Int := (e % 2 ^ (w - 1) : Nat)
  if e / 2 ^ (w - 1) % 2 == 1 then -a else a

/-- What has been seen of a group of products so far: NaN, +Inf, -Inf, and the exact sum of the finite ones. -/
structure GroupAcc where
  nan : Bool := false
  pinf : Bool := false
  ninf : Bool := false
  s : FVal := .fin false 0 0
  fl : Flags := 0

/-- One product of `GroupSum` (04 R75). -/
def groupStep (g : GroupAcc) (a b : FVal) : GroupAcc :=
  match a, b with
  | .nan, _ => { g with nan := true }
  | _, .nan => { g with nan := true }
  | .fin n m e, .fin n' m' e' => { g with s := (addV g.s (.fin (n != n') (m * m') (e + e'))).1 }
  | a, b =>
    if a.isZero || b.isZero then { g with nan := true, fl := g.fl ||| fNV }
    else if a.isNeg != b.isNeg then { g with ninf := true }
    else { g with pinf := true }

/-- `GroupSum(a, b)` (04 R75). -/
def groupSum (ab : List (FVal × FVal)) : FVal × Flags :=
  let g := ab.foldl (fun g p => groupStep g p.1 p.2) {}
  let both := g.pinf && g.ninf
  let fl := if both then g.fl ||| fNV else g.fl
  if g.nan || both then (.nan, fl)
  else if g.pinf then (.inf false, fl)
  else if g.ninf then (.inf true, fl)
  else if g.s.isZero then (.fin false 0 0, fl)
  else (g.s, fl)

/-- `AccAdd(acc, S)` (04 R75). -/
def accAdd (acc : Word) (S : FVal) : Word × Flags :=
  match dec32 acc, S with
  | .nan, _ => (0x7FC00000, 0)
  | _, .nan => (0x7FC00000, 0)
  | x, S => fadd x S

/-- `AccAddI(acc, S)` (04 R75). -/
def accAddI (acc : Word) (S : Int) : Word × Flags :=
  let r := clampI 6 (acc.toInt + S)
  (BitVec.ofNat 32 r.1, r.2)

/-- Neighbours added in pairs: one level of a tree sum (04 R77). -/
def pairAdd : List Word → List Word × Flags
  | a :: b :: t =>
    let r := fadd (dec32 a) (dec32 b)
    let u := pairAdd t
    (r.1 :: u.1, r.2 ||| u.2)
  | l => (l, 0)

/-- `TreeSum`, at most `fuel` levels (04 R77). -/
def treeSum : Nat → List Word → Word × Flags
  | 0, l => (l.headD 0, 0)
  | _ + 1, [w] => (w, 0)
  | fuel + 1, l =>
    let r := pairAdd l
    let u := treeSum fuel r.1
    (u.1, r.2 ||| u.2)

/-- Position of a decoded value in the order of `Rank(x, mode)`: below, among or above the numbers (04 R79). -/
def rankLt (lo : Bool) (x y : FVal) : Bool :=
  match x, y with
  | .nan, .nan => false
  | .nan, _ => lo
  | _, .nan => !lo
  | x, y => cmpV x y == some .lt

end Sys2Proof.Machine
end

