-- ==== Sys2Proof/Machine/Ops.lean ====
section
/-! DEFINITION. The named operations on registers, on the streams and on operations in flight; issue, landing order and the one
operation that takes an exception (05, 06 R118 to R122, 15 R313). -/

namespace Sys2Proof.Machine
open Host

/-- The outcome of a step. -/
abbrev Res := Host.Outcome State Fault Refusal

/-! ### Units, cores and sequencers -/

/-- A shepherd-core site (01 Table 1-2). -/
def isShep (u : UnitId) : Bool := 32 ≤ u.val

/-- The die of a unit (01 R6, Table 1-2). -/
def dieOf (u : UnitId) : Nat := if isShep u then (u.val - 32) / 2 else u.val / 8

def dieFin (u : UnitId) : Fin 4 := Fin.ofNat 4 (dieOf u)

def State.core (s : State) (u : UnitId) : Core := s.cores.get u

def State.setCore (s : State) (u : UnitId) (c : Core) : State := { s with cores := s.cores.set u.val c u.isLt }

def State.modCore (s : State) (u : UnitId) (f : Core → Core) : State := s.setCore u (f (s.core u))

def Core.seq (c : Core) : SeqName → Seq
  | .scl => c.scl
  | .ld => c.ld
  | .cmp => c.cmp
  | .st => c.st

def Core.setSeq (c : Core) (q : SeqName) (v : Seq) : Core :=
  match q with
  | .scl => { c with scl := v }
  | .ld => { c with ld := v }
  | .cmp => { c with cmp := v }
  | .st => { c with st := v }

def State.seq (s : State) (q : SeqId) : Seq := (s.core q.unit).seq q.q

def State.setSeq (s : State) (q : SeqId) (v : Seq) : State := s.setCore q.unit ((s.core q.unit).setSeq q.q v)

def State.modSeq (s : State) (q : SeqId) (f : Seq → Seq) : State := s.setSeq q (f (s.seq q))

/-- The core and the sequencer that issue. -/
def State.here (s : State) : Core := s.core s.cur.unit
def State.me (s : State) : Seq := s.seq s.cur
def State.setMe (s : State) (v : Seq) : State := s.setSeq s.cur v
def State.modHere (s : State) (f : Core → Core) : State := s.modCore s.cur.unit f

/-- The node that runs on the issuing core; 0 is no node. -/
def State.myNode (s : State) : Nat := s.here.node.getD 0

def seqNum : SeqName → Nat
  | .scl => 0
  | .ld => 1
  | .cmp => 2
  | .st => 3

/-- The sequencer that a seq field names (02 Table 2-3). -/
def seqNamed (n : Nat) : SeqName :=
  match n with
  | 0 => .scl
  | 1 => .ld
  | 2 => .cmp
  | _ => .st

def allSeqs : List SeqName := [.scl, .ld, .cmp, .st]

/-! ### Registers -/

/-- An index register: i0 reads as zero (02 R27). -/
def Seq.xr (q : Seq) (r : XReg) : Dword := if r = 0 then 0 else q.x.get r.toFin

/-- A write to i0 is discarded (02 R27). -/
def Seq.setX (q : Seq) (r : XReg) (v : Dword) : Seq := if r = 0 then q else { q with x := q.x.set r.toNat v r.isLt }

/-- A predicate: p0 reads true (02 R27). -/
def Seq.pr (q : Seq) (r : PReg) : Bool := if r = 0 then true else q.p.get r.toFin

/-- A write to p0 is discarded (02 R27). -/
def Seq.setP (q : Seq) (r : PReg) (v : Bool) : Seq := if r = 0 then q else { q with p := q.p.set r.toNat v r.isLt }

def State.xr (s : State) (r : XReg) : Dword := s.me.xr r
def State.pr (s : State) (r : PReg) : Bool := s.me.pr r

/-- The zero tile, code 39 (02 Table 2-4). -/
def zeroTile : Tile := List.replicate 256 0

/-- A tile by its code (02 Table 2-4). -/
def Core.tile (c : Core) (code : Nat) : Tile := if h : code < 39 then c.tiles.get ⟨code, h⟩ else zeroTile

def Core.setTile (c : Core) (code : Nat) (t : Tile) : Core :=
  if h : code < 39 then { c with tiles := c.tiles.set code t h } else c

/-- The first lanes replaced; the lanes beyond keep their value (08 R151). -/
def overlay (new old : Tile) : Tile := new ++ old.drop new.length

/-! ### Lookup in association lists, and small list tools -/

def lookup (l : List (Nat × Nat)) (k : Nat) : Option Nat := (l.find? (fun e => e.1 == k)).map (·.2)

def insertKey (l : List (Nat × Nat)) (k v : Nat) : List (Nat × Nat) := (k, v) :: l.filter (fun e => e.1 != k)

/-- Insertion into a list sorted by a key, after the entries of equal key. -/
def insertBy {α : Type} (key : α → Nat) (a : α) : List α → List α
  | [] => [a]
  | b :: t => if key a < key b then a :: b :: t else b :: insertBy key a t

/-- A list sorted by a key, equal keys in their order. -/
def sortBy {α : Type} (key : α → Nat) (l : List α) : List α := l.foldl (fun acc a => insertBy key a acc) []

def State.modNode (s : State) (nd : Nat) (f : Node → Node) : State :=
  { s with nodes := s.nodes.map (fun n => if n.nd == nd then f n else n) }

def State.node? (s : State) (nd : Nat) : Option Node := s.nodes.find? (fun n => n.nd == nd)

/-- The node runs, or is in its end and holds its cores (15 R319). -/
def Node.live (n : Node) : Bool :=
  n.state == .running || n.state == .ending || n.state == .voted || (n.state == .committing && n.voteOf.isNone)

def State.queue (s : State) (q : QueueId) : Queue := s.queues.get q
def State.setQueue (s : State) (q : QueueId) (v : Queue) : State := { s with queues := s.queues.set q.val v q.isLt }
def State.modQueue (s : State) (q : QueueId) (f : Queue → Queue) : State := s.setQueue q (f (s.queue q))
def State.part (s : State) (p : PartId) : Partition := s.parts.get p
def State.modPart (s : State) (p : PartId) (f : Partition → Partition) : State :=
  { s with parts := s.parts.set p.val (f (s.part p)) p.isLt }
def State.port (s : State) (p : PortId) : Port := s.ports.get p
def State.modPort (s : State) (p : PortId) (f : Port → Port) : State :=
  { s with ports := s.ports.set p.val (f (s.port p)) p.isLt }

/-! ### The agenda, free values, what leaves -/

def State.postAt (s : State) (due : Due) (ev : Instr) : State := { s with agenda := s.agenda ++ [{ due := due, ev := ev }] }

/-- An event `n` cycles from now. -/
def State.postIn (s : State) (n : Nat) (ev : Instr) : State := s.postAt (.cyc (s.cyc + n)) ev

/-- An event that the issuing instruction of the node on the issuing core causes. -/
def State.postMine (s : State) (n : Nat) (ev : Instr) : State :=
  { s with agenda := s.agenda ++ [{ due := .cyc (s.cyc + n), ev := ev, node := s.here.node, iss := s.cyc }] }

def State.emit (s : State) (o : Out) : State := { s with outbox := s.outbox ++ [o] }

/-- The next free value's number: each use takes a new one (log 5). -/
def State.nextFree (s : State) : State := { s with free := s.free + 1 }

/-- After a power-on step has failed nothing changes until the next reset (17 R354). -/
def State.unlessFailed (s : State) (r : Res) : Res := if s.errV then .next s else r

/-- A time that the manual does not fix: at least `n` cycles from now (log 6). -/
def State.postFree (s : State) (n : Nat) (ev : Instr) : State :=
  (s.postIn (n + Config.delay s.free) ev).nextFree

/-! ### Exceptions: raising a cause; the node stops when the cycle closes (15 R313, R314) -/

/-- Adds a stopping event of this cycle (15 Table 15-2). -/
def State.addCause (s : State) (c : Cause) : State := { s with causes := s.causes ++ [c] }

/-- A synchronous fault of a sequencer, which names the instruction at `pc` (15 Table 15-2, rank 3; rank 2 for
UNCORRECTABLE). -/
def State.raiseAt (s : State) (q : SeqId) (pc : Dword) (node : Nat) (r : Raise) : State :=
  s.addCause { node := node, rank := (if r.code = .uncorrectable then 2 else 3), unit := q.unit.val, seq := some (q.q, pc), r := r }

/-- A fault of the node that is not tied to an issue (15 Table 15-2, rank 4). -/
def State.raiseNode (s : State) (node : Nat) (unit : Nat) (r : Raise) : State :=
  s.addCause { node := node, rank := (if r.code = .alarm then 1 else if r.code = .uncorrectable then 2 else 4), unit := unit, seq := none, r := r }

/-! ### Branch shadows (06 R118 to R122) -/

/-- The cycle on which the last unresolved branch of the core's SCL resolves; `none` when there is none. -/
def Core.lastBranch (c : Core) : Option Nat :=
  match c.scl.branches with
  | [] => none
  | b :: bs => some (bs.foldl (fun m b => max m b.at_) b.at_)

/-- The issuing sequencer is an SCL with an unresolved branch after this cycle. -/
def State.unresolved (s : State) : Option Nat := if s.cur.q = .scl then s.here.lastBranch else none

/-- The cycle lies in a branch's shadow: a branch is unresolved, or resolves on this very cycle. -/
def State.inShadow (s : State) : Bool :=
  s.cur.q == .scl && (s.unresolved.isSome || s.here.scl.resolved == some s.cyc)

/-- A taken branch resolves on this cycle: squashable operations issued on it are killed (06 R119). -/
def State.killing (s : State) : Bool := s.cur.q == .scl && s.here.scl.redirect.isSome

/-- When an effect other than a register write commits (06 R119). -/
def State.commitCycle (s : State) : Nat := match s.unresolved with | some b => b | none => s.cyc

/-! ### Operations in flight -/

/-- An operation that acts on cycle `at_`, issued now by the current sequencer; register writes commit when they land, other
effects at issue or when the last unresolved branch resolves (06 R119). -/
def State.later (s : State) (h : Hdr) (at_ : Nat) (reg fixed : Bool) (op : EffOp) : State :=
  let e : Eff :=
    { at_ := at_, iss := s.cyc, by_ := s.cur, pc := s.me.pc, node := s.myNode, sq := h.sq
      commit := (if reg then at_ else s.commitCycle), fixed := fixed, timed := s.me.aligned, op := op }
  { s with effs := s.effs ++ [e] }

/-- A register write of fixed latency (05 R84). -/
def State.laterX (s : State) (h : Hdr) (r : XReg) (lat : Nat) (v : Dword) : State :=
  s.later h (s.cyc + lat) true true (.setX s.cur r v false)

def State.laterP (s : State) (h : Hdr) (r : PReg) (lat : Nat) (v : Bool) : State :=
  s.later h (s.cyc + lat) true true (.setP s.cur r v false)

/-- The register that an operation in flight will write (05 R86). -/
def Eff.dest (e : Eff) : Option Dest :=
  match e.op with
  | .setX q r _ _ => some (.x q r)
  | .setP q r _ _ => some (.p q r)
  | .setTile u c _ => some (.tile u c)
  | .setLast u c _ => some (.tile u c)
  | .setSlot u true n _ => some (.plane u n)
  | .setSlot u false n _ => some (.row u n)
  | .setAcc u c _ _ => some (.acc u c)
  | .clearAcc u c => some (.acc u c)
  | .matrix u _ c _ _ _ _ _ _ _ _ _ _ => some (.acc u c)
  | .load _ _ (.x r _) _ _ => some (.x e.by_ r)
  | .load _ _ (.tile c) _ _ => some (.tile e.by_.unit c)
  | .load _ _ (.lanes c) _ _ => some (.tile e.by_.unit c)
  | .load _ _ (.plane n _) _ _ => some (.plane e.by_.unit n)
  | .load _ _ (.row n) _ _ => some (.row e.by_.unit n)
  | .atomic _ _ _ _ _ _ (some r) _ _ => some (.x e.by_ r)
  | .send pl => pl.reply.map (fun r => .x e.by_ r)
  | .fault _ => e.dst
  | .late _ => e.dst
  | _ => none

/-- A fault of an operation that is found after its issue: held until the core's last unresolved branch resolves where the operation
is squashable, and then discarded by a taken branch only where the operation has not committed; its register stays pending (05 R86, 06
R119, R120). -/
def State.raiseEff (s : State) (e : Eff) (r : Raise) : State :=
  match (if e.sq && e.by_.q == .scl then (s.core e.by_.unit).lastBranch else none) with
  | some b =>
    { s with effs := s.effs ++ [{ e with at_ := b, sq := decide (s.cyc ≤ e.commit), commit := b, oc := none, dst := e.dest, op := .fault r }] }
  | none => s.raiseAt e.by_ e.pc e.node r

/-- The register that a request to windows 0x10 and 0x20 will write. -/
def Req.dest (u : UnitId) (r : Req) : Option Dest :=
  match r.op with
  | .load xd _ _ => some (.x ⟨u, r.q⟩ xd)
  | .atomic xd _ _ _ _ => some (.x ⟨u, r.q⟩ xd)
  | _ => none

/-- i0 and p0 are never pending (02 R27). -/
def Dest.real : Dest → Bool
  | .x _ r => r != 0
  | .p _ r => r != 0
  | _ => true

/-- A write to the register is pending from an operation issued before this cycle (05 R86, R112). Instructions of one cycle do not wait for each
other, a slot's load and the MMA that reads it among them (DEDUCED, log 18). -/
def State.pendingFixed (s : State) (d : Dest) : Bool :=
  d.real && s.effs.any (fun e => e.fixed && decide (e.iss < s.cyc) && e.dest == some d)

/-- A write to the register is pending from a producer without fixed latency (05 R86). -/
def State.pendingFree (s : State) (d : Dest) : Bool :=
  d.real &&
  (s.effs.any (fun e => !e.fixed && decide (e.iss < s.cyc) && e.dest == some d) ||
   match d with
   | .x q _ => (s.core q.unit).reqs.any (fun r => r.dest q.unit == some d) ||
       (s.core q.unit).slots.toList.any (fun t => match t.reply with | some (n, r, _) => Dest.x ⟨q.unit, n⟩ r == d | none => false)
   | _ => false)

def State.pending (s : State) (d : Dest) : Bool := s.pendingFixed d || s.pendingFree d

/-! ### Issue (05 R83 to R92) -/

/-- What an instruction needs at issue: the registers it reads and writes, the lanes of its tile sources that it reads, whether
it is illegal as it stands, whether it is a waiting form, and whether it serialises SCL (02 R39, R40, 06 R121, 08 R151). -/
structure Ask where
  reads : List Dest := []
  firstLane : Nat := 0
  lanes : Nat := 256
  writes : List Dest := []
  /-- lanes of the tile sources that are not read, by lane (09 R180) -/
  skip : List (Nat × Nat) := []
  illegal : Bool := false
  waiting : Bool := false
  serial : Bool := false

/-- What becomes of an instruction at its issue. -/
inductive Verdict
  /-- it takes effect; the next instruction follows -/
  | ok (s : State)
  /-- as `ok`, the next instruction `n` cycles later (05 R100) -/
  | delay (s : State) (n : Nat)
  /-- it transfers control -/
  | jump (s : State) (target : Dword)
  /-- it waits: the stream stays at it -/
  | hold (s : State)
  /-- it does not issue before this cycle -/
  | stall (till : Nat)
  | fault (r : Raise)

/-- The gate that every instruction passes at issue, after decode: the rules of mode that make it illegal (02 R39, R40), the register
interlocks (05 R85, R86), and the branch shadow, in which an instruction that no interlock holds back is judged (06 R121, 02 R41). -/
inductive Gate
  | go | wait | hold | fault (r : Raise)
  deriving DecidableEq

/-- A source tile holds a word whose error is uncorrectable among the lanes that are read (15 R326). -/
def State.badRead (s : State) (a : Ask) (d : Dest) : Bool :=
  match d with
  | .tile u c => (s.core u).bad.any (fun e =>
      e.1 == 4 && e.2 / 256 == c && decide (a.firstLane ≤ e.2 % 256) && decide (e.2 % 256 < a.firstLane + a.lanes) &&
      !a.skip.contains (c, e.2 % 256))
  | _ => false

def State.gate (s : State) (h : Hdr) (a : Ask) : Gate :=
  if a.serial && h.sq && s.unresolved.isSome then (if !s.me.aligned && (a.reads ++ a.writes).any s.pending then .wait else .hold)
  else if a.illegal || (a.waiting && s.me.aligned) then .fault { code := .illegal }
  else if !s.me.aligned && (a.reads ++ a.writes).any s.pending then .wait
  else if a.serial && s.inShadow && !h.sq then .fault { code := .illegal }
  else if s.me.aligned && a.reads.any s.pendingFree then .fault { code := .timing }
  else .go

/-- The loop end check: the levels still to be looked at, the most recently started first (05 R97). -/
def endCheck : List (Fin 4) → Seq → Dword → Seq × Dword
  | [], q, nxt => (q, nxt)
  | l :: ls, q, nxt =>
    let lp := q.loops.get l
    if lp.lc.toNat + 1 < lp.count.toNat then
      ({ q with loops := q.loops.set l.val { lp with lc := lp.lc + 1 } l.isLt }, lp.start)
    else endCheck ls { q with loops := q.loops.set l.val { lp with active := false } l.isLt } nxt

/-- The active levels whose last word lies in the instruction of `len` words at the program counter, the most recently started
first (05 R97). -/
def endingLevels (q : Seq) (len : Nat) : List (Fin 4) :=
  let ls : List (Fin 4) := [0, 1, 2, 3]
  let on := ls.filter (fun l =>
    let lp := q.loops.get l
    lp.active && (lp.last == q.pc || (len == 2 && lp.last == q.pc + 4)))
  (sortBy (fun l => (q.loops.get l).order) on).reverse

/-- The count of issued instructions with the one at the program counter, which has been counted where it waits or is held (15 Table 15-4). -/
def Seq.counted (q : Seq) : Nat := if q.wait.isSome || q.held then q.issued else q.issued + 1

/-- Sequential continuation after an instruction of `len` words, with the end check (05 R83, R97); a wait that ends here has issued
before (15 Table 15-4), and a branch taken during it has redirected the fetch (06 R118). DEDUCED (log 28): an instruction that waits makes
its end check when its wait ends, since until then it is the sequencer's cut point (15 R313). -/
def Seq.advance (q : Seq) (len n cyc : Nat) : Seq :=
  let r := endCheck (endingLevels q len) q (q.pc + BitVec.ofNat 64 (4 * len))
  { r.1 with
    pc := q.after.getD r.2
    base := cyc + 1 + n
    issued := q.counted
    wait := none
    held := false
    after := none }

/-- A transfer of control (05 R83, R98): no end check. -/
def Seq.goto_ (q : Seq) (target : Dword) (cyc : Nat) : Seq :=
  { q with pc := target, base := cyc + 1, issued := q.counted, wait := none, held := false }

/-- A single step goes on: its instruction has not issued, or waits (15 R332). -/
def Seq.stepping (saved v : Seq) : Bool := v.wait.isSome || v.held || (v.issued == saved.issued && saved.wait.isNone && !saved.held)

def State.retire (s : State) (len n : Nat) : State := s.setMe (s.me.advance len n s.cyc)

/-- Taking an exception: the shared operation of every instruction that raises a fault. The fault becomes a stopping event of
this cycle, and the node stops when the cycle closes (15 R313); the fault of a squashable operation in a branch's shadow is held
until the last unresolved branch resolves (06 R120). -/
def State.raise (s : State) (h : Hdr) (len : Nat) (r : Raise) : State :=
  match s.unresolved with
  | some b =>
    if h.sq then (s.later h b false true (.fault r)).retire len 0
    else s.raiseAt s.cur s.me.pc s.myNode r
  | none => s.raiseAt s.cur s.me.pc s.myNode r

/-- A squashable operation issued on the cycle on which a taken branch resolves is killed: it takes its slot and does nothing (06 R119). One
that serialises SCL has been held until then, and has no effect at all: the fetch goes to the target (R121). -/
def State.killed (s : State) (a : Ask) (len : Nat) : State :=
  if a.serial then s.setMe { s.me with issued := s.me.counted, held := false } else s.retire len 0

/-- An instruction that serialises SCL has issued in a branch's shadow and is held at its place (06 R121). -/
def State.holdSerial (s : State) : State := s.setMe { s.me with issued := s.me.counted, held := true }

/-- The stream waits at an instruction that has issued (11 R230, 05 R87, R95). -/
def State.holdWait (s : State) : State := s.setMe { s.me with issued := (if s.me.held then s.me.issued else s.me.issued + 1), held := false }

/-- A word with an uncorrectable error is met by an instruction that issues, and so not by one that a unit still in use holds back (15 R326,
05 R83). -/
def State.judge (s : State) (a : Ask) (v : Verdict) : Verdict :=
  match v with
  | .stall till => .stall till
  | v => if a.reads.any (s.badRead a) then .fault { code := .uncorrectable } else v

/-- An instruction at its issue: the gate, then its own effect (05 R83 to R86, 06 R119, R121). -/
def issue (h : Hdr) (len : Nat) (a : Ask) (body : State → Verdict) (s : State) : Res :=
  match s.gate h a with
  | .wait => .next s
  | .hold => .next s.holdSerial
  | .fault r => if h.sq && s.killing then .next (s.killed a len) else .next (s.raise h len r)
  | .go =>
    if h.sq && s.killing then .next (s.killed a len)
    else match s.judge a (body s) with
      | .ok s' => .next (s'.retire len 0)
      | .delay s' n => .next (s'.retire len n)
      | .jump s' t => .next (s'.setMe (s'.me.goto_ t s'.cyc))
      | .hold s' => .next s'.holdWait
      | .stall till => .next (s.setMe { s.me with base := max s.me.base (till - h.idle.toNat) })
      | .fault r => .next (s.raise h len r)

/-- A guarded form: with a false guard it takes its slot and has no effect (02 R28). -/
def guarded (h : Hdr) (len : Nat) (pg : PReg) (a : Ask) (body : State → Verdict) (s : State) : Res :=
  if s.pr pg then issue h len { a with reads := .p s.cur pg :: a.reads } body s
  else issue h len { reads := [.p s.cur pg] } (fun s => .ok s) s

end Sys2Proof.Machine
end

