-- ==== Sys2Proof/Machine/Translate.lean ====
section
/-! DEFINITION. Device virtual addresses: tables, walks, the node's view of a page, staging and versions (16), and window 0x20. -/

namespace Sys2Proof.Machine
open Host

/-- Bits [hi:lo] of a number (00 R2). -/
def bitsOf (v hi lo : Nat) : Nat := v / 2 ^ lo % 2 ^ (hi - lo + 1)

/-- A page-table entry in device memory, under the key of slot 0 (16 R338, R339). -/
def State.entryAt (s : State) (a : Nat) : Dword := BitVec.ofNat 64 (leNat (s.readKey 0 a 8))

def State.setEntry (s : State) (a : Nat) (v : Dword) : State := s.writeKey 0 a (leBytes 8 v.toNat)

/-- The fields of an entry (16 Table 16-2). -/
def pteV (e : Dword) : Bool := e.getLsbD 63
def pteW (e : Dword) : Bool := e.getLsbD 62
def pteX (e : Dword) : Bool := e.getLsbD 61
def pteS (e : Dword) : Bool := e.getLsbD 60
def pteH (e : Dword) : Bool := e.getLsbD 59
def pteC (e : Dword) : Bool := e.getLsbD 58
def pteG (e : Dword) : Bool := e.getLsbD 57
def pteKey (e : Dword) : Nat := bitsOf e.toNat 56 47
def pteAddr (e : Dword) : Nat := bitsOf e.toNat 39 12 * 2 ^ 12
def pteReserved (e : Dword) : Bool := bitsOf e.toNat 46 40 != 0 || bitsOf e.toNat 11 0 != 0

/-- One bit of an entry set or cleared. -/
def pteSet (e : Dword) (bit : Nat) (v : Bool) : Dword :=
  let m : Dword := BitVec.ofNat 64 (2 ^ bit)
  if v then e ||| m else e &&& ~~~m

/-- The frame of an entry replaced. -/
def pteFrame (e : Dword) (frame : Nat) : Dword :=
  BitVec.ofNat 64 (e.toNat - pteAddr e + frame % 2 ^ 40 / 2 ^ 12 * 2 ^ 12)

/-- A pointer to a table: valid, no reserved bit, not a leaf (16 R339, R340). -/
def ptePointer (e : Dword) : Bool := pteV e && !pteReserved e && bitsOf e.toNat 62 57 == 0 && pteKey e == 0

/-- A leaf as a walk finds it: the address of its entry, the entry, the first address of its page and the page's size. -/
structure Leaf where
  at_ : Nat
  e : Dword
  va : Nat
  size : Nat
  deriving DecidableEq, Repr

/-- A walk of the tables of a context; `none` ends in TRANSLATION (16 R338, R340). -/
def State.walk (s : State) (pasid a : Nat) : Option Leaf :=
  if a ≥ 2 ^ 43 || !s.keys.contains 0 then none
  else match lookup s.roots pasid with
    | none => none
    | some root =>
      let e1 := s.entryAt (root + 8 * bitsOf a 42 34)
      if !ptePointer e1 then none
      else
        let a2 := pteAddr e1 + 8 * bitsOf a 33 25
        let e2 := s.entryAt a2
        if pteV e2 && pteG e2 then
          if pteReserved e2 || bitsOf e2.toNat 24 12 != 0 then none else some ⟨a2, e2, a / 2 ^ 25 * 2 ^ 25, 2 ^ 25⟩
        else if !ptePointer e2 then none
        else
          let a3 := pteAddr e2 + 8 * bitsOf a 24 16
          let e3 := s.entryAt a3
          if !pteV e3 || pteG e3 || pteReserved e3 || bitsOf e3.toNat 15 12 != 0 then none
          else some ⟨a3, e3, a / 2 ^ 16 * 2 ^ 16, 2 ^ 16⟩

/-- The leaves of a context, with the address of each page. -/
def State.leavesOf (s : State) (pasid root : Nat) : List Leaf :=
  (List.range 512).flatMap (fun i =>
    let e1 := s.entryAt (root + 8 * i)
    if !ptePointer e1 then []
    else (List.range 512).flatMap (fun j =>
      let a2 := pteAddr e1 + 8 * j
      let e2 := s.entryAt a2
      if pteV e2 && pteG e2 then (s.walk pasid (i * 2 ^ 34 + j * 2 ^ 25)).toList
      else if !ptePointer e2 then []
      else (List.range 512).flatMap (fun k => (s.walk pasid (i * 2 ^ 34 + j * 2 ^ 25 + k * 2 ^ 16)).toList)))

/-- The live leaves of every context. -/
def State.tableLeaves (s : State) : List Leaf := s.roots.flatMap (fun r => s.leavesOf r.1 r.2)

/-- The outcome of a translated access: the key slot and the physical address, or the fault (16 R340). -/
inductive Phys
  | at_ (key a : Nat)
  | bad (c : Code)
  deriving DecidableEq, Repr

/-- The page size of a leaf (16 R339). -/
def pteSize (e : Dword) : Nat := if pteG e then 2 ^ 25 else 2 ^ 16

/-- The frame of a leaf lies in a range of device memory, whole or in part. -/
def pteOver (e : Dword) (frame size : Nat) : Bool :=
  pteV e && decide (pteAddr e < frame + size) && decide (frame < pteAddr e + pteSize e)

/-- A frame is the pre-image of an unsettled node, whole or in part (16 R346, R348). -/
def State.isPreImage (s : State) (frame size : Nat) : Bool := s.nodes.any (fun n => n.pre.any (fun p => pteOver p.old frame size))

/-- Returns a frame to a partition's version pool, which is a set, unless it is retired (16 R343, R344, R351). -/
def State.freeFrame (s : State) (p : PartId) (frame : Nat) (big : Bool) : State :=
  if s.retired.contains frame || (s.part p).pool.any (fun f => f.1 == frame) then s
  else s.modPart p (fun q => { q with pool := q.pool ++ [(frame, big)] })

/-- A frame goes back to the pool; of a 32 MiB frame that is kept in part, the rest goes back in frames of 64 KiB (16 R344, R348, R349). -/
def State.freeLoose (s : State) (p : PartId) (keep : Nat → Nat → Bool) (frame : Nat) (big : Bool) : State :=
  if !keep frame (if big then 2 ^ 25 else 2 ^ 16) then s.freeFrame p frame big
  else if big then
    (List.range 512).foldl (fun s k =>
      let f := frame + k * 2 ^ 16
      if keep f (2 ^ 16) then s else s.freeFrame p f false) s
  else s

/-- Where a read of the live version of a page finds its byte. -/
def State.liveRead (s : State) (pasid a : Nat) : Phys :=
  match s.walk pasid a with
  | none => .bad .translation
  | some l => if s.keys.contains (pteKey l.e) then .at_ (pteKey l.e) (pteAddr l.e + (a - l.va)) else .bad .protection

/-- The node's shadow of the page that an address lies in, where it has one and the context still stands (16 R343). -/
def State.shadowAt (s : State) (n : Node) (a : Nat) : Option Staged :=
  if s.keys.contains 0 && (lookup s.roots n.pasid).isSome then n.staged.find? (fun g => g.va ≤ a && a < g.va + g.size) else none

/-- Where a read by a node finds its byte: its shadow of the page where it has one, whatever the live leaf has become (16 R343, R348). -/
def State.viewRead (s : State) (n : Node) (a : Nat) : Phys :=
  match s.shadowAt n a with
  | some g =>
    let k := pteKey (s.entryAt g.leaf)
    if s.keys.contains k then .at_ k (g.frame + (a - g.va)) else .bad .protection
  | none => s.liveRead n.pasid a

/-- The first frame of a pool of the granule asked for, and the pool without it. -/
def takeFrame (big : Bool) : List (Nat × Bool) → Option (Nat × List (Nat × Bool))
  | [] => none
  | f :: fs => if f.2 == big then some (f.1, fs) else (takeFrame big fs).map (fun r => (r.1, f :: r.2))

/-- A write of a whole line clears its poison (16 R351). -/
def State.clearPoison (s : State) (a n : Nat) : State :=
  { s with poisoned := s.poisoned.filter (fun l => !(a ≤ 64 * l && 64 * l + 64 ≤ a + n)) }

/-- A page copied to another frame under the key of its leaf, poison and failed lines carried as poison without being consumed (16 R343,
R351, R352, log 21). -/
def State.copyFrame (s : State) (key old new size : Nat) : State :=
  let bad := (s.poisoned ++ s.badDev).filter (fun x => old ≤ 64 * x && 64 * x < old + size)
  let s := ((s.blankKey key new size).setDevBytes new (s.readKey key old size)).clearPoison new size
  { s with poisoned := s.poisoned ++ bad.map (fun x => x - old / 64 + new / 64) }

/-- Makes the node's shadow of a page, with the content of the live frame in MERGE mode and zeros in FRESH mode; sets `S` in the
live entry; poison is carried (16 R343, R351). The frame is taken from the pool, and an empty pool is a failed translation. -/
def State.stagePage (s : State) (n : Node) (l : Leaf) : Option State :=
  let big := l.size == 2 ^ 25
  match takeFrame big (s.part n.part).pool with
  | none => none
  | some (frame, pool) =>
    let s := s.modPart n.part (fun p => { p with pool := pool })
    let s := if n.fresh then (s.blankKey (pteKey l.e) frame l.size).clearPoison frame l.size
      else s.copyFrame (pteKey l.e) (pteAddr l.e) frame l.size
    let s := s.setEntry l.at_ (pteSet l.e 60 true)
    some (s.modNode n.nd (fun n => { n with staged := n.staged ++ [⟨l.va, l.size, frame, l.at_⟩] }))

/-- Where a write by a node lands, after staging the page on its first write (16 R340, R343). -/
def State.viewWrite (s : State) (n : Node) (a : Nat) : State × Phys :=
  match s.shadowAt n a with
  | some g =>
    let e := s.entryAt g.leaf
    (s, if !pteW e || !s.keys.contains (pteKey e) then .bad .protection else .at_ (pteKey e) (g.frame + (a - g.va)))
  | none => match s.walk n.pasid a with
    | none => (s, .bad .translation)
    | some l =>
      if !pteW l.e || !s.keys.contains (pteKey l.e) then (s, .bad .protection)
      else match s.stagePage n l with
        | none => (s, .bad .translation)
        | some s' => match (s'.node? n.nd).bind (fun n => s'.shadowAt n a) with
          | some g => (s', .at_ (pteKey l.e) (g.frame + (a - g.va)))
          | none => (s', .bad .translation)

/-- The address that a fault record holds for an access to window 0x10: where the version pool was empty, that of the page (16 R343). -/
def State.faultAddr (s : State) (n : Node) (a : Dword) (c : Code) : Dword :=
  if c = .translation && a.toNat / 2 ^ 56 == 0x10 then
    match s.walk n.pasid (a.toNat % 2 ^ 56) with
    | some l => BitVec.ofNat 64 (0x10 * 2 ^ 56 + l.va)
    | none => a
  else a

/-- A line of device memory that a read consumes an error of (15 R326, 16 R351). -/
def State.devBad (s : State) (a n : Nat) : Bool :=
  s.poisoned.any (fun l => 64 * l < a + n && a < 64 * l + 64) || s.badDev.any (fun l => 64 * l < a + n && a < 64 * l + 64)

/-- The host port to which a PASID is bound is down: its requests are rejected (17 R359). -/
def State.boundDown (s : State) (pasid : Nat) : Bool := match lookup s.bound pasid with | some p => s.hostDown.contains p | none => false

/-- How the host answers a request of window 0x20: data, a translation failure, a rejection, or poisoned data (11 R210,
15 R326, 17 R359); a port that is down rejects. -/
def State.hostAnswer (s : State) (pasid id : Nat) : Option Code :=
  if s.boundDown pasid then some .protection
  else match Config.hostAnswers id % 4 with
    | 1 => some .translation
    | 2 => some .protection
    | 3 => some .uncorrectable
    | _ => none

/-- The PASID carries CXL.cache: its port runs CXL and the host has enabled it (17 R359). -/
def State.cached (s : State) (pasid : Nat) : Bool :=
  s.cacheOn.contains pasid && (match lookup s.bound pasid with | some p => s.cxl.get (Fin.ofNat 2 p) | none => false)

/-- The port of a PASID carries the atomic: over CXL.cache each, else ADD, exchange and compare-and-swap alone (11 R234, 17 R358). -/
def State.hostCarries (s : State) (pasid : Nat) (fn : BitVec 3) : Bool := s.cached pasid || fn = 0 || fn = 6 || fn = 7

/-- An LPDDR interface is being re-trained: device memory waits (17 R367; which frames it holds is not given, log 13). -/
def State.retraining (s : State) : Bool := s.retrain.any (fun r => s.cyc < r.2)

/-- An access to an address waits for device memory (17 R367). -/
def State.awaits (s : State) (a : Dword) : Bool := a.toNat / 2 ^ 56 == 0x10 && s.retraining

/-- The bytes of a range that lie in the 64 KiB page of its first one. -/
def inPage (off n : Nat) : Nat := min n (2 ^ 16 - off % 2 ^ 16)

/-- Bytes of one page of window 0x10, in its live version. -/
def State.readPage (s : State) (pasid off n : Nat) : Option (List Byte) :=
  match s.liveRead pasid off with
  | .at_ k p => some (s.readKey k p n)
  | .bad _ => none

/-- Reads of memory on behalf of a queue or a command, of at most 64 KiB: windows 0x10 (live version), each page translated by itself, and
0x20, which a port that is down rejects (14 R379, 03 R54, 17 R359). -/
def State.readFor (s : State) (pasid : Nat) (a : Dword) (n : Nat) : Option (List Byte) :=
  let off := a.toNat % 2 ^ 56
  let k := inPage off n
  if a.toNat / 2 ^ 56 == 0x20 then (if s.boundDown pasid then none else some (s.hostBytes pasid off n))
  else if a.toNat / 2 ^ 56 == 0x10 then
    if k = n then s.readPage pasid off n
    else match s.readPage pasid off k, s.readPage pasid (off + k) (n - k) with
      | some x, some y => some (x ++ y)
      | _, _ => none
  else none

/-- The frame is held by a snapshot, whole or in part (16 R344, R349). -/
def State.frameHeld (s : State) (frame size : Nat) : Bool :=
  s.parts.toList.any (fun p => p.snapshots.any (fun k => k.leaves.any (fun l => pteOver l.2 frame size)))

/-- `H` of every leaf whose frame overlaps one of these says whether a snapshot holds its frame (16 R339, R342, R347, R349). -/
def State.setHeld (s : State) (leaves : List Dword) : State :=
  (s.tableLeaves.filter (fun l => leaves.any (fun e => pteOver e (pteAddr l.e) l.size))).foldl
    (fun t l => t.setEntry l.at_ (pteSet l.e 59 (s.frameHeld (pteAddr l.e) l.size))) s

/-- A page that a snapshot or an unsettled node holds is copied to a new frame before its live version is written (16 R346); none when
the pool has no frame. -/
def State.ownPage (s : State) (part : PartId) (l : Leaf) : Option State :=
  let old := pteAddr l.e
  if !s.frameHeld old l.size && !s.isPreImage old l.size then some s
  else match takeFrame (l.size == 2 ^ 25) (s.part part).pool with
    | none => none
    | some (f, pool) =>
      let s := s.modPart part (fun p => { p with pool := pool })
      let s := s.copyFrame (pteKey l.e) old f l.size
      some (s.setEntry l.at_ (pteSet (pteFrame l.e f) 59 false))

/-- The page of an address belongs to its live version alone, after a copy where it did not (16 R346). -/
def State.ownAt (s : State) (part : PartId) (pasid off : Nat) : Option State := (s.walk pasid off).bind (s.ownPage part)

/-- The page of an address in window 0x10 that a command may write in its live version (16 R340). -/
def State.writable (s : State) (pasid off : Nat) : Option Leaf :=
  match s.walk pasid off with
  | some l => if pteW l.e && s.keys.contains (pteKey l.e) then some l else none
  | none => none

/-- Writes bytes of one page of window 0x10 in its live version (16 R346). -/
def State.writePage (s : State) (part : PartId) (pasid off : Nat) (bs : List Byte) : State :=
  match (s.writable pasid off).bind (s.ownPage part) with
  | none => s
  | some s => match s.liveRead pasid off with
    | .at_ k p => (s.writeKey k p bs).clearPoison p bs.length
    | .bad _ => s

/-- Writes of at most 64 KiB into the live version, unstaged, each page by itself (14 R301, R310, 03 R56, 16 R340, R346, 17 R359). DESIGN CHOICE (log 31): a byte whose page has no
valid translation or may not be written, or is held while the pool is empty, and one that the host rejects, is dropped, and the command or
record that writes it goes on. -/
def State.writeFor (s : State) (part : PartId) (pasid : Nat) (a : Dword) (bs : List Byte) : State :=
  let off := a.toNat % 2 ^ 56
  if a.toNat / 2 ^ 56 == 0x20 then (if s.boundDown pasid then s else s.setHostBytes pasid off bs)
  else if a.toNat / 2 ^ 56 != 0x10 then s
  else
    let k := inPage off bs.length
    let s := s.writePage part pasid off (bs.take k)
    if k = bs.length then s else s.writePage part pasid (off + k) (bs.drop k)

/-- Words of a range, each translated by itself: a range may cross pages. -/
def State.wordsFor (s : State) (pasid : Nat) (a : Dword) : Nat → List Word
  | 0 => []
  | n + 1 => BitVec.ofNat 32 (leNat ((s.readFor pasid a 4).getD [])) :: State.wordsFor s pasid (a + 4) n

/-- Bytes of a range, each translated by itself. -/
def State.bytesFor (s : State) (pasid : Nat) (a : Dword) : Nat → List Byte
  | 0 => []
  | n + 1 => ((s.readFor pasid a 1).getD []).headD 0 :: State.bytesFor s pasid (a + 1) n

/-- Bytes written one after another, each in its page. -/
def State.writeEach (s : State) (part : PartId) (pasid : Nat) (a : Dword) : List Byte → State
  | [] => s
  | b :: bs => State.writeEach (s.writeFor part pasid a [b]) part pasid (a + 1) bs

end Sys2Proof.Machine
end

