-- ==== Sys2Proof/Machine/Operands.lean ====
section
/-! DEFINITION. Operand forms: effective addresses, windows and their checks, the paths to a scratchpad, claims, and the order of
accesses (06 R124, 07 R128 to R139, 11 R213 to R222). -/

namespace Sys2Proof.Machine
open Host

/-- Sign extension of a field to 64 bits (04 R80). -/
abbrev sx64 {n : Nat} (v : BitVec n) : Dword := v.signExtend 64

/-- Zero extension of a field to 64 bits (04 R80). -/
abbrev zx64 {n : Nat} (v : BitVec n) : Dword := v.setWidth 64

/-- The window of an address (01 Table 1-4). -/
def winOf (a : Dword) : Nat := a.toNat / 2 ^ 56

/-- The address within its window. -/
def offOf (a : Dword) : Nat := a.toNat % 2 ^ 56

/-- Where an access of `n` bytes lands: a package offset of a scratchpad, windows 0x10 and 0x20, or the fault of its address
(06 Table 6-4, 07 R138). -/
inductive Reach
  | spad (off : Nat)
  | far
  | bad (c : Code)
  deriving DecidableEq, Repr

/-- A compute core is granted to the node that the issuing core runs (07 Table 7-6). -/
def State.granted (s : State) (c : Nat) : Bool :=
  match s.here.node.bind s.node? with
  | some n => n.cores.any (fun u => u.val == c)
  | none => false

/-- The address checks that depend on the address alone (06 Table 6-4 orders 2, 3 and 5, 07 Table 7-6 orders 2 to 4). -/
def State.reach (s : State) (a : Dword) (n : Nat) : Reach :=
  let o := offOf a
  match winOf a with
  | 0x00 =>
    if isShep s.cur.unit || o + n > spadSize then .bad .window else .spad (s.cur.unit.val * spadSize + o)
  | 0x01 =>
    if o ≥ 2 ^ 34 || o % spadSize + n > spadSize then .bad .window
    else if s.granted (o / spadSize) then .spad o else .bad .protection
  | 0x02 => .bad .protection
  | 0x10 => .far
  | 0x20 => .far
  | _ => .bad .window

/-- The core that holds a package offset. -/
def coreOf (off : Nat) : UnitId := unitOf (off / spadSize)

/-- Path from the issuing unit to a scratchpad: 0 own, 1 same die, 2 other die (07 Table 7-3). -/
def State.path (s : State) (off : Nat) : Nat :=
  if s.cur.unit == coreOf off then 0 else if dieOf s.cur.unit == dieOf (coreOf off) then 1 else 2

/-- Array cycle after issue (07 Table 7-3). -/
def arrayOff (path : Nat) : Nat := match path with | 0 => 4 | 1 => 20 | _ => 48

/-- Landing of a line load of `n` beats after issue, before the beats are added (07 Table 7-3). -/
def lineLand (path : Nat) : Nat := match path with | 0 => 11 | 1 => 39 | _ => 95

/-- Landing of a banked load after issue, before its passes (07 Table 7-3). -/
def bankLand (path : Nat) : Nat := match path with | 0 => 13 | 1 => 41 | _ => 97

/-- Landing of a scalar load or atomic after issue (07 Table 7-3, 11 R236). -/
def scalarLand (path : Nat) : Nat := match path with | 0 => 14 | 1 => 40 | _ => 96

/-- A byte of the range lies in a line claimed by a copy in flight, from the cycle after the copy's issue (07 R139). -/
def State.claimed (s : State) (off n : Nat) : Bool :=
  s.cores.toList.any (fun c => c.copies.any (fun k =>
    decide (k.iss < s.cyc) && k.claims.any (fun r => r.1 < off + n && off < r.2)))

/-- The port of an access among the writes of a cycle (07 R133). -/
def State.portRank (s : State) (off : Nat) (local_ : PortRank) : PortRank :=
  if s.path off = 0 then local_ else .service s.cur.unit

/-! ### Order of accesses (07 R135, 11 R215 to R222) -/

/-- ord 3 to 7: a release for a store, an acquire for a load, both for an atomic (02 Table 2-3, 11 R217, R218). -/
def isAcq (ord : BitVec 3) : Bool := 3 ≤ ord.toNat

/-- An access that is still to be performed: its issue cycle, its class (none for a `RATM` whose reply is awaited), its ord, whether it
reaches windows 0x10 and 0x20, whether it is an acquire, the last cycle on which it acts as now planned (none for a request,
whose time is not fixed), and whether its target has moved it, so that it may be moved again (07 R137). -/
structure Pend where
  iss : Nat
  oc : Option (BitVec 4)
  ord : BitVec 3
  far : Bool
  acq : Bool
  last : Option Nat
  moved : Bool := false
  deriving DecidableEq, Repr

/-- The table's array cycle of an access (07 R136). -/
def Eff.tbl (e : Eff) : Nat :=
  match e.op with
  | .load _ _ _ _ t => t
  | .store _ _ t => t
  | .atomic _ _ _ _ _ _ _ _ t => t
  | _ => e.at_

/-- An access to an array that is still to act, or the send of a `RATM`, which acquires when its reply lands (07 R132, 11 R218,
12 R257). -/
def Eff.pend (e : Eff) : Option Pend :=
  match e.op, e.oc with
  | .send pl, _ => if pl.reply.isSome then some ⟨e.iss, none, e.ord, true, true, none, false⟩ else none
  | .load as got _ _ _, some oc => some ⟨e.iss, some oc, e.ord, false, isAcq e.ord, some (e.at_ + (as.length - 1) / 1024), decide (e.tbl + got.length / 1024 < e.at_)⟩
  | .atomic _ _ _ _ _ _ _ _ _, some oc => some ⟨e.iss, some oc, e.ord, false, isAcq e.ord, some e.at_, decide (e.tbl < e.at_)⟩
  | _, some oc => some ⟨e.iss, some oc, e.ord, false, false, some e.at_, decide (e.tbl < e.at_)⟩
  | _, none => none

/-- A request that is an acquire: a load, atomic or read of `WAITA` with ord 3 to 7 (11 R218). -/
def Req.acquires (r : Req) : Bool :=
  isAcq r.ord && (match r.op with | .store _ => false | _ => true)

/-- A request that is a release: a store or atomic with ord 3 to 7 (11 R217). -/
def Req.releases (r : Req) : Bool :=
  isAcq r.ord && (match r.op with | .store _ => true | .atomic _ _ _ _ _ => true | _ => false)

def Req.pend (r : Req) : Option Pend :=
  if r.done.isNone then some ⟨r.iss, some r.oc, r.ord, true, r.acquires, none, false⟩ else none

/-- The accesses of a sequencer that are still to be performed. -/
def State.pends (s : State) (q : SeqId) : List Pend :=
  (s.effs.filter (fun e => e.by_ == q)).filterMap Eff.pend ++
  ((s.core q.unit).reqs.filter (fun r => r.q == q.q)).filterMap Req.pend ++
  (s.core q.unit).slots.toList.filterMap (fun t => match t.reply with
    | some (n, _, _) => if n == q.q then some ⟨t.since, none, 0, true, true, none, false⟩ else none
    | none => none)

/-- The mark names the class of an access that came before it. -/
def Mark.covers (m : Mark) (p : Pend) : Bool :=
  decide (p.iss < m.at_) && (match p.oc with | some oc => m.pre.getLsbD oc.toNat | none => false)

/-- A later access: who issued it and when, its class, and whether it is a release (11 R215, R217). -/
structure Access where
  by_ : SeqId
  iss : Nat
  oc : BitVec 4
  rel : Bool

/-- A non-temporal store that no `DRAIN` before cycle `t` has gathered (11 R221). -/
def State.loose (s : State) (q : SeqId) (p : Pend) (t : Nat) : Bool :=
  p.ord == 1 && !(s.seq q).marks.any (fun m => m.kind == .drain && decide (m.commit ≤ s.cyc) && decide (m.at_ ≤ t) && m.covers p)

/-- A mark holds an access behind one that it names: a `FENCE` leaves out non-temporal stores to windows 0x10 and 0x20, a `DRAIN` names
non-temporal stores alone, and a `BAR` leaves out those that are not gathered (11 R216, R221, 05 R95). -/
def State.markHolds (s : State) (m : Mark) (p : Pend) : Bool :=
  m.covers p && (match m.kind with
    | .fence => !(p.far && p.ord == 1)
    | .drain => p.ord == 1
    | .fold => !s.loose m.who p m.at_)

/-- The accesses still to be performed that come before a later one: those of its class, but for non-temporal stores to windows 0x10
and 0x20; acquires; for a release every one but loose non-temporal stores; and those that a mark names (07 R135, 11 R215 to R221,
05 R95). -/
def State.earlier (s : State) (x : Access) : List Pend :=
  (s.pends x.by_).filter (fun p => decide (p.iss < x.iss) &&
    (p.acq || (p.oc == some x.oc && !(p.far && p.ord == 1)) || (x.rel && p.oc.isSome && !s.loose x.by_ p x.iss))) ++
  ((s.seq x.by_).marks.filter (fun m => decide (m.commit ≤ s.cyc) && decide (m.from_ ≤ x.iss) && m.post.getLsbD x.oc.toNat)).flatMap
    (fun m => (s.pends m.who).filter (s.markHolds m))

/-- An access in flight must wait on this cycle for an earlier one (07 R135, 11 R215 to R221). -/
def State.orderHeld (s : State) (x : Access) : Bool := !(s.earlier x).isEmpty

/-- An access of class `oc` that the current sequencer issues now. -/
def State.newAccess (s : State) (oc : BitVec 4) (rel : Bool) : Access := ⟨s.cur, s.cyc, oc, rel⟩

/-- An access of class `oc` issued now that acts on cycle `a` keeps every order that R135 and R215 to R221 ask for; `rel` marks a
release. In free mode it waits for an earlier one that its target has moved until that one has acted (07 R135). -/
def State.inOrder (s : State) (oc : BitVec 4) (rel : Bool) (a : Nat) : Bool :=
  (s.earlier (s.newAccess oc rel)).all (fun p => match p.last with | some l => decide (l < a) && (s.me.aligned || !p.moved) | none => false)

/-- The cycle from which a held access may be tried again: when the earlier accesses whose cycle is known have acted (07 R135). -/
def State.heldTill (s : State) (oc : BitVec 4) (rel : Bool) : Nat :=
  (s.earlier (s.newAccess oc rel)).foldl (fun m p => max m (p.last.getD 0)) (s.cyc + 1)

/-- A mark is entered; those whose accesses have all been performed go. -/
def State.addMark (s : State) (q : SeqId) (m : Mark) : State :=
  s.modSeq q (fun v => { v with marks := v.marks.filter (fun k => (s.pends k.who).any k.covers) ++ [m] })

/-- An access that would break an order, a busy port or a claimed range: it waits in free mode and raises TIMING in aligned
mode (07 R129, R135, 11 R222). -/
def State.busy (s : State) (till : Nat) : Verdict :=
  if s.me.aligned then .fault { code := .timing } else .stall till

/-- A request to windows 0x10 and 0x20 is dispatched: its translation completes at a time that is not fixed, after it has
committed (06 R119, 11 R211, 16 R341). -/
def State.request (s : State) (h : Hdr) (op : ReqOp) (a : Dword) (oc : BitVec 4) (ord : BitVec 3) : State :=
  let r : Req :=
    { id := s.serial, q := s.cur.q, pc := s.me.pc, addr := a, op := op, oc := oc, ord := ord, sq := h.sq
      commit := s.commitCycle, iss := s.cyc, done := none }
  let s := { s.modHere (fun c => { c with reqs := c.reqs ++ [r] }) with serial := s.serial + 1 }
  (s.postMine (s.commitCycle - s.cyc + 1 + Config.delay s.free) (.pageWalk r.id)).nextFree

/-- An access to an array at an effective address, with `esz` the size of the elements of a banked one: it acts on cycle `at_` and
commits on cycle `commit` (06 R119, 07 R132). -/
def State.access (s : State) (h : Hdr) (a : Dword) (oc : BitVec 4) (ord : BitVec 3) (at_ commit : Nat) (fixed : Bool) (op : EffOp)
    (esz : Nat := 0) : State :=
  let e : Eff :=
    { at_ := at_, iss := s.cyc, by_ := s.cur, pc := s.me.pc, node := s.myNode, sq := h.sq
      commit := commit, fixed := fixed, timed := s.me.aligned, oc := some oc, ord := ord, ea := a, esz := esz, op := op }
  { s with effs := s.effs ++ [e] }

/-- A load has a fixed latency in aligned mode, and in free mode through window 0x00 (05 R86, 07 R141). -/
def State.fixedLoad (s : State) (a : Dword) : Bool := s.me.aligned || winOf a == 0

/-- A fault that records the access's effective address (15 Table 15-3). -/
def addrFault (c : Code) (a : Dword) : Verdict :=
  .fault { code := c, addr := (if c = .timing then 0 else a.toNat) }

/-- The package offsets of `n` bytes from `off` on. -/
def span (off n : Nat) : List Nat := List.range' off n

/-- The bytes of a line from a package offset on, with their offsets. -/
def cellsAt (off : Nat) (bs : List Byte) : List (Nat × Byte) := (span off bs.length).zip bs

/-! ### Shape of vector and scratchpad operands -/

/-- Rows and columns of the shape, and the number of active lanes (08 R151). -/
def shpRows (shp : BitVec 8) : Nat := shp.toNat % 16 + 1
def shpCols (shp : BitVec 8) : Nat := shp.toNat / 16 + 1
def lanesOf (shp : BitVec 8) : Nat := shpRows shp * shpCols shp

/-- A word of a tile. -/
def laneAt (t : Tile) (j : Nat) : Word := t.getD j 0

/-- The bytes of words, little-endian (00 R3). -/
def wordBytes (t : List Word) : List Byte := t.flatMap (fun w => leBytes 4 w.toNat)

/-- Words of bytes, four at a time. -/
def bytesWords : List Byte → List Word
  | a :: b :: c :: d :: t => BitVec.ofNat 32 (leNat [a, b, c, d]) :: bytesWords t
  | _ => []

/-- A tile operand as the issuing core reads it. -/
def State.tile (s : State) (v : TileCode) : Tile := s.here.tile v.toNat

/-- The registers that a tile operand names: none for the zero tile. -/
def State.tileDest (s : State) (v : TileCode) : List Dest :=
  if v.toNat < 39 then [.tile s.cur.unit v.toNat] else []

abbrev State.xDest (s : State) (r : XReg) : Dest := .x s.cur r
abbrev State.pDest (s : State) (r : PReg) : Dest := .p s.cur r

/-- Signed and unsigned conditions on 64-bit values (02 Table 2-3). -/
def condHolds (c : BitVec 3) (a b : Dword) : Bool :=
  match c.toNat with
  | 0 => a == b
  | 1 => a != b
  | 2 => a.slt b
  | 3 => !a.slt b
  | 4 => a.ult b
  | _ => !a.ult b

end Sys2Proof.Machine
end

