-- ==== Sys2Proof/Machine/Flags.lean ====
section
/-! DEFINITION. The sticky flags: raising, clearing and reading them (04 R73, R74, 05 R111, 15 R336, R337). -/

namespace Sys2Proof.Machine
open Host

/-- The flags that a list of lane results raises together (04 R74). -/
def laneFlags (l : List (Word × Flags)) : Flags := l.foldl (fun f r => f ||| r.2) 0

/-- Flags raised by a result written on cycle `at_`: read by instructions issued after that cycle (04 R74). The sequencer notes
the cycle for `CHK.F` (15 R336). -/
def State.laterFlags (s : State) (h : Hdr) (at_ : Nat) (f : Flags) : State :=
  let s := s.setMe { s.me with flagAt := max s.me.flagAt at_ }
  if f = 0 then s else s.later h (at_ + 1) true true (.setFlags s.cur.unit f)

/-- `FLAGS` of the issuing core; zero on a shepherd core (15 R336, R337). -/
def State.flagsNow (s : State) : Flags := if isShep s.cur.unit then 0 else s.here.flags

/-- Clears flags for instructions issued two cycles later or more (05 R111, 15 R337). -/
def State.laterClear (s : State) (h : Hdr) (reg : Bool) (f : Flags) : State :=
  if isShep s.cur.unit then s else s.later h (s.cyc + 2) reg true (.clearFlags s.cur.unit f)

end Sys2Proof.Machine
end

