-- ==== Sys2Proof/Machine/Rendezvous.lean ====
section
/-! DEFINITION. Special registers, waits in progress, and the members, arrivals and releases of rendezvous and folds (02 R32,
05 R87 to R95, 11 R230). -/

namespace Sys2Proof.Machine
open Host

/-- `SLIP`: the nominal count, rounded down, less `CYC` (13 R272). -/
def State.slip (s : State) : Nat := s.n65 / 65 - s.cyc

/-- `TAGS`, the timeline counters, and the fold levels' phase bits as a core holds them (02 Table 2-6). -/
def Core.phaseBits (c : Core) (own : Bool) : Dword :=
  let b (v : Bool) (n : Nat) : Nat := if v then 2 ^ n else 0
  BitVec.ofNat 64 (b own 0 + b (c.phases.get 0) 1 + b (c.phases.get 1) 2 + b (c.phases.get 2) 3 + b (c.phases.get 3) 4)

/-- A `FOLD` word with its reserved bits 63 to 53 and 15 to 12 zero (05 Table 5-6). -/
def foldMask (f : Dword) : Dword := f &&& 0x001FFFFFFFFF0FFF

/-- A special register as the issuing sequencer reads it (02 Table 2-6, 05 R111). -/
def State.sreg (s : State) (n : Nat) : Dword :=
  let c := s.here
  match n with
  | 0x000 => BitVec.ofNat 64 s.cyc
  | 0x001 => BitVec.ofNat 64 s.drone
  | 0x002 => BitVec.ofNat 64 s.slip
  | 0x003 => BitVec.ofNat 64 (s.pitch % 2 ^ 10 + s.epoch.toNat * 2 ^ 32)
  | 0x004 => c.tags
  | 0x005 => foldMask c.fold
  | 0x006 => c.phaseBits s.me.phase
  | 0x007 => zx64 s.flagsNow
  | 0x008 => c.nodeId
  | 0x009 => zx64 c.shp
  | 0x00A => BitVec.ofNat 64 (s.cur.unit.val + seqNum s.cur.q * 2 ^ 8)
  | 0x00B => zx64 c.attempt
  | 0x00C => if s.me.aligned then BitVec.ofNat 64 (1 + s.me.seg.toNat * 2 ^ 8) else 0
  | 0x010 => c.tlc.get 0
  | 0x011 => c.tlc.get 1
  | 0x012 => c.tlc.get 2
  | 0x013 => c.tlc.get 3
  | _ => 0

/-! ### Waits -/

/-- Epoch `e` comes after `epoch` (13 R289). -/
def epochAfter (e epoch : Word) : Bool :=
  let d := (e - epoch).toNat
  1 ≤ d && d ≤ 2 ^ 31 - 1

/-- A handle is complete or idle (12 R264). -/
def Core.handleDone (c : Core) (hd : Idx64) : Bool := !(c.handles.get hd).busy

/-- The shepherd site of a die that a node uses: that of the placement, else the active one. -/
def State.shepOf (s : State) (n : Node) (d : Nat) : UnitId :=
  match n.sheps.find? (fun e => e.1 == d) with
  | some e => e.2
  | none => unitOf (32 + 2 * d + (if s.active.get (Fin.ofNat 4 d) then 1 else 0))

/-- The shepherd of a core's die (12 R266). -/
def State.shepFor (s : State) (u : UnitId) : UnitId :=
  match (s.core u).node.bind s.node? with
  | some n => s.shepOf n (dieOf u)
  | none => unitOf (32 + 2 * dieOf u + (if s.active.get (dieFin u) then 1 else 0))

/-- Entries of a mailbox that are posted or on their way, with those that a `STEPGET` has taken and a branch may still give back
(12 R266, 06 R119). -/
def State.posts (s : State) (u : UnitId) : Nat :=
  (s.core u).mailbox.length + (s.effs.filter (fun e => match e.op with
    | .postStep d _ => d == u
    | .takeStep _ => e.by_.unit == u
    | _ => false)).length

/-- The condition of a wait on this cycle (11 R230, R232, 12 R264, R266, 13 R289); rendezvous, folds and words are ended by
events of their own. -/
def State.waitMet (s : State) (q : SeqId) (w : WaitFor) : Bool :=
  let c := s.core q.unit
  match w with
  | .tags all mask => if all then c.tags &&& mask == mask else c.tags &&& mask != 0
  | .timeline ctx n => !(c.tlc.get ctx.toFin).ult n
  | .pitch e => epochAfter s.epoch e
  | .drone d => d.toNat ≤ s.drone
  | .handle hd => c.handleDone hd
  | .mailbox => s.posts (s.shepFor q.unit) < 16
  | .bar _ => false
  | .align _ _ _ => false
  | .word _ _ _ _ _ _ _ _ met => met

/-- The wait begins on this cycle; a timeout other than zero is due that many cycles later (11 R230). -/
def State.beginWait (s : State) (h : Hdr) (w : WaitFor) (tmo : Dword) : State :=
  let s := s.setMe { s.me with wait := some { t0 := s.cyc, tmo := tmo.toNat, what := w, sq := h.sq } }
  let s := match w with
    | .drone d => { s with agenda := s.agenda ++ [{ due := .ns d.toNat, ev := .droneInstantReached s.cur s.cyc, node := s.here.node, iss := s.cyc }] }
    | _ => s
  if tmo = 0 then s else s.postMine tmo.toNat (.waitTimeout s.cur s.cyc)

/-- A wait ends by its timeout: `WAIT_TIMEOUT`, held where the form is squashable in a branch's shadow (06 R120, 11 R230). -/
def State.timeoutNow (s : State) (q : SeqId) (w : Wait) : State :=
  let v := s.seq q
  let nd := (s.core q.unit).node.getD 0
  if w.sq && q.q == .scl && (s.core q.unit).lastBranch.isSome then
    let f : Raise := { code := .waitTimeout }
    (s.raiseEff { at_ := s.cyc, iss := w.t0, by_ := q, pc := v.pc, node := nd, sq := true, commit := s.cyc, fixed := true, op := .late f } f).setSeq q
      (v.advance (match w.what with | .word _ _ _ _ _ _ _ _ _ => 2 | _ => 1) 0 s.cyc)
  else s.raiseAt q v.pc nd { code := .waitTimeout }

/-- A wait on tags whose timeout has come on the cycle of a completion, which a copy issued on this cycle has undone (11 R207, R230). -/
def State.tagsUndone (s : State) (w : Wait) : Bool :=
  match w.what with
  | .tags _ _ => w.tmo != 0 && w.t0 + w.tmo == s.cyc && s.here.tagsAt == s.cyc
  | _ => false

/-- A waiting form: it ends on the first cycle on which its condition holds (11 R230). -/
def waitForm (h : Hdr) (reads : List Dest) (what : State → WaitFor) (tmo : State → Dword) (s : State) : Res :=
  match s.me.wait with
  | some w =>
    if s.waitMet s.cur w.what then .next (s.retire 1 0)
    else if s.tagsUndone w then .next (s.timeoutNow s.cur w) else .next s
  | none =>
    issue h 1 { reads := reads, waiting := true, serial := true }
      (fun s => if s.waitMet s.cur (what s) then .ok s else .hold (s.beginWait h (what s) (tmo s))) s

/-! ### Members -/

/-- The fields of `FOLD` (05 Table 5-6). -/
def foldSeqs (f : Dword) (q : SeqName) : Bool := f.getLsbD (seqNum q)
def foldDie (f : Dword) (k : Nat) : Bool := f.getLsbD (4 + k)
def foldPkg (f : Dword) (c : Nat) : Bool := f.getLsbD (16 + c)
def foldShep (f : Dword) (d : Nat) : Bool := f.getLsbD (48 + d)
def foldGroup (f : Dword) : Bool := f.getLsbD 52

/-- The cores of the die- or package-level fold of a core: those its masks name, and itself (05 R93, R94). -/
def State.foldCores (s : State) (n : Node) (u : UnitId) (die : Bool) : List UnitId :=
  let f := (s.core u).fold
  let d := dieOf u
  let cs := (List.range 32).filter (fun c =>
    u.val == c || (if die then c / 8 == d && foldDie f (c % 8) else foldPkg f c))
  let ss := (List.range 4).filter (fun e => foldShep f e && (!die || e == d))
  let sh := ss.map (s.shepOf n)
  cs.map unitOf ++ (if isShep u && !sh.contains u then u :: sh else sh)

/-- The members of level `lvl` (0 core, 1 die, 2 package, 3 group) as the core of `q` names them (05 Table 5-3). -/
def State.members (s : State) (n : Node) (u : UnitId) (lvl : Nat) : List SeqId :=
  match lvl with
  | 0 => (allSeqs.filter (fun q => ((s.core u).seq q).entry)).map (fun q => ⟨u, q⟩)
  | 1 => (s.foldCores n u true).flatMap (fun c => (allSeqs.filter (foldSeqs (s.core c).fold)).map (fun q => ⟨c, q⟩))
  | 2 => (s.foldCores n u false).flatMap (fun c => (allSeqs.filter (foldSeqs (s.core c).fold)).map (fun q => ⟨c, q⟩))
  | _ => ((n.cores ++ n.sheps.map (·.2)).filter (fun c => foldGroup (s.core c).fold)).flatMap
      (fun c => (allSeqs.filter (foldSeqs (s.core c).fold)).map (fun q => ⟨c, q⟩))

/-- The issuing sequencer is a member of the level (05 R87). -/
def State.isMember (s : State) (n : Node) (q : SeqId) (lvl : Nat) : Bool := (s.members n q.unit lvl).contains q

/-- The arrival of a member at the k-th rendezvous or fold of a level. -/
def Node.arrival (n : Node) (q : SeqId) (bar : Bool) (lvl k : Nat) : Option Arrived :=
  n.arrived.find? (fun a => a.who == q && a.bar == bar && a.lvl == lvl && a.k == k)

/-- Every core of a die- or package-level fold runs in this node and names the same cores (05 R94). -/
def State.foldAgrees (s : State) (n : Node) (u : UnitId) (lvl : Nat) : Bool :=
  let cs := s.foldCores n u (lvl == 1)
  lvl == 0 || lvl == 3 || cs.all (fun c =>
    (s.core c).node == some n.nd &&
    (s.foldCores n c (lvl == 1)).all cs.contains && cs.all (s.foldCores n c (lvl == 1)).contains)

/-- The fold is complete and consistent, every member has an entry, and has arrived with its k-th (05 R87, R94). -/
def State.foldFull (s : State) (n : Node) (u : UnitId) (bar : Bool) (lvl k : Nat) : Bool :=
  s.foldAgrees n u lvl &&
  (s.members n u lvl).all (fun m =>
    (s.core m.unit).node == some n.nd && (s.seq m).entry && (n.arrival m bar lvl k).isSome)

/-- Cycles from the latest arrival to the release or the completion (05 Tables 5-3 and 5-7). DESIGN CHOICE (log 6): a `BAR.DIE` or
`BAR.PKG`, which may complete on this cycle or later, completes on it. -/
def releaseAfter (bar : Bool) (lvl : Nat) : Nat :=
  match bar, lvl with
  | false, 0 => 16
  | false, 1 => 64
  | false, 2 => 256
  | true, 0 => 8
  | true, 1 => 32
  | true, _ => 128
  | false, _ => 0

/-- The announcements of every other package of the group for the k-th group rendezvous (or group `BAR`), all with instant
`d` (05 R88, R95). -/
def Node.announcedAll (n : Node) (bar : Bool) (k : Nat) (d : Dword) : Bool :=
  (List.range n.size).all (fun r => r == n.rank || n.announced.any (fun a => a.1 == bar && a.2.1 == r && a.2.2.1 == k && a.2.2.2 == d))

/-- An arrival is entered; when it is the last, the release or the completion is due (05 R87, R95). -/
def State.arrive (s : State) (n : Node) (a : Arrived) : State :=
  let s := s.modNode n.nd (fun n => { n with arrived := n.arrived ++ [a] })
  match s.node? n.nd with
  | none => s
  | some n =>
    if !s.foldFull n a.who.unit a.bar a.lvl a.k then s
    else
      let ms := s.members n a.who.unit a.lvl
      if a.lvl < 3 then
        if a.bar then s.postMine (releaseAfter true a.lvl) (.barComplete ms (a.lvl + 1))
        else s.postMine (releaseAfter false a.lvl) (.alignRelease ms a.lvl a.k)
      else
        let s := s.emit (.announce a.bar a.k a.d)
        if a.bar && n.announcedAll true a.k 0 then
          (s.postMine (128 + Config.delay s.free) (.barComplete ms 4)).nextFree
        else s

/-- The end of an `ALIGN`'s wait: the member is aligned in the segment, its deadline is due, and its next instruction issues
from this cycle on (05 R87, R89, R103). Segments are numbered, so that a deadline names its own. -/
def State.releaseMember (s : State) (q : SeqId) : State :=
  let v := s.seq q
  match v.wait with
  | some w =>
    match w.what with
    | .align lvl seg budget =>
      let v' := v.advance 2 0 s.cyc
      let due := s.cyc + budget.toNat
      let s' := s.setSeq q { v' with aligned := true, seg := seg, lvl := lvl, deadline := due, serial := s.serial, base := s.cyc }
      { s' with
        serial := s.serial + 1
        agenda := s.agenda ++ [{ due := .cyc due, ev := .segmentDeadline q s.serial, node := (s.core q.unit).node, iss := s.cyc }] }
    | _ => s
  | none => s

/-- The orders that a member hands on by a completed `BAR`: its own accesses, and those that an earlier `BAR` has put before them (05 R95,
11 R217). -/
def State.handedOn (s : State) (x : SeqId) : List Mark :=
  { kind := .fold, who := x, at_ := s.cyc, from_ := s.cyc, pre := BitVec.allOnes 16, post := BitVec.allOnes 16, sq := false, commit := s.cyc } ::
    ((s.seq x).marks.filter (fun m => m.kind == .fold)).map (fun m => { m with from_ := s.cyc })

/-- The orders that a `BAR` of these members hands to each of them. -/
def State.barMarks (s : State) (who : List SeqId) : List Mark :=
  ((who.flatMap s.handedOn).filter (fun m => (s.pends m.who).any m.covers)).eraseDups

/-- A completed `BAR`: every later access of the member acts after every access that the members' releases cover (05 R95, 11 R217). -/
def State.acquireAll (s : State) (ms : List Mark) (q : SeqId) : State :=
  ms.foldl (fun t m => if (t.seq q).marks.any (fun k => { k with from_ := m.from_ } == m) then t else t.addMark q m) s

def State.completeMember (s : State) (q : SeqId) : State :=
  let v := s.seq q
  match v.wait with
  | some w => match w.what with
    | .bar _ => s.setSeq q (v.advance 1 0 s.cyc)
    | _ => s
  | none => s

/-- `PHASE` bit of a fold level of a core flips (05 R95); `lvl` is 1 to 4. -/
def Core.flipPhase (c : Core) (lvl : Nat) : Core :=
  let i : Fin 4 := Fin.ofNat 4 (lvl - 1)
  { c with phases := c.phases.set i.val (!c.phases.get i) i.isLt }

end Sys2Proof.Machine
end

