-- ==== Sys2Proof/Machine/Shared.lean ====
section
/-! DEFINITION. The shared control instructions: control transfer, loops, rendezvous, folds, and index, predicate and special
registers (05). -/

namespace Sys2Proof.Machine
open Host

/-- `NOP` (05 R100). -/
def execNop (h : Hdr) (s : State) : Res := issue h 1 {} (fun s => .ok s) s

/-- `WAIT` (05 R100). -/
def execWait (h : Hdr) (n : BitVec 21) (s : State) : Res :=
  issue h 1 { serial := true } (fun s => .delay s n.toNat) s

/-- The target of a word offset from the issuing instruction (02 R21). -/
def State.wordTarget {n : Nat} (s : State) (off : BitVec n) : Dword := s.me.pc + 4 * sx64 off

/-- A call: the return stack holds at most eight addresses (05 R98, R101). -/
def State.call (s : State) (target : Dword) : Verdict :=
  if s.me.stack.length ≥ 8 then .fault { code := .callDepth }
  else .jump (s.setMe { s.me with stack := (s.me.pc + 4) :: s.me.stack }) target

/-- `J` (05 R101). -/
def execJ (h : Hdr) (off : BitVec 21) (s : State) : Res :=
  issue h 1 { serial := true } (fun s => .jump s (s.wordTarget off)) s

/-- `CALL` (05 R98, R101). -/
def execCall (h : Hdr) (off : BitVec 21) (s : State) : Res :=
  issue h 1 { serial := true } (fun s => s.call (s.wordTarget off)) s

/-- `RET` (05 R98, R101). -/
def execRet (h : Hdr) (s : State) : Res :=
  issue h 1 { serial := true } (fun s => match s.me.stack with
    | [] => .fault { code := .retEmpty }
    | r :: rs => .jump (s.setMe { s.me with stack := rs }) r) s

/-- The start of a loop level, or the skip of its body (05 R96, R102). -/
def State.startLoop (s : State) (lvl : BitVec 2) (count start : Dword) (len : Nat) : Verdict :=
  if count = 0 then .jump s (start + BitVec.ofNat 64 (4 * len))
  else
    let q := s.me
    let l : Loop :=
      { active := true, lc := 0, count := count, start := start, last := start + BitVec.ofNat 64 (4 * (len - 1))
        order := q.starts + 1 }
    .jump (s.setMe { q with loops := q.loops.set lvl.toNat l lvl.isLt, starts := q.starts + 1 }) start

/-- `LOOP` (05 R102). -/
def execLoop (h : Hdr) (lvl : BitVec 2) (xa : XReg) (len : BitVec 14) (s : State) : Res :=
  issue h 1 { reads := [s.xDest xa], serial := true }
    (fun s => s.startLoop lvl (s.xr xa) (s.me.pc + 4) len.toNat) s

/-- `LOOPI` (05 R102). -/
def execLoopi (h : Hdr) (lvl : BitVec 2) (len : BitVec 14) (count : BitVec 32) (s : State) : Res :=
  issue h 2 { serial := true } (fun s => s.startLoop lvl (zx64 count) (s.me.pc + 8) len.toNat) s

/-- The checks of an `ALIGN` in their order (05 R87, R88, R103). -/
def State.alignCheck (s : State) (n : Node) (lvl k : Nat) (seg : BitVec 8) (d : Dword) : Option Raise :=
  if !s.isMember n s.cur lvl then some { code := .protection }
  else
    let ms := s.members n s.cur.unit lvl
    match n.arrived.find? (fun a => !a.bar && a.lvl == lvl && a.k == k && ms.contains a.who) with
    | some a =>
      if a.seg != seg then some { code := .timing }
      else if lvl == 3 && (s.drone + 50000 > d.toNat || a.d != d) then some { code := .timing } else none
    | none => if lvl == 3 && s.drone + 50000 > d.toNat then some { code := .timing } else none

/-- Every member of the group level in this package takes TIMING, arrived or not (05 R88, 13 R284). -/
def State.membersFail (s : State) (n : Node) (u : UnitId) : State :=
  (s.members n u 3).foldl (fun s q => s.raiseAt q (s.seq q).pc n.nd { code := .timing }) s

/-- The arrival of an `ALIGN` (05 R87, R103): the current segment ends, the member waits in free mode for the release. DESIGN CHOICE
(log 29): where an announcement of another D has come before, the package's first arrival raises the TIMING of 05 R88. -/
def State.alignArrive (s : State) (n : Node) (lvl k : Nat) (seg : BitVec 8) (d : Dword) (budget : Word) : State :=
  let q := s.me
  let first := !n.arrived.any (fun a => !a.bar && a.lvl == 3 && a.k == k)
  let s := s.setMe { q with
    aligned := false
    seg := 0
    aligns := q.aligns.set (lvl % 4) (k + 1) (Nat.mod_lt _ (by decide))
    wait := some { t0 := s.cyc, tmo := 0, what := .align lvl seg budget } }
  let s := s.arrive n ⟨s.cur, false, lvl, k, seg, d, s.cyc, budget⟩
  if lvl == 3 && first then
    let s := if n.announced.any (fun a => !a.1 && a.2.2.1 == k && a.2.2.2 != d) then s.membersFail n s.cur.unit else s
    { s with agenda := s.agenda ++ [{ due := .ns d.toNat, ev := .alignRelease [s.cur] 3 k, node := some n.nd, iss := s.cyc }] }
  else s

/-- `ALIGN` (05 R87, R103). -/
def execAlign (h : Hdr) (lvl : BitVec 2) (seg : BitVec 8) (xa : XReg) (budget : BitVec 32) (s : State) : Res :=
  match s.me.wait with
  | some _ => .next s
  | none =>
    issue h 2 { reads := [s.xDest xa], serial := true } (fun s =>
      match s.here.node.bind s.node? with
      | none => .fault { code := .protection }
      | some n =>
        let k := s.me.aligns.get lvl.toFin
        match s.alignCheck n lvl.toNat k seg (s.xr xa) with
        | some r => .fault r
        | none => .hold (s.alignArrive n lvl.toNat k seg (s.xr xa) budget)) s

/-- `RELAX` (05 R91, R103). -/
def execRelax (h : Hdr) (s : State) : Res :=
  issue h 1 { serial := true } (fun s =>
    if s.me.aligned then .ok (s.setMe { s.me with aligned := false, seg := 0 }) else .ok s) s

/-- `BAR` (05 R95, R104). -/
def execBar (h : Hdr) (lvl : BitVec 3) (xt : XReg) (s : State) : Res :=
  match s.me.wait with
  | some _ => .next s
  | none =>
    issue h 1 { reads := [s.xDest xt], waiting := true, serial := true } (fun s =>
      if lvl = 0 then .ok ((s.setMe { s.me with phase := !s.me.phase }).acquireAll (s.barMarks [s.cur]) s.cur)
      else match s.here.node.bind s.node? with
        | none => .fault { code := .protection }
        | some n =>
          if !s.isMember n s.cur (lvl.toNat - 1) then .fault { code := .protection }
          else
            let i : Fin 5 := Fin.ofNat 5 lvl.toNat
            let k := s.me.bars.get i
            let s := s.setMe { s.me with bars := s.me.bars.set i.val (k + 1) i.isLt }
            let s := s.beginWait h (.bar lvl.toNat) (s.xr xt)
            .hold (s.arrive n ⟨s.cur, true, lvl.toNat - 1, k, 0, 0, s.cyc, 0⟩)) s

/-- `MOVI` (05 R105). -/
def execMovi (h : Hdr) (xd : XReg) (imm : BitVec 16) (s : State) : Res :=
  issue h 1 { writes := [s.xDest xd] } (fun s => .ok (s.laterX h xd 1 (sx64 imm))) s

/-- `MOVW` (05 R105). -/
def execMovw (h : Hdr) (xd : XReg) (imm : BitVec 32) (s : State) : Res :=
  issue h 2 { writes := [s.xDest xd] } (fun s => .ok (s.laterX h xd 1 (sx64 imm))) s

/-- `MOVH` (05 R105). -/
def execMovh (h : Hdr) (xd : XReg) (imm : BitVec 32) (s : State) : Res :=
  issue h 2 { reads := [s.xDest xd], writes := [s.xDest xd] }
    (fun s => .ok (s.laterX h xd 1 (imm ++ (s.xr xd).extractLsb' 0 32))) s

/-- `ADDI` (05 R105). -/
def execAddi (h : Hdr) (xd xa : XReg) (imm : BitVec 11) (s : State) : Res :=
  issue h 1 { reads := [s.xDest xa], writes := [s.xDest xd] } (fun s => .ok (s.laterX h xd 1 (s.xr xa + sx64 imm))) s

/-- An operation of two index registers under a guard, with its latency (05 R106, 06 R114). -/
def indexOp (h : Hdr) (xd xa xb : XReg) (pg : PReg) (lat : Nat) (f : Dword → Dword → Dword) (s : State) : Res :=
  guarded h 1 pg { reads := [s.xDest xa, s.xDest xb], writes := [s.xDest xd] }
    (fun s => .ok (s.laterX h xd lat (f (s.xr xa) (s.xr xb)))) s

/-- An operation of an index register and an immediate (05 R107). -/
def immOp (h : Hdr) (xd xa : XReg) (f : Dword → Dword) (s : State) : Res :=
  issue h 1 { reads := [s.xDest xa], writes := [s.xDest xd] } (fun s => .ok (s.laterX h xd 1 (f (s.xr xa)))) s

/-- The shift count of an index operation: the six low bits (05 R106). -/
def shiftCount (b : Dword) : Nat := b.toNat % 64

/-- `ADD` (05 Table 5-10). -/
def execAdd (h : Hdr) (xd xa xb : XReg) (pg : PReg) (s : State) : Res := indexOp h xd xa xb pg 1 (fun a b => a + b) s
/-- `SUB` (05 Table 5-10). -/
def execSub (h : Hdr) (xd xa xb : XReg) (pg : PReg) (s : State) : Res := indexOp h xd xa xb pg 1 (fun a b => a - b) s
/-- `AND` (05 Table 5-10). -/
def execAnd (h : Hdr) (xd xa xb : XReg) (pg : PReg) (s : State) : Res := indexOp h xd xa xb pg 1 (fun a b => a &&& b) s
/-- `OR` (05 Table 5-10). -/
def execOr (h : Hdr) (xd xa xb : XReg) (pg : PReg) (s : State) : Res := indexOp h xd xa xb pg 1 (fun a b => a ||| b) s
/-- `XOR` (05 Table 5-10). -/
def execXor (h : Hdr) (xd xa xb : XReg) (pg : PReg) (s : State) : Res := indexOp h xd xa xb pg 1 (fun a b => a ^^^ b) s
/-- `SHL` (05 Table 5-10). -/
def execShl (h : Hdr) (xd xa xb : XReg) (pg : PReg) (s : State) : Res :=
  indexOp h xd xa xb pg 1 (fun a b => a <<< shiftCount b) s
/-- `SHR` (05 Table 5-10). -/
def execShr (h : Hdr) (xd xa xb : XReg) (pg : PReg) (s : State) : Res :=
  indexOp h xd xa xb pg 1 (fun a b => a >>> shiftCount b) s
/-- `SAR` (05 Table 5-10). -/
def execSar (h : Hdr) (xd xa xb : XReg) (pg : PReg) (s : State) : Res :=
  indexOp h xd xa xb pg 1 (fun a b => a.sshiftRight (shiftCount b)) s

/-- `ANDI` (05 R107). -/
def execAndi (h : Hdr) (xd xa : XReg) (imm : BitVec 8) (s : State) : Res := immOp h xd xa (fun a => a &&& zx64 imm) s
/-- `ORI` (05 R107). -/
def execOri (h : Hdr) (xd xa : XReg) (imm : BitVec 8) (s : State) : Res := immOp h xd xa (fun a => a ||| zx64 imm) s
/-- `XORI` (05 R107). -/
def execXori (h : Hdr) (xd xa : XReg) (imm : BitVec 8) (s : State) : Res := immOp h xd xa (fun a => a ^^^ zx64 imm) s
/-- `SHLI` (05 R107). -/
def execShli (h : Hdr) (xd xa : XReg) (imm : BitVec 8) (s : State) : Res := immOp h xd xa (fun a => a <<< imm.toNat) s
/-- `SHRI` (05 R107). -/
def execShri (h : Hdr) (xd xa : XReg) (imm : BitVec 8) (s : State) : Res := immOp h xd xa (fun a => a >>> imm.toNat) s
/-- `SARI` (05 R107). -/
def execSari (h : Hdr) (xd xa : XReg) (imm : BitVec 8) (s : State) : Res := immOp h xd xa (fun a => a.sshiftRight imm.toNat) s

/-- `PCMP` (05 R108). -/
def execPcmp (h : Hdr) (pd : PReg) (xa xb : XReg) (cond : BitVec 3) (s : State) : Res :=
  issue h 1 { reads := [s.xDest xa, s.xDest xb], writes := [s.pDest pd] }
    (fun s => .ok (s.laterP h pd 1 (condHolds cond (s.xr xa) (s.xr xb)))) s

/-- `PCMPI` (05 R108). -/
def execPcmpi (h : Hdr) (pd : PReg) (xa : XReg) (cond : BitVec 3) (imm : BitVec 10) (s : State) : Res :=
  issue h 1 { reads := [s.xDest xa], writes := [s.pDest pd] }
    (fun s => .ok (s.laterP h pd 1 (condHolds cond (s.xr xa) (sx64 imm)))) s

/-- An operation of two predicates (05 R109). -/
def predOp (h : Hdr) (pd pa pb : PReg) (f : Bool → Bool → Bool) (s : State) : Res :=
  issue h 1 { reads := [s.pDest pa, s.pDest pb], writes := [s.pDest pd] }
    (fun s => .ok (s.laterP h pd 1 (f (s.pr pa) (s.pr pb)))) s

/-- `PAND` (05 R109). -/
def execPand (h : Hdr) (pd pa pb : PReg) (s : State) : Res := predOp h pd pa pb (fun a b => a && b) s
/-- `POR` (05 R109). -/
def execPor (h : Hdr) (pd pa pb : PReg) (s : State) : Res := predOp h pd pa pb (fun a b => a || b) s
/-- `PXOR` (05 R109). -/
def execPxor (h : Hdr) (pd pa pb : PReg) (s : State) : Res := predOp h pd pa pb (fun a b => a != b) s
/-- `PANDN` (05 R109). -/
def execPandn (h : Hdr) (pd pa pb : PReg) (s : State) : Res := predOp h pd pa pb (fun a b => a && !b) s

/-- `SEL` (05 R110). -/
def execSel (h : Hdr) (xd xa xb : XReg) (pg : PReg) (s : State) : Res :=
  issue h 1 { reads := [s.xDest xa, s.xDest xb, s.pDest pg], writes := [s.xDest xd] }
    (fun s => .ok (s.laterX h xd 1 (if s.pr pg then s.xr xa else s.xr xb))) s

/-- `MFS` (05 R111). -/
def execMfs (h : Hdr) (xd : XReg) (sreg : BitVec 12) (s : State) : Res :=
  issue h 1 { writes := [s.xDest xd] }
    (fun s => .ok (s.laterX h xd 1 (s.sreg sreg.toNat))) s

/-- `MTS` (05 R111). -/
def execMts (h : Hdr) (xa : XReg) (sreg : BitVec 12) (s : State) : Res :=
  issue h 1 { reads := [s.xDest xa] }
    (fun s =>
      if sreg.toNat = 0x009 then .ok (s.later h (s.cyc + 2) true true (.setShp s.cur.unit ((s.xr xa).setWidth 8)))
      else .ok (s.laterClear h true ((s.xr xa).setWidth 16))) s

/-- `XSET` (05 R112). -/
def execXset (h : Hdr) (seq : BitVec 2) (xd xa : XReg) (s : State) : Res :=
  issue h 1 { reads := [s.xDest xa], writes := [.x ⟨s.cur.unit, seqNamed seq.toNat⟩ xd] }
    (fun s => .ok (s.later h (s.cyc + 4) true true (.setX ⟨s.cur.unit, seqNamed seq.toNat⟩ xd (s.xr xa) true))) s

/-- `XSETP` (05 R112). -/
def execXsetp (h : Hdr) (seq : BitVec 2) (pd ps : PReg) (s : State) : Res :=
  issue h 1 { reads := [s.pDest ps], writes := [.p ⟨s.cur.unit, seqNamed seq.toNat⟩ pd] }
    (fun s => .ok (s.later h (s.cyc + 4) true true (.setP ⟨s.cur.unit, seqNamed seq.toNat⟩ pd (s.pr ps) true))) s

/-! ### Releases, completions and deadlines -/

/-- The arrivals of a rendezvous or fold are spent. -/
def State.spend (s : State) (who : List SeqId) (bar : Bool) (lvl k : Nat) : State :=
  match who with
  | [] => s
  | q :: _ =>
    match (s.core q.unit).node with
    | none => s
    | some nd => s.modNode nd (fun n =>
        { n with arrived := n.arrived.filter (fun a => !(who.contains a.who && a.bar == bar && a.lvl == lvl && a.k == k)) })

/-- The checks of a group anchor on its release cycle: slip, and the fill of every port that is up (13 R284). -/
def State.anchorOff (s : State) : Bool :=
  s.slip > 64 || s.ports.toList.any (fun p => p.up && (p.fill < 96 || p.fill > 160))

/-- An announcement of another package for the `k`-th group `ALIGN` is missing (05 R88). -/
def Node.unannounced (n : Node) (k : Nat) : Bool :=
  (List.range n.size).any (fun r => r != n.rank && !n.announced.any (fun a => !a.1 && a.2.1 == r && a.2.2.1 == k))

/-- Every arrived member of a group rendezvous takes TIMING (05 R88). -/
def State.anchorFail (s : State) (n : Node) (k : Nat) : State :=
  (n.arrived.filter (fun a => !a.bar && a.lvl == 3 && a.k == k)).foldl
    (fun s a => s.raiseAt a.who (s.seq a.who).pc n.nd { code := .timing }) s

/-- A group `ALIGN` that other packages have announced for this instant, and at which no member has arrived here, while another
announcement is missing: every member takes TIMING (05 R88). -/
def State.anchorMissed (s : State) (k : Nat) : State :=
  match s.nodes.find? (fun n => n.family.group && n.state == .running) with
  | none => s
  | some n =>
    if n.arrived.any (fun a => !a.bar && a.lvl == 3 && a.k == k) || !n.unannounced k ||
        !n.announced.any (fun a => !a.1 && a.2.2.1 == k && decide (a.2.2.2.toNat ≤ s.drone)) then s
    else match (n.cores ++ n.sheps.map (·.2)).find? (fun u => foldGroup (s.core u).fold) with
      | some u => if (s.members n u 3).all (fun q => (s.seq q).aligns.get 3 == k) then s.membersFail n u else s
      | none => s

/-- `ALIGN_RELEASE` (05 R87, R88, 13 R284). At the instant of a group `ALIGN` the arrived members take TIMING where only members of this
package are missing, and every member where an announcement is. -/
def execAlignRelease (who : List SeqId) (lvl k : Nat) (s : State) : Res :=
  if lvl < 3 then .next ((who.foldl State.releaseMember s).spend who false lvl k)
  else match who with
    | [] => .next (s.anchorMissed k)
    | q :: _ =>
      match (s.core q.unit).node.bind s.node? with
      | none => .next s
      | some n =>
        match n.arrival q false 3 k with
        | none => .next s
        | some a =>
          let ms := s.members n q.unit 3
          if s.foldFull n q.unit false 3 k && n.announcedAll false k a.d && !s.anchorOff then
            .next ((ms.foldl State.releaseMember s).spend ms false 3 k)
          else .next (if s.anchorOff || n.unannounced k then s.membersFail n q.unit else s.anchorFail n k)

/-- The node of this package that an announcement concerns: the group node that runs, else one that is launched. -/
def State.announcedNode (s : State) : Option Node :=
  let of (p : Node → Bool) : Option Node := s.nodes.find? (fun n => n.family.group && p n)
  match of (fun n => n.state == .running) with
  | some n => some n
  | none => of (fun n => match n.state with | .waiting _ => true | .armed => true | _ => false)

/-- `GROUP_ANNOUNCEMENT` (05 R88, R95): kept, also before the node runs or is launched; with another instant than the package's own every
member takes TIMING; that of an `ALIGN` is looked at again on its instant; the last of a fold completes it, not before the latest arrival plus 128 and after a free
delay (log 6). -/
def execGroupAnnouncement (rank k : Nat) (d : Dword) (bar : Bool) (s : State) : Res :=
  s.unlessFailed <|
  let s := if bar then s else s.postAt (.ns d.toNat) (.alignRelease [] 3 k)
  match s.announcedNode with
  | none => .next { s with group := { s.group with early := s.group.early ++ [(bar, rank, k, d)] } }
  | some n =>
    let s := s.modNode n.nd (fun n => { n with announced := n.announced ++ [(bar, rank, k, d)] })
    match s.node? n.nd, n.arrived.find? (fun a => a.bar == bar && a.lvl == 3 && a.k == k) with
    | some n, some a =>
      if bar then
        if s.foldFull n a.who.unit true 3 k && n.announcedAll true k 0 then
          let late := n.arrived.foldl (fun m x => if x.bar && x.lvl == 3 && x.k == k then max m x.at_ else m) 0
          .next (s.postIn (late + 128 - s.cyc + Config.delay s.free) (.barComplete (s.members n a.who.unit 3) 4)).nextFree
        else .next s
      else if a.d != d then .next (s.membersFail n a.who.unit) else .next s
    | _, _ => .next s

/-- `SEGMENT_DEADLINE` (05 R89). -/
def execSegmentDeadline (q : SeqId) (serial : Nat) (s : State) : Res :=
  let v := s.seq q
  if v.aligned && v.serial == serial then
    .next (s.raiseAt q v.pc ((s.core q.unit).node.getD 0) { code := .deadline })
  else .next s

/-- `BAR_COMPLETE` (05 R95); `lvl` is the level of the `BAR`, 1 to 4. -/
def execBarComplete (who : List SeqId) (lvl : Nat) (s : State) : Res :=
  let ms := s.barMarks who
  let s1 := who.foldl (fun t q => t.acquireAll ms q) s
  let s2 := who.foldl State.completeMember s1
  let units := (who.map (·.unit)).eraseDups
  let s3 := units.foldl (fun t u => t.modCore u (fun c => c.flipPhase lvl)) s2
  match who with
  | [] => .next s3
  | q :: _ => .next (s3.spend who true (lvl - 1) ((s.seq q).bars.get (Fin.ofNat 5 lvl) - 1))

/-- A value that has returned lands in its register with the landings of the next cycle, in their order (05 R85, log 6). -/
def State.returnX (s : State) (q : SeqId) (pc : Dword) (node iss : Nat) (sq : Bool) (xd : XReg) (v : Dword) : State :=
  let t := s.cyc + 1
  { s with effs := s.effs ++ [{ at_ := t, iss := iss, by_ := q, pc := pc, node := node, sq := sq, commit := t, fixed := false, op := .setX q xd v false }] }

/-- `WAIT_TIMEOUT` (11 R230): on the cycle of the timeout the condition is looked at once more; a read of
`WAITA` in flight is awaited (log 16). -/
def execWaitTimeout (q : SeqId) (t0 : Nat) (s : State) : Res :=
  match (s.seq q).wait with
  | some w =>
    let inFlight := match w.what with | .word _ _ _ _ _ _ _ p _ => p | _ => false
    if w.t0 != t0 || s.waitMet q w.what || inFlight then .next s else .next (s.timeoutNow q w)
  | none => .next s

end Sys2Proof.Machine
end

