-- ==== Sys2Proof/Machine/Scalar.lean ====
section
/-! DEFINITION. The scalar instructions: integer operations, conditional branches, register-indirect jumps, scalar loads and
stores (06). -/

namespace Sys2Proof.Machine
open Host

/-- `MUL` (06 R115). -/
def execMul (h : Hdr) (xd xa xb : XReg) (pg : PReg) (s : State) : Res := indexOp h xd xa xb pg 4 (fun a b => a * b) s

/-- `MULHS` (06 R115). -/
def execMulhs (h : Hdr) (xd xa xb : XReg) (pg : PReg) (s : State) : Res :=
  indexOp h xd xa xb pg 4 (fun a b => BitVec.ofInt 64 (a.toInt * b.toInt / 2 ^ 64)) s

/-- `MULHU` (06 R115). -/
def execMulhu (h : Hdr) (xd xa xb : XReg) (pg : PReg) (s : State) : Res :=
  indexOp h xd xa xb pg 4 (fun a b => BitVec.ofNat 64 (a.toNat * b.toNat / 2 ^ 64)) s

/-- `IDIV` (06 R115): the quotient of -2^63 by -1 wraps to -2^63. -/
def execIdiv (h : Hdr) (xd xa xb : XReg) (pg : PReg) (s : State) : Res :=
  indexOp h xd xa xb pg 24 (fun a b => if b = 0 then BitVec.allOnes 64 else BitVec.ofInt 64 (a.toInt.tdiv b.toInt)) s

/-- `IDIVU` (06 R115). -/
def execIdivu (h : Hdr) (xd xa xb : XReg) (pg : PReg) (s : State) : Res :=
  indexOp h xd xa xb pg 24 (fun a b => if b = 0 then BitVec.allOnes 64 else BitVec.ofNat 64 (a.toNat / b.toNat)) s

/-- `IREM` (06 R115). -/
def execIrem (h : Hdr) (xd xa xb : XReg) (pg : PReg) (s : State) : Res :=
  indexOp h xd xa xb pg 24 (fun a b => if b = 0 then a else BitVec.ofInt 64 (a.toInt.tmod b.toInt)) s

/-- `IREMU` (06 R115). -/
def execIremu (h : Hdr) (xd xa xb : XReg) (pg : PReg) (s : State) : Res :=
  indexOp h xd xa xb pg 24 (fun a b => if b = 0 then a else BitVec.ofNat 64 (a.toNat % b.toNat)) s

/-- `MIN` (06 Table 6-2). -/
def execMin (h : Hdr) (xd xa xb : XReg) (pg : PReg) (s : State) : Res :=
  indexOp h xd xa xb pg 1 (fun a b => if a.slt b then a else b) s

/-- `MAX` (06 Table 6-2). -/
def execMax (h : Hdr) (xd xa xb : XReg) (pg : PReg) (s : State) : Res :=
  indexOp h xd xa xb pg 1 (fun a b => if a.slt b then b else a) s

/-- `MINU` (06 Table 6-2). -/
def execMinu (h : Hdr) (xd xa xb : XReg) (pg : PReg) (s : State) : Res :=
  indexOp h xd xa xb pg 1 (fun a b => if a.ult b then a else b) s

/-- `MAXU` (06 Table 6-2). -/
def execMaxu (h : Hdr) (xd xa xb : XReg) (pg : PReg) (s : State) : Res :=
  indexOp h xd xa xb pg 1 (fun a b => if a.ult b then b else a) s

/-- `ANDN` (06 Table 6-2). -/
def execAndn (h : Hdr) (xd xa xb : XReg) (pg : PReg) (s : State) : Res := indexOp h xd xa xb pg 1 (fun a b => a &&& ~~~b) s

/-- `ORN` (06 Table 6-2). -/
def execOrn (h : Hdr) (xd xa xb : XReg) (pg : PReg) (s : State) : Res := indexOp h xd xa xb pg 1 (fun a b => a ||| ~~~b) s

/-- `XNOR` (06 Table 6-2). -/
def execXnor (h : Hdr) (xd xa xb : XReg) (pg : PReg) (s : State) : Res := indexOp h xd xa xb pg 1 (fun a b => ~~~(a ^^^ b)) s

/-- `ROL` (06 Table 6-2). -/
def execRol (h : Hdr) (xd xa xb : XReg) (pg : PReg) (s : State) : Res :=
  indexOp h xd xa xb pg 1 (fun a b => a.rotateLeft (shiftCount b)) s

/-- `ROR` (06 Table 6-2). -/
def execRor (h : Hdr) (xd xa xb : XReg) (pg : PReg) (s : State) : Res :=
  indexOp h xd xa xb pg 1 (fun a b => a.rotateRight (shiftCount b)) s

/-- An operation of one index register under a guard (06 R116). -/
def bitOp (h : Hdr) (xd xa : XReg) (pg : PReg) (f : Dword → Dword) (s : State) : Res :=
  guarded h 1 pg { reads := [s.xDest xa], writes := [s.xDest xd] } (fun s => .ok (s.laterX h xd 1 (f (s.xr xa)))) s

/-- How many bits of the list come before the first that is set (06 Table 6-2). -/
def leadingZeros (bits : List Bool) : Nat := (bits.takeWhile (fun b => !b)).length

/-- The bits of a value, the lowest first. -/
def bitList (a : Dword) : List Bool := (List.range 64).map a.getLsbD

/-- `CLZ` (06 Table 6-2). -/
def execClz (h : Hdr) (xd xa : XReg) (pg : PReg) (s : State) : Res :=
  bitOp h xd xa pg (fun a => BitVec.ofNat 64 (leadingZeros (bitList a).reverse)) s

/-- `CTZ` (06 Table 6-2). -/
def execCtz (h : Hdr) (xd xa : XReg) (pg : PReg) (s : State) : Res :=
  bitOp h xd xa pg (fun a => BitVec.ofNat 64 (leadingZeros (bitList a))) s

/-- `POPC` (06 Table 6-2). -/
def execPopc (h : Hdr) (xd xa : XReg) (pg : PReg) (s : State) : Res :=
  bitOp h xd xa pg (fun a => BitVec.ofNat 64 ((bitList a).filter id).length) s

/-- `BREV` (06 Table 6-2). -/
def execBrev (h : Hdr) (xd xa : XReg) (pg : PReg) (s : State) : Res := bitOp h xd xa pg (fun a => a.reverse) s

/-- The bytes of a value in the opposite order. -/
def byteSwap (a : Dword) : Dword := BitVec.ofNat 64 (leNat (leBytes 8 a.toNat).reverse)

/-- `BSWAP` (06 Table 6-2). -/
def execBswap (h : Hdr) (xd xa : XReg) (pg : PReg) (s : State) : Res := bitOp h xd xa pg byteSwap s

/-- `SETC` (06 R117). -/
def execSetc (h : Hdr) (xd xa xb : XReg) (pg : PReg) (cond : BitVec 3) (s : State) : Res :=
  indexOp h xd xa xb pg 1 (fun a b => if condHolds cond a b then 1 else 0) s

/-! ### Conditional branches -/

/-- A conditional branch reads its condition at issue and resolves three cycles later (06 R118). -/
def State.branch (s : State) (h : Hdr) (taken : Bool) (target : Dword) : State :=
  let b : Branch := { id := s.serial, at_ := s.cyc + 3, taken := taken, target := target, sq := h.sq }
  let s := { s.setMe { s.me with branches := s.me.branches ++ [b] } with serial := s.serial + 1 }
  s.postMine 3 (.branchResolve s.cur.unit b.id)

/-- `BR` (06 R118). -/
def execBr (h : Hdr) (p : PReg) (neg : BitVec 1) (off : BitVec 17) (s : State) : Res :=
  issue h 1 { reads := [s.pDest p] } (fun s => .ok (s.branch h (s.pr p != (neg == 1)) (s.wordTarget off))) s

/-- A branch on the signed comparison of an index register with zero (06 R118). -/
def zeroBranch (h : Hdr) (xa : XReg) (off : BitVec 14) (f : Int → Bool) (s : State) : Res :=
  issue h 1 { reads := [s.xDest xa] } (fun s => .ok (s.branch h (f (s.xr xa).toInt) (s.wordTarget off))) s

/-- `BEQZ` (06 R118). -/
def execBeqz (h : Hdr) (xa : XReg) (off : BitVec 14) (s : State) : Res := zeroBranch h xa off (fun v => v == 0) s
/-- `BNEZ` (06 R118). -/
def execBnez (h : Hdr) (xa : XReg) (off : BitVec 14) (s : State) : Res := zeroBranch h xa off (fun v => v != 0) s
/-- `BLTZ` (06 R118). -/
def execBltz (h : Hdr) (xa : XReg) (off : BitVec 14) (s : State) : Res := zeroBranch h xa off (fun v => decide (v < 0)) s
/-- `BGEZ` (06 R118). -/
def execBgez (h : Hdr) (xa : XReg) (off : BitVec 14) (s : State) : Res := zeroBranch h xa off (fun v => decide (0 ≤ v)) s

/-- What a killed `STEPGET` had taken goes back to the head of the mailbox (12 R266). -/
def Eff.givesBack (e : Eff) : List Post :=
  match e.op with
  | .takeStep p => [p]
  | _ => []

/-- Every squashable operation of a core's SCL that has not committed before the cycle `cyc`, on which a taken branch resolves, is killed:
operations in flight, requests, the orders of a `FENCE` or `DRAIN`, and a wait for room in the mailbox (06 R119). -/
def State.killSquashed (s : State) (unit : UnitId) (cyc : Nat) : State :=
  let dead (e : Eff) : Bool := e.by_ == ⟨unit, .scl⟩ && e.sq && decide (cyc ≤ e.commit)
  let deadReq (r : Req) : Bool := r.q == .scl && r.sq && (match r.op with | .load _ _ _ => true | _ => decide (cyc ≤ r.commit))
  let s := s.modCore unit (fun c => { c with
    reqs := c.reqs.filter (fun r => !deadReq r)
    mailbox := (s.effs.filter dead).flatMap Eff.givesBack ++ c.mailbox
    scl := { c.scl with
      marks := c.scl.marks.filter (fun m => !(m.sq && decide (cyc ≤ m.commit)))
      wait := (match c.scl.wait with | some w => if w.sq then none else some w | none => none) } })
  { s with effs := s.effs.filter (fun e => !dead e) }

/-- `BRANCH_RESOLVE` (06 R118 to R122): a taken branch redirects the fetch at the end of this cycle and kills every squashable
operation that has not committed. A branch that was killed does not resolve. In a halted node the kill acts on what is in flight, and
the branch itself waits for the resume, but for one that a single step of its sequencer meets (15 R330 to R332; log 28). -/
def execBranchResolve (unit : UnitId) (id : Nat) (s : State) : Res :=
  let c := s.core unit
  match c.scl.branches.find? (fun b => b.id == id) with
  | none => .next s
  | some b =>
    let halted : Bool := match c.node.bind s.node? with | some (n : Node) => n.state == NodeState.halted && n.stepping != some ⟨unit, .scl⟩ | none => false
    let s := if b.taken then s.killSquashed unit s.cyc else s
    if halted then
      .next (s.modNode (c.node.getD 0) (fun (n : Node) => { n with later := n.later ++ [{ due := .cyc s.cyc, ev := .branchResolve unit id, node := c.node }] }))
    else
      .next (s.modCore unit (fun c =>
        { c with scl := { c.scl with
          branches := c.scl.branches.filter (fun x => x.id != id && !(b.taken && x.sq))
          resolved := some s.cyc
          redirect := (if b.taken then some b.target else c.scl.redirect) } }))

/-- The branches of a core that its node's stop finds unresolved take their effect on what has issued: each that is taken kills, on the cycle
on which it would have resolved, what has not committed (06 R119, 15 R313). -/
def State.resolveRest (s : State) (unit : UnitId) : State :=
  (sortBy Branch.at_ (s.core unit).scl.branches).foldl (fun s b =>
    if b.taken && (s.core unit).scl.branches.contains b then
      (s.killSquashed unit b.at_).modCore unit (fun c => { c with scl := { c.scl with branches := c.scl.branches.filter (fun x => !x.sq) } })
    else s) s

/-! ### Register-indirect jumps -/

/-- `JX` (06 R123). -/
def execJx (h : Hdr) (xa : XReg) (s : State) : Res :=
  issue h 1 { reads := [s.xDest xa], serial := true } (fun s =>
    if (s.xr xa).toNat % 4 ≠ 0 then addrFault .alignment (s.xr xa) else .jump s (s.xr xa)) s

/-- `CALLX` (06 R123). -/
def execCallx (h : Hdr) (xa : XReg) (s : State) : Res :=
  issue h 1 { reads := [s.xDest xa], serial := true } (fun s =>
    if (s.xr xa).toNat % 4 ≠ 0 then addrFault .alignment (s.xr xa) else s.call (s.xr xa)) s

/-! ### Scalar loads and stores -/

/-- The access size in bytes of a size field (02 Table 2-3). -/
def sizeBytes (size : BitVec 2) : Nat := 2 ^ size.toNat

/-- The scalar port is taken on this cycle (07 Table 7-1). -/
def State.takeScalar (s : State) : State := s.modHere (fun c => { c with scalar := s.cyc + 1 })

/-- A scalar load at an effective address: the checks in their order, then the access (06 R124, R125, Tables 6-4, 6-5). -/
def State.scalarLoad (s : State) (h : Hdr) (xd : XReg) (a : Dword) (oc : BitVec 4) (ord : BitVec 3) (n : Nat) (sx : Bool) :
    Verdict :=
  if a.toNat % n ≠ 0 then addrFault .alignment a
  else match s.reach a n with
    | .bad c => addrFault c a
    | .far => if s.me.aligned then .fault { code := .timing } else .ok (s.request h (.load xd n sx) a oc ord)
    | .spad off =>
      let t := s.cyc + arrayOff (s.path off)
      let land := s.cyc + scalarLand (s.path off)
      if (s.path off == 0 && s.claimed off n) || !s.inOrder oc false t then s.busy (s.heldTill oc false)
      else .ok (s.access h a oc ord t land (s.fixedLoad a) (.load (span off n) [] (.x xd sx) land t)).takeScalar

/-- A scalar store at an effective address (06 R124, R125, R127). -/
def State.scalarStore (s : State) (h : Hdr) (v : Dword) (a : Dword) (oc : BitVec 4) (ord : BitVec 3) (n : Nat) : Verdict :=
  let bs := leBytes n v.toNat
  if a.toNat % n ≠ 0 then addrFault .alignment a
  else match s.reach a n with
    | .bad c => addrFault c a
    | .far => if s.me.aligned then .fault { code := .timing } else .ok (s.request h (.store bs) a oc ord)
    | .spad off =>
      let t := s.cyc + arrayOff (s.path off)
      if (s.path off == 0 && s.claimed off n) || !s.inOrder oc (isAcq ord) t then s.busy (s.heldTill oc (isAcq ord))
      else .ok (s.access h a oc ord t s.commitCycle true (.store (s.portRank off .scalar) (cellsAt off bs) t)).takeScalar

/-- `SLD` without a displacement (06 R124 to R126). -/
def execSld (h : Hdr) (xd xa : XReg) (oc : BitVec 4) (ord : BitVec 3) (size : BitVec 2) (sx : BitVec 1) (s : State) : Res :=
  issue h 1 { reads := [s.xDest xa], writes := [s.xDest xd] }
    (fun s => s.scalarLoad h xd (s.xr xa) oc ord (sizeBytes size) (sx == 1)) s

/-- `SLD` with a displacement (06 R124 to R126). -/
def execSldDisp (h : Hdr) (xd xa : XReg) (oc : BitVec 4) (ord : BitVec 3) (size : BitVec 2) (sx : BitVec 1) (disp : BitVec 32)
    (s : State) : Res :=
  issue h 2 { reads := [s.xDest xa], writes := [s.xDest xd] }
    (fun s => s.scalarLoad h xd (s.xr xa + sx64 disp) oc ord (sizeBytes size) (sx == 1)) s

/-- `SST` without a displacement (06 R124 to R127). -/
def execSst (h : Hdr) (xd xa : XReg) (oc : BitVec 4) (ord : BitVec 3) (size : BitVec 2) (_sx : BitVec 1) (s : State) : Res :=
  issue h 1 { reads := [s.xDest xa, s.xDest xd] }
    (fun s => s.scalarStore h (s.xr xd) (s.xr xa) oc ord (sizeBytes size)) s

/-- `SST` with a displacement (06 R124 to R127). -/
def execSstDisp (h : Hdr) (xd xa : XReg) (oc : BitVec 4) (ord : BitVec 3) (size : BitVec 2) (_sx : BitVec 1) (disp : BitVec 32)
    (s : State) : Res :=
  issue h 2 { reads := [s.xDest xa, s.xDest xd] }
    (fun s => s.scalarStore h (s.xr xd) (s.xr xa + sx64 disp) oc ord (sizeBytes size)) s

end Sys2Proof.Machine
end

