-- ==== Sys2Proof/Machine/Scratch.lean ====
section
/-! DEFINITION. Scratchpad access: the line path, the banked path, slots, the scale queue and the ring (07). -/

namespace Sys2Proof.Machine
open Host

/-! ### The line path (07 R129, R138, R141) -/

/-- Beats of a line access of `n` bytes (07 R129). -/
def beats (n : Nat) : Nat := (n + 1023) / 1024

/-- A line load: the checks of Table 7-6 in their order, with `wait` for the conditions of a form of its own, then the access
(07 R129, R132, R138). -/
def State.lineLoad (s : State) (h : Hdr) (a : Dword) (oc : BitVec 4) (ord : BitVec 3) (n : Nat) (wait : Option Nat)
    (dest : LoadTo) : Verdict :=
  if a.toNat % 256 ≠ 0 then addrFault .alignment a
  else match s.reach a n with
    | .bad c => addrFault c a
    | .far => addrFault .protection a
    | .spad off =>
      let t := s.cyc + arrayOff (s.path off)
      let land := s.cyc + lineLand (s.path off) + beats n
      if s.cyc < s.here.lineRead then s.busy s.here.lineRead
      else match wait with
        | some till => s.busy till
        | none =>
          if (s.path off == 0 && s.claimed off n) || !s.inOrder oc false t then s.busy (s.heldTill oc false)
          else
            let s := s.access h a oc ord t land (s.fixedLoad a) (.load (span off n) [] dest land t)
            .ok (s.modHere (fun c => { c with lineRead := s.cyc + beats n }))

/-- A line store of one tile (07 R141). -/
def State.lineStore (s : State) (h : Hdr) (v : Tile) (a : Dword) (oc : BitVec 4) (ord : BitVec 3) : Verdict :=
  if a.toNat % 256 ≠ 0 then addrFault .alignment a
  else match s.reach a 1024 with
    | .bad c => addrFault c a
    | .far => addrFault .protection a
    | .spad off =>
      let t := s.cyc + arrayOff (s.path off)
      if s.cyc < s.here.lineWrite then s.busy s.here.lineWrite
      else if (s.path off == 0 && s.claimed off 1024) || !s.inOrder oc (isAcq ord) t then s.busy (s.heldTill oc (isAcq ord))
      else
        let s := s.access h a oc ord t s.commitCycle true (.store (s.portRank off .line) (cellsAt off (wordBytes v)) t)
        .ok (s.modHere (fun c => { c with lineWrite := s.cyc + 1 }))

/-- `LD` without a displacement (07 R141). -/
def execLd (h : Hdr) (vt : TileCode) (xa : XReg) (oc : BitVec 4) (ord : BitVec 3) (s : State) : Res :=
  issue h 1 { reads := [s.xDest xa], writes := s.tileDest vt }
    (fun s => s.lineLoad h (s.xr xa) oc ord 1024 none (.tile vt.toNat)) s

/-- `LD` with a displacement (07 R141). -/
def execLdDisp (h : Hdr) (vt : TileCode) (xa : XReg) (oc : BitVec 4) (ord : BitVec 3) (disp : BitVec 32) (s : State) : Res :=
  issue h 2 { reads := [s.xDest xa], writes := s.tileDest vt }
    (fun s => s.lineLoad h (s.xr xa + sx64 disp) oc ord 1024 none (.tile vt.toNat)) s

/-- `ST` without a displacement (07 R141). -/
def execSt (h : Hdr) (vt : TileCode) (xa : XReg) (oc : BitVec 4) (ord : BitVec 3) (s : State) : Res :=
  issue h 1 { reads := s.xDest xa :: s.tileDest vt } (fun s => s.lineStore h (s.tile vt) (s.xr xa) oc ord) s

/-- `ST` with a displacement (07 R141). -/
def execStDisp (h : Hdr) (vt : TileCode) (xa : XReg) (oc : BitVec 4) (ord : BitVec 3) (disp : BitVec 32) (s : State) : Res :=
  issue h 2 { reads := s.xDest xa :: s.tileDest vt }
    (fun s => s.lineStore h (s.tile vt) (s.xr xa + sx64 disp) oc ord) s

/-! ### The banked path (07 R130, R131, R142) -/

/-- The byte addresses of the active elements of `w` words each, one element's offset in every w-th lane (07 R142). -/
def elementAddrs (base : Dword) (vi : Tile) (w n : Nat) : List Dword :=
  (List.range (n / w)).map (fun j => base + zx64 (laneAt vi (w * j)))

/-- The passes of the elements of one block: the most distinct words in one bank (07 R130). -/
def blockPasses (words : List Nat) : Nat :=
  let d := words.eraseDups
  (List.range 32).foldl (fun m k => max m (d.filter (fun x => x % 32 == k)).length) 0

/-- The passes of a banked access (07 R130): blocks of 32 / w elements. -/
def passesOf (w : Nat) (addrs : List Dword) : Nat :=
  let words (a : Dword) : List Nat := (List.range w).map (fun i => (a.toNat + 4 * i) / 4)
  let per := 32 / w
  let blocks := (List.range 8).map (fun b => ((addrs.drop (b * per)).take per).flatMap words)
  max 1 ((blocks.map blockPasses).foldl (· + ·) 0)

/-- The core region that an address of windows 0x00 and 0x01 lies in: its window, and the package offset at which it begins (07
R138). -/
def State.region (s : State) (a : Dword) : Option (Nat × Nat) :=
  match winOf a with
  | 0 => if isShep s.cur.unit || offOf a ≥ spadSize then none else some (0, s.cur.unit.val * spadSize)
  | 1 => if offOf a ≥ 2 ^ 34 then none else some (1, offOf a / spadSize * spadSize)
  | _ => none

/-- The region that the elements of a banked access must lie in: the base's, else that of the first element that has one (07 R138,
R142; log 35). -/
def State.bankedRegion (s : State) (base : Dword) (addrs : List Dword) : Option (Nat × Nat) :=
  match s.region base with
  | some r => some r
  | none => addrs.findSome? s.region

/-- An element raises WINDOW: its window is invalid, or a byte of it lies outside the region (07 Table 7-6 order 2, R142). An element in
windows 0x02, 0x10 and 0x20 is left to order 3, but for a base that has a region of its own. -/
def State.elementBad (s : State) (base : Dword) (region : Option (Nat × Nat)) (n : Nat) (a : Dword) : Bool :=
  match region with
  | some (w, r) =>
    if winOf a = w then
      (if w = 0 then decide (spadSize < offOf a + n) else !(decide (r ≤ offOf a) && decide (offOf a + n ≤ r + spadSize)))
    else (s.region base).isSome || !(winOf a = 2 || winOf a = 0x10 || winOf a = 0x20)
  | none => !(winOf a = 2 || winOf a = 0x10 || winOf a = 0x20)

/-- The checks of a banked form that depend on addresses alone, orders 1 to 4 of Table 7-6, on every active element (07 R138, R142). -/
def State.bankedCheck (s : State) (base : Dword) (addrs : List Dword) (n : Nat) : Option (Code × Dword) :=
  let region := s.bankedRegion base addrs
  match addrs.find? (fun a => a.toNat % n != 0), addrs.find? (s.elementBad base region n) with
  | some a, _ => some (.alignment, a)
  | none, some a => some (.window, a)
  | none, none =>
    (addrs.find? (fun a => winOf a != 0 && !(winOf a == 1 && s.granted (offOf a / spadSize)))).map (fun a => (.protection, a))

/-- The package offset of an element inside the base's region. -/
def State.elementOff (s : State) (a : Dword) : Nat := if winOf a == 0 then s.cur.unit.val * spadSize + offOf a else offOf a

/-- The package offset that gives a banked access its path: that of its first element; without an active element the access stays on
the own core's path (07 R142; log 35). -/
def State.bankedOff (s : State) (addrs : List Dword) : Nat :=
  match addrs with
  | a :: _ => s.elementOff a
  | [] => s.cur.unit.val * spadSize

/-- A budget of 0 is illegal in aligned mode (02 Table 2-2, R39). -/
def State.zeroBudget (s : State) (budget : BitVec 9) : Bool := s.me.aligned && budget == 0

/-- A banked access: checks, budget and port, then `act` with the path, the pass or budget count and the array cycle
(07 R129 to R131, R138). -/
def State.banked (s : State) (base : Dword) (addrs : List Dword) (n : Nat) (budget : BitVec 9) (oc : BitVec 4) (rel : Bool)
    (act : State → Nat → Nat → Nat → Verdict) : Verdict :=
  match s.bankedCheck base addrs n with
  | some (c, a) => addrFault c a
  | none =>
    let off := s.bankedOff addrs
    let p := passesOf (n / 4) addrs
    let t := s.cyc + arrayOff (s.path off)
    if s.cyc < s.here.banked then s.busy s.here.banked
    else if s.me.aligned && budget.toNat < p then .fault { code := .timing }
    else if (s.path off == 0 && addrs.any (fun a => s.claimed (s.elementOff a) n)) || !s.inOrder oc rel t then
      s.busy (s.heldTill oc rel)
    else
      let k := if s.me.aligned then budget.toNat else p
      act (s.modHere (fun c => { c with banked := s.cyc + k })) off k t

/-- Bytes of an element of a size field (07 R130). -/
def elementBytes (size : BitVec 2) : Nat := 4 * 2 ^ size.toNat

/-- The lanes of an offset tile that are not read: those that no element of `w` words begins (07 R142). -/
def idleOffsets (v : TileCode) (w : Nat) : List (Nat × Nat) :=
  ((List.range 256).filter (fun j => j % w != 0)).map (fun j => (v.toNat, j))

/-- `LDB` (07 R142). -/
def execLdb (h : Hdr) (vt vi : TileCode) (xa : XReg) (oc : BitVec 4) (budget : BitVec 9) (size : BitVec 2) (ord : BitVec 3)
    (s : State) : Res :=
  let n := elementBytes size
  issue h 2
    { reads := s.xDest xa :: s.tileDest vi, writes := s.tileDest vt, illegal := s.zeroBudget budget
      lanes := n / 4 * (lanesOf s.here.shp / (n / 4)), skip := idleOffsets vi (n / 4) } (fun s =>
    let addrs := elementAddrs (s.xr xa) (s.tile vi) (n / 4) (lanesOf s.here.shp)
    s.banked (s.xr xa) addrs n budget oc false (fun s off k t =>
      let land := s.cyc + bankLand (s.path off) + k
      if addrs.isEmpty then .ok (s.later h land true true (.load [] [] (.lanes vt.toNat) land t))
      else .ok (s.access h (addrs.headD 0) oc ord t land (s.fixedLoad (addrs.headD 0))
        (.load (addrs.flatMap (fun a => span (s.elementOff a) n)) [] (.lanes vt.toNat) land t) n))) s

/-- `STB` (07 R142): the cells of the element of highest index come last and stand. -/
def execStb (h : Hdr) (vt vi : TileCode) (xa : XReg) (oc : BitVec 4) (budget : BitVec 9) (size : BitVec 2) (ord : BitVec 3)
    (s : State) : Res :=
  let n := elementBytes size
  issue h 2
    { reads := s.xDest xa :: (s.tileDest vi ++ s.tileDest vt), illegal := s.zeroBudget budget
      lanes := n / 4 * (lanesOf s.here.shp / (n / 4)), skip := if vt = vi then [] else idleOffsets vi (n / 4) } (fun s =>
    let addrs := elementAddrs (s.xr xa) (s.tile vi) (n / 4) (lanesOf s.here.shp)
    let data := wordBytes (s.tile vt)
    s.banked (s.xr xa) addrs n budget oc (isAcq ord) (fun s off _ t =>
      let cells := (addrs.zip (List.range addrs.length)).flatMap
        (fun p => cellsAt (s.elementOff p.1) ((data.drop (n * p.2)).take n))
      .ok (s.access h (addrs.headD 0) oc ord t s.commitCycle true (.store (s.portRank off .banked) cells t)))) s

/-! ### Slots and the scale queue (07 R144 to R147) -/

/-- In free mode a load of a slot waits for the last read of it by an issued `MMA` or `MMAS` (07 R145). -/
def State.slotWait (s : State) (plane : Bool) (n : Nat) : Option Nat :=
  if s.me.aligned then none
  else
    let hits := s.here.engineReads.filter (fun e => decide (s.cyc < e.cyc) && (if plane then e.plane == n else e.rows.contains n))
    if hits.isEmpty then none else some (hits.foldl (fun m e => max m e.cyc) 0)

/-- The load of a plane slot (07 R144). -/
def State.planeLoad (s : State) (h : Hdr) (slot : BitVec 3) (a : Dword) (oc planes : BitVec 4) : Verdict :=
  s.lineLoad h a oc 0 (768 * (planes.toNat + 1)) (s.slotWait true slot.toNat) (.plane slot.toNat (planes.toNat + 1))

/-- The load of a row slot (07 R144). -/
def State.rowLoad (s : State) (h : Hdr) (slot : BitVec 3) (a : Dword) (oc : BitVec 4) : Verdict :=
  s.lineLoad h a oc 0 4096 (s.slotWait false slot.toNat) (.row slot.toNat)

/-- `PLD` without a displacement (07 R144). -/
def execPld (h : Hdr) (slot : BitVec 3) (xa : XReg) (oc planes : BitVec 4) (s : State) : Res :=
  issue h 1 { reads := [s.xDest xa], writes := [.plane s.cur.unit slot.toNat] }
    (fun s => s.planeLoad h slot (s.xr xa) oc planes) s

/-- `PLD` with a displacement (07 R144). -/
def execPldDisp (h : Hdr) (slot : BitVec 3) (xa : XReg) (oc planes : BitVec 4) (disp : BitVec 32) (s : State) : Res :=
  issue h 2 { reads := [s.xDest xa], writes := [.plane s.cur.unit slot.toNat] }
    (fun s => s.planeLoad h slot (s.xr xa + sx64 disp) oc planes) s

/-- `RLD` without a displacement (07 R144). -/
def execRld (h : Hdr) (slot : BitVec 3) (xa : XReg) (oc : BitVec 4) (s : State) : Res :=
  issue h 1 { reads := [s.xDest xa], writes := [.row s.cur.unit slot.toNat] }
    (fun s => s.rowLoad h slot (s.xr xa) oc) s

/-- `RLD` with a displacement (07 R144). -/
def execRldDisp (h : Hdr) (slot : BitVec 3) (xa : XReg) (oc : BitVec 4) (disp : BitVec 32) (s : State) : Res :=
  issue h 2 { reads := [s.xDest xa], writes := [.row s.cur.unit slot.toNat] }
    (fun s => s.rowLoad h slot (s.xr xa + sx64 disp) oc) s

/-- The load of a scale entry: it is appended at issue, outstanding until it lands (07 R146, R147). -/
def State.scaleLoad (s : State) (h : Hdr) (a : Dword) (oc : BitVec 4) : Verdict :=
  match s.lineLoad h a oc 0 512 (if s.here.sq.length ≥ 64 then some (s.cyc + 1) else none) (.scale s.serial) with
  | .ok s' => .ok { s'.modHere (fun c => { c with sq := c.sq ++ [⟨s.serial, none⟩] }) with serial := s.serial + 1 }
  | v => v

/-- An `SQLD` that finds 64 entries in free mode waits for the pop that the core's CMP may issue on this very cycle: it takes its turn
after it (07 R147, 10 R192). -/
def State.awaitsPop (s : State) : Bool := !s.me.aligned && decide (64 ≤ s.here.sq.length) && s.turn.contains ⟨s.cur.unit, .cmp⟩

/-- `SQLD` without a displacement (07 R146, R147). -/
def execSqld (h : Hdr) (xa : XReg) (oc : BitVec 4) (s : State) : Res :=
  if s.awaitsPop then .next { s with turn := s.turn ++ [s.cur] }
  else issue h 1 { reads := [s.xDest xa] } (fun s => s.scaleLoad h (s.xr xa) oc) s

/-- `SQLD` with a displacement (07 R146, R147). -/
def execSqldDisp (h : Hdr) (xa : XReg) (oc : BitVec 4) (disp : BitVec 32) (s : State) : Res :=
  if s.awaitsPop then .next { s with turn := s.turn ++ [s.cur] }
  else issue h 2 { reads := [s.xDest xa] } (fun s => s.scaleLoad h (s.xr xa + sx64 disp) oc) s

/-! ### The ring (07 R148, R149) -/

/-- The ring of a core: the compute cores of its die-level fold, in ascending order (07 R148). -/
def State.ringOf (s : State) (u : UnitId) : List UnitId :=
  match (s.core u).node.bind s.node? with
  | some n => (s.foldCores n u true).filter (fun c => !isShep c)
  | none => [u]

/-- The neighbour on the ring in a direction; `prev` for `.PREV` (07 R148). -/
def neighbour (ring : List UnitId) (u : UnitId) (prev : Bool) : UnitId :=
  let i := ring.idxOf u
  let n := ring.length
  ring.getD (if prev then (i + n - 1) % n else (i + 1) % n) u

/-- The fault of a ring address (07 R148). -/
def ringAddr (a : Dword) : Option Code :=
  if a.toNat % 256 ≠ 0 then some .alignment
  else if winOf a ≠ 0 || offOf a + 1024 > spadSize then some .window else none

/-- `RROT` (07 R148, R149). -/
def execRrot (h : Hdr) (xa xb : XReg) (dir : BitVec 1) (oc : BitVec 4) (s : State) : Res :=
  issue h 1 { reads := [s.xDest xa, s.xDest xb] } (fun s =>
    let a := s.xr xa
    let b := s.xr xb
    match ringAddr a, ringAddr b with
    | some .alignment, _ => addrFault .alignment a
    | _, some .alignment => addrFault .alignment b
    | some c, _ => addrFault c a
    | none, some c => addrFault c b
    | none, none =>
      let off := s.cur.unit.val * spadSize + offOf a
      let t := s.cyc + 4
      if !s.me.aligned || s.me.lvl ≠ 1 || s.cyc < s.here.lineRead || s.claimed off 1024 || !s.inOrder oc false t then
        .fault { code := .timing }
      else
        let ring := s.ringOf s.cur.unit
        let dest := neighbour ring s.cur.unit (dir == 1)
        let s := s.access h a oc 0 t t true (.load (span off 1024) [] (.ring (dest.val * spadSize + offOf b)) (s.cyc + 20) t)
        let s := s.later h (s.cyc + 2) false true (.ringCheck (dir == 1) ring)
        .ok (s.modHere (fun c => { c with lineRead := s.cyc + 1 }))) s

end Sys2Proof.Machine
end

