-- ==== Sys2Proof/Machine/Copy.lean ====
section
/-! DEFINITION. Copies: operands, checks, issue, lines read and written, completion; tags and timeline counters (11 R205 to R212,
R226 to R229). -/

namespace Sys2Proof.Machine
open Host

/-! ### Rows and checks (11 R226 to R228, Table 11-11) -/

/-- The rows of a strided copy (11 R227). -/
def stridedRows (dst : Dword) (src : Option Dword) (len : Nat) (n : Nat) (ss ds : Dword) : List CopyRow :=
  (List.range n).map (fun r =>
    { src := src.map (fun a => a + BitVec.ofNat 64 r * ss), dst := dst + BitVec.ofNat 64 r * ds, len := len })

/-- The fault of a row, if it has one: both ends in one window, and the row inside what the core may reach (11 Table 11-11). -/
def State.rowFault (s : State) (a : Dword) (len : Nat) : Option Code :=
  if len = 0 then none
  else if winOf a ≠ winOf (a + BitVec.ofNat 64 (len - 1)) || len > 2 ^ 56 then some .window
  else match s.reach a len with
    | .bad c => some c
    | _ => none

/-- The first fault of a list of rows: WINDOW before PROTECTION (11 Table 11-11, orders 2 and 3), with the first address of the first row that has
it (DEDUCED, log 36). -/
def State.rowsFault (s : State) (rows : List (Dword × Nat)) : Option (Code × Dword) :=
  match rows.find? (fun r => s.rowFault r.1 r.2 == some .window) with
  | some r => some (.window, r.1)
  | none =>
    match rows.find? (fun r => s.rowFault r.1 r.2 == some .protection) with
    | some r => some (.protection, r.1)
    | none => none

/-- The location that a byte address names, as far as this core can tell before translation: a package offset or the address
itself (11 R209). -/
def State.location (s : State) (a : Dword) : Nat :=
  match s.reach a 1 with
  | .spad off => off
  | _ => a.toNat

/-- The location lies in a range of a list of rows. -/
def State.inRows (s : State) (rows : List (Dword × Nat)) (loc : Nat) : Bool :=
  rows.any (fun r => r.2 ≠ 0 && s.location r.1 ≤ loc && loc < s.location r.1 + r.2)

/-- The claimed range of a destination row: whole lines of 64 bytes of a scratchpad (07 R139). -/
def State.claimOf (s : State) (a : Dword) (len : Nat) : Option (Nat × Nat) :=
  if len = 0 then none
  else match s.reach a len with
    | .spad off => some (off / 64 * 64, (off + len + 63) / 64 * 64)
    | _ => none

/-- The addresses of a range, in its lines of 64 bytes (11 R209). -/
def linesOf (a : Dword) (len : Nat) : List (List Dword) :=
  let first := a.toNat % 64
  let n := (first + len + 63) / 64
  (List.range n).map (fun k =>
    ((List.range 64).filter (fun i => first ≤ 64 * k + i && 64 * k + i < first + len)).map
      (fun i => a + BitVec.ofNat 64 (64 * k + i - first)))

/-- The copy queue is full; an entry freed on this cycle is taken again on the next one at the earliest (11 R205). -/
def Core.queueFull (c : Core) (cyc : Nat) : Bool := c.copies.length + (if c.freedAt = cyc then c.freed else 0) ≥ 32

/-- The byte of a pattern at offset j (11 R227). -/
def patternByte (pattern : Dword) (j : Nat) : Byte := pattern.extractLsb' (8 * (j % 8)) 8

/-- The destination cells of a copy whose bytes come one by one from its source or from its pattern. -/
def rowCells (kind : CopyKind) (r : CopyRow) : List (Dword × Option Dword × Byte × Nat) :=
  (List.range r.len).map (fun j =>
    (r.dst + BitVec.ofNat 64 j, r.src.map (fun a => a + BitVec.ofNat 64 j),
      (match kind with | .fill p => patternByte p j | _ => 0), 0))

/-- Neighbouring pieces that name one line are one piece. -/
def joinRuns {α : Type} : List (Nat × List α) → List (Nat × List α)
  | [] => []
  | (k, l) :: t =>
    match joinRuns t with
    | [] => [(k, l)]
    | (j, m) :: r => if k = j then (k, l ++ m) :: r else (k, l) :: (j, m) :: r

/-- Pieces that name one line are one line (11 R209). -/
def byLine {α : Type} (pieces : List (Nat × List α)) : List (List α) :=
  let rs := joinRuns pieces
  ((rs.map (·.1)).eraseDups).map (fun l => (rs.filter (fun p => p.1 == l)).flatMap (·.2))

/-- The source bytes of a copy by the lines of 64 bytes that they lie in, each read at one instant: rows that share a line, through
whatever windows, read it together (11 R209). -/
def State.sourceLines (s : State) (srcs : List (Dword × Nat)) : List (List Dword) :=
  byLine ((srcs.flatMap (fun r => linesOf r.1 r.2)).map (fun l => (s.location (l.headD 0) / 64, l)))

/-- The destination cells of a copy by the lines that they lie in, each written at one instant (11 R209). -/
def State.cellLines (s : State) (cells : List (Dword × Option Dword × Byte × Nat)) : List (List (Dword × Option Dword × Byte × Nat)) :=
  byLine (cells.map (fun c => (s.location c.1 / 64, [c])))

/-- Marks the cells whose location is undefined: overlapped by the source, or named by more than one destination row
(11 R209, log 7). -/
def State.markOverlaps (s : State) (srcs dsts : List (Dword × Nat)) (seed : Nat)
    (cells : List (Dword × Option Dword × Byte × Nat)) : List (Dword × Option Dword × Byte × Nat) :=
  cells.map (fun c =>
    let loc := s.location c.1
    if s.inRows srcs loc || 1 < (dsts.filter (fun r => s.inRows [r] loc)).length then (c.1, c.2.1, c.2.2.1, seed) else c)

/-- A copy that has passed its checks: entry, ticket, tag count, claims, and the reads and writes of its lines at times that are
not fixed (11 R206). -/
def State.startCopy (s : State) (h : Hdr) (tag : BitVec 6) (ctx : BitVec 2) (oc : BitVec 4) (ord : BitVec 3) (kind : CopyKind)
    (rows : List CopyRow) (srcs dsts : List (Dword × Nat)) (cells : List (Dword × Option Dword × Byte × Nat)) : State :=
  let c := s.here
  let serial := s.serial
  let t := tag.toFin
  let copy : Copy :=
    { serial := serial, iss := s.cyc, tag := tag, ctx := ctx, ticket := c.ticket.get ctx.toFin + 1, oc := oc, ord := ord, kind := kind
      rows := rows, claims := dsts.filterMap (fun r => s.claimOf r.1 r.2), buf := []
      unread := (s.sourceLines srcs).length, unwritten := (s.cellLines cells).length, node := s.myNode }
  let seed := s.free + 1
  let s := s.nextFree
  let reads := s.sourceLines srcs
  let writes := s.cellLines (s.markOverlaps srcs dsts seed cells)
  let s := s.setCore s.cur.unit { c with
    copies := c.copies ++ [copy]
    ticket := c.ticket.set ctx.toNat copy.ticket ctx.isLt
    tagPending := c.tagPending.set tag.toNat (c.tagPending.get t + 1) tag.isLt
    tags := (if c.tagsAt = s.cyc && c.tagsSet.getLsbD tag.toNat then c.tags &&& ~~~BitVec.ofNat 64 (2 ^ tag.toNat) else c.tags) }
  let s := { s with serial := serial + 1 }
  let s := s.later h (s.cyc + 1) false false (.clearTags s.cur.unit (BitVec.ofNat 64 (2 ^ tag.toNat)))
  let s := reads.foldl (fun s l => (s.later h (s.cyc + 1 + Config.delay s.free) false false (.copyRead serial l false)).nextFree) s
  let s := writes.foldl (fun s l => (s.later h (s.cyc + 2 + Config.delay s.free) false false (.copyWrite serial l false)).nextFree) s
  if writes.isEmpty then (s.postMine (1 + Config.delay s.free) (.copyComplete s.cur.unit serial)).nextFree else s

/-- The common body of the copy forms: the checks of Table 11-11 in their order, then the copy (11 R227); in aligned mode one that
an earlier access would hold raises TIMING (11 R222, log 36). -/
def State.copyForm (s : State) (h : Hdr) (tag : BitVec 6) (ctx : BitVec 2) (oc : BitVec 4) (ord : BitVec 3) (kind : CopyKind)
    (rows : List CopyRow) (srcs dsts : List (Dword × Nat)) (cells : List (Dword × Option Dword × Byte × Nat)) : Verdict :=
  match s.rowsFault (srcs ++ dsts) with
  | some (c, a) => addrFault c a
  | none =>
    if s.here.queueFull s.cyc then s.busy (s.cyc + 1)
    else if s.me.aligned && s.orderHeld (s.newAccess oc (isAcq ord)) then .fault { code := .timing }
    else .ok (s.startCopy h tag ctx oc ord kind rows srcs dsts cells)

/-- A copy of rows. -/
def State.rowCopy (s : State) (h : Hdr) (tag : BitVec 6) (ctx : BitVec 2) (oc : BitVec 4) (ord : BitVec 3) (kind : CopyKind)
    (rows : List CopyRow) : Verdict :=
  s.copyForm h tag ctx oc ord kind rows
    (rows.filterMap (fun r => r.src.map (fun a => (a, r.len)))) (rows.map (fun r => (r.dst, r.len)))
    (rows.flatMap (rowCells kind))

/-- `CPY` (11 R226, R227). -/
def execCpy (h : Hdr) (xd xa xb : XReg) (tag : BitVec 6) (ctx : BitVec 2) (oc : BitVec 4) (ord : BitVec 3) (s : State) : Res :=
  issue h 2 { reads := [s.xDest xd, s.xDest xa, s.xDest xb] } (fun s =>
    s.rowCopy h tag ctx oc ord .move (stridedRows (s.xr xd) (some (s.xr xa)) (s.xr xb).toNat 1 0 0)) s

/-- `CPY2` (11 R226, R227). -/
def execCpy2 (h : Hdr) (xd xa xb : XReg) (tag : BitVec 6) (ctx : BitVec 2) (oc : BitVec 4) (ord : BitVec 3) (xr xs xt : XReg)
    (s : State) : Res :=
  issue h 2 { reads := [s.xDest xd, s.xDest xa, s.xDest xb, s.xDest xr, s.xDest xs, s.xDest xt] } (fun s =>
    s.rowCopy h tag ctx oc ord .move
      (stridedRows (s.xr xd) (some (s.xr xa)) (s.xr xb).toNat (s.xr xr).toNat (s.xr xs) (s.xr xt))) s

/-- `CFILL` (11 R226, R227). -/
def execCfill (h : Hdr) (xd xa xb : XReg) (tag : BitVec 6) (ctx : BitVec 2) (oc : BitVec 4) (ord : BitVec 3) (s : State) : Res :=
  issue h 2 { reads := [s.xDest xd, s.xDest xa, s.xDest xb] } (fun s =>
    s.rowCopy h tag ctx oc ord (.fill (s.xr xb)) (stridedRows (s.xr xd) none (s.xr xa).toNat 1 0 0)) s

/-! ### Plane transposition (11 R228) -/

/-- The sign-magnitude encoding of a two's complement element of width w (11 R228, 04 R66). -/
def toSignMag (w e : Nat) : Nat :=
  if e < 2 ^ (w - 1) then e
  else
    let a := 2 ^ w - e
    2 ^ (w - 1) + (if a = 2 ^ (w - 1) then a - 1 else a)

/-- The number of images across, and down, of an N by K matrix. -/
def imageCount (n k : Nat) : Nat := ((n + 191) / 192) * (k / 32)

/-- The byte at offset `o` of image `j`: eight elements' bit w - 1 - r, from the source rows as read (11 R228). -/
def imageByte (fmt : BitVec 4) (n k : Nat) (src stride : Dword) (read : Nat → Byte) (j o : Nat) : Byte :=
  let w := formatWidth fmt
  let kb := k / 32
  let g := j / kb
  let b := j % kb
  let r := o / 768
  let tile := o % 768 / 128
  let kk := o % 128 / 4
  let at8 := o % 4
  BitVec.ofNat 8 ((List.range 8).foldl (fun v i =>
    let m := 192 * g + 32 * tile + 8 * at8 + i
    if n ≤ m then v
    else
      let row := src + BitVec.ofNat 64 (32 * b + kk) * stride
      let byte (q : Nat) : Nat := (read (row + BitVec.ofNat 64 q).toNat).toNat
      let e :=
        if w = 4 then byte (m / 2) / 2 ^ (4 * (m % 2)) % 16
        else if w = 8 then byte m
        else byte (2 * m) + 256 * byte (2 * m + 1)
      let e := if matrixInt fmt then toSignMag w e else e
      if e / 2 ^ (w - 1 - r) % 2 = 1 then v + 2 ^ i else v) 0)

/-- `CPT` (11 R226 to R228). A fault of alignment is recorded with xd (DEDUCED, log 36). -/
def execCpt (h : Hdr) (xd xa xb : XReg) (tag : BitVec 6) (ctx : BitVec 2) (oc : BitVec 4) (ord : BitVec 3) (xr xs xt : XReg)
    (fmt : BitVec 4) (s : State) : Res :=
  issue h 2 { reads := [s.xDest xd, s.xDest xa, s.xDest xb, s.xDest xr, s.xDest xs, s.xDest xt] } (fun s =>
    let d := s.xr xd
    let n := (s.xr xb).toNat
    let k := (s.xr xr).toNat
    let size := 768 * formatWidth fmt
    if d.toNat % 256 ≠ 0 || (s.xr xt).toNat % 256 ≠ 0 || n % 32 ≠ 0 || k % 32 ≠ 0 then addrFault .alignment d
    else
      let count := imageCount n k
      let srcs := (List.range k).map (fun r => (s.xr xa + BitVec.ofNat 64 r * s.xr xs, n * formatWidth fmt / 8))
      let dsts := (List.range count).map (fun j => (d + BitVec.ofNat 64 j * s.xr xt, size))
      let rows := dsts.map (fun r => { src := none, dst := r.1, len := r.2 : CopyRow })
      let kind := CopyKind.planes fmt n k (s.xr xa) (s.xr xs)
      let cells := rows.flatMap (rowCells .move)
      s.copyForm h tag ctx oc ord kind rows srcs dsts cells) s

/-! ### Lines acting and completion -/

/-- The bytes a read by a copy or by a request finds, or its fault: `info` 1 marks an error that stops the node (11 R210,
15 R326). -/
inductive Found
  | bytes (bs : List Byte)
  | bad (c : Code) (info : Nat)
  deriving DecidableEq, Repr

/-- Whether a page that a node reads is its own shadow or marked CLEAN (15 R326). -/
def State.requeues (s : State) (n : Node) (off : Nat) : Bool :=
  (s.shadowAt n off).isSome || (match s.walk n.pasid off with | some l => pteC l.e | none => false)

/-- Reads `len` bytes for a node through any window, not crossing a page (11 R209, 16 R340, 15 R326). -/
def State.readNode (s : State) (n : Node) (a : Dword) (len id : Nat) : Found :=
  let o := offOf a
  if winOf a = 0x20 then
    match s.hostAnswer n.pasid id with
    | some c => .bad c (if c = .uncorrectable then 1 else 0)
    | none =>
      if s.badHost.any (fun x => n.pasid * 2 ^ 56 + o ≤ x && x < n.pasid * 2 ^ 56 + o + len) then .bad .uncorrectable 1
      else .bytes (s.hostBytes n.pasid o len)
  else match s.viewRead n o with
    | .bad c => .bad c 0
    | .at_ k p =>
      if s.devBad p len then .bad .uncorrectable (if s.requeues n o then 0 else 1) else .bytes (s.readKey k p len)

/-- Scratchpad bytes with an uncorrectable error (15 R326). -/
def State.spadBad (s : State) (off n : Nat) : Bool := s.badSpad.any (fun x => off < x + 8 && x < off + n)

/-- The package offset that an address names for a core, without any check. -/
def spadAt (u : UnitId) (a : Dword) : Option Nat :=
  if winOf a = 0 then some (u.val * spadSize + offOf a) else if winOf a = 1 then some (offOf a) else none

/-- The wait of a unit's SCL watches a line that a write on this cycle touches: its failed read acted before (11 R237). In windows 0x10 and 0x20
a write performed on the very cycle of the failed read wakes nothing (DEDUCED, log 16). -/
def State.watching (s : State) (u : UnitId) (line : Dword → Bool) : Option (Wait × WaitFor) :=
  match (s.core u).scl.wait with
  | none => none
  | some w => match w.what with
    | .word a v c wd oc ord readAt pending met =>
      if !pending && !met && decide (readAt < s.cyc) && line a then some (w, .word a v c wd oc ord readAt true met) else none
    | _ => none

/-- Wakes the waits of `WAITA` on a line that a write touches on this cycle: each reads again on the next cycle (11 R237). -/
def State.wake (s : State) (line : UnitId → Dword → Bool) : State :=
  (List.finRange 40).foldl (fun s u =>
    match s.watching u (line u) with
    | none => s
    | some (w, what) =>
      { s.modSeq ⟨u, .scl⟩ (fun x => { x with wait := some { w with what := what } }) with
        agenda := s.agenda ++ [{ due := .cyc (s.cyc + 1), ev := .waitaReread ⟨u, .scl⟩ w.t0, node := (s.core u).node, iss := s.cyc }] }) s

/-- The line lies in a range of bytes that are written. -/
def lineIn (p lo n : Nat) : Bool := decide (p / 64 * 64 < lo + n) && decide (lo < p / 64 * 64 + 64)

/-- Bytes of device memory change in place, or by a new frame: the waits of the nodes that find their word there wake (11 R237). -/
def State.wakeDev (s : State) (lo n : Nat) : State :=
  s.wake (fun u b => winOf b == 0x10 && (match (s.core u).node.bind s.node? with
    | some m => match s.viewRead m (offOf b) with | .at_ _ p => lineIn p lo n | .bad _ => false
    | none => false))

/-- Bytes of host memory are written through a PASID: with CXL.cache the waits on their lines wake, without it a wait only reads again after
its 1,024 cycles (11 R237). -/
def State.wakeHost (s : State) (pasid off n : Nat) : State :=
  if !s.cached pasid then s
  else s.wake (fun u b => winOf b == 0x20 && (match (s.core u).node.bind s.node? with
    | some m => m.pasid == pasid && lineIn (offOf b) off n
    | none => false))

/-- Bytes that a command has written wake the waits on their lines (11 R237). -/
def State.wakeRange (s : State) (pasid : Nat) (a : Dword) (n : Nat) : State :=
  if winOf a = 0x20 then s.wakeHost pasid (offOf a) n
  else (List.range (n / 2 ^ 16 + 2)).foldl (fun s k =>
    let off := max (offOf a) (offOf a / 2 ^ 16 * 2 ^ 16 + k * 2 ^ 16)
    let fin := min (offOf a + n) (offOf a / 2 ^ 16 * 2 ^ 16 + (k + 1) * 2 ^ 16)
    if off < fin then match s.liveRead pasid off with | .at_ _ p => s.wakeDev p (fin - off) | .bad _ => s else s) s

/-- A write to a line of a scratchpad. -/
def State.wakeSpad (s : State) (line : Nat) : State :=
  s.wake (fun u a => match spadAt u a with | some k => k / 64 == line | none => false)

/-- Writes scratchpad cells on this cycle: errors of the words written are gone, waits on the lines wake (07 R132, 11 R237). -/
def State.writeSpad (s : State) (cells : List (Nat × Byte)) : State :=
  let s := s.setSpadCells cells
  let s := { s with badSpad := s.badSpad.filter (fun x => !cells.any (fun c => x ≤ c.1 && c.1 < x + 8)) }
  ((cells.map (fun c => c.1 / 64)).eraseDups).foldl (fun s l => s.wakeSpad l) s

/-- Writes bytes for a node through windows 0x10 and 0x20: staged, or direct to the host (06 R127, 11 R209). -/
def State.writeNode (s : State) (n : Node) (a : Dword) (bs : List Byte) (id : Nat) : State × Option Code :=
  let o := offOf a
  if winOf a = 0x20 then
    match s.hostAnswer n.pasid id with
    | some c => (s, some (if c = .uncorrectable then .protection else c))
    | none =>
      let s := s.setHostBytes n.pasid o bs
      let s := { s with badHost := s.badHost.filter (fun x => !(n.pasid * 2 ^ 56 + o ≤ x && x < n.pasid * 2 ^ 56 + o + bs.length)) }
      (s.wakeHost n.pasid o bs.length, none)
  else match s.viewWrite n o with
    | (s, .bad c) => (s, some c)
    | (s, .at_ k p) =>
      (((s.writeKey k p bs).clearPoison p bs.length).wakeDev p bs.length, none)

/-- A copy is still held behind earlier accesses of its sequencer (11 R215 to R218, R221). -/
def State.copyHeld (s : State) (u : UnitId) (k : Copy) : Bool := s.orderHeld ⟨⟨u, .ld⟩, k.iss, k.oc, isAcq k.ord⟩

/-- `TLC`k of a core: every copy of the context with a ticket at or below it has completed (11 R208). -/
def Core.timeline (c : Core) (k : Fin 4) : Nat :=
  (c.copies.filter (fun e => e.ctx.toFin == k)).foldl (fun m e => min m (e.ticket - 1)) (c.ticket.get k)

def Core.setTimelines (c : Core) : Core :=
  { c with tlc := Vector.ofFn (fun k => BitVec.ofNat 64 (c.timeline k)) }

/-- `COPY_COMPLETE` (11 R206 to R208); one that is a release and has moved no byte completes once what it covers has been performed (11 R217). -/
def execCopyComplete (unit : UnitId) (serial : Nat) (s : State) : Res :=
  let c := s.core unit
  match c.copies.find? (fun k => k.serial == serial) with
  | none => .next s
  | some k =>
    if s.copyHeld unit k then
      .next { s with agenda := s.agenda ++ [{ due := .cyc (s.cyc + 1), ev := .copyComplete unit serial, node := c.node, iss := k.iss }] }
    else
    let p := c.tagPending.get k.tag.toFin - 1
    let c := { c with
      copies := c.copies.filter (fun e => e.serial != serial)
      tagPending := c.tagPending.set k.tag.toNat p k.tag.isLt
      tags := (if p = 0 then c.tags ||| BitVec.ofNat 64 (2 ^ k.tag.toNat) else c.tags)
      tagsSet := (if c.tagsAt = s.cyc then c.tagsSet else 0) ||| (if p = 0 then BitVec.ofNat 64 (2 ^ k.tag.toNat) else 0)
      tagsAt := s.cyc
      freed := (if c.freedAt = s.cyc then c.freed + 1 else 1)
      freedAt := s.cyc }
    .next (s.setCore unit c.setTimelines)

/-- `TAGCLR` (11 R229). -/
def execTagclr (h : Hdr) (xa : XReg) (s : State) : Res :=
  issue h 1 { reads := [s.xDest xa] }
    (fun s => .ok (s.later h (s.cyc + 1) false true (.clearTags s.cur.unit (s.xr xa)))) s

end Sys2Proof.Machine
end

