-- ==== Sys2Proof/Machine/Sync.lean ====
section
/-! DEFINITION. Waits and checks of tags and counters, `FENCE`, `DRAIN`, atomics and `WAITA` (11 R216, R221, R230 to R237). -/

namespace Sys2Proof.Machine
open Host

/-! ### Tags and timeline counters -/

/-- `WAITANY` (11 R230). -/
def execWaitany (h : Hdr) (xa xt : XReg) (s : State) : Res :=
  waitForm h [s.xDest xa, s.xDest xt] (fun s => .tags false (s.xr xa)) (fun s => s.xr xt) s

/-- `WAITALL` (11 R230). -/
def execWaitall (h : Hdr) (xa xt : XReg) (s : State) : Res :=
  waitForm h [s.xDest xa, s.xDest xt] (fun s => .tags true (s.xr xa)) (fun s => s.xr xt) s

/-- `WAITTL` (11 R232). -/
def execWaittl (h : Hdr) (ctx : BitVec 2) (xa xt : XReg) (s : State) : Res :=
  waitForm h [s.xDest xa, s.xDest xt] (fun s => .timeline ctx (s.xr xa)) (fun s => s.xr xt) s

/-- A check form: a false result raises TIMING in aligned mode and writes nothing (05 R90). -/
def State.checkForm (s : State) (h : Hdr) (pd : PReg) (v : Bool) : Verdict :=
  if s.me.aligned && !v then .fault { code := .timing } else .ok (s.laterP h pd 1 v)

/-- `FFRDY` (11 R231). -/
def execFfrdy (h : Hdr) (pd : PReg) (xa : XReg) (s : State) : Res :=
  issue h 1 { reads := [s.xDest xa], writes := [s.pDest pd] }
    (fun s => s.checkForm h pd (s.here.tags &&& s.xr xa == s.xr xa)) s

/-- `TLRDY` (11 R232). -/
def execTlrdy (h : Hdr) (pd : PReg) (ctx : BitVec 2) (xa : XReg) (s : State) : Res :=
  issue h 1 { reads := [s.xDest xa], writes := [s.pDest pd] }
    (fun s => s.checkForm h pd (!(s.here.tlc.get ctx.toFin).ult (s.xr xa))) s

/-! ### `FENCE` and `DRAIN` -/

/-- A mark of the issuing instruction for its own accesses: it is in force once the instruction commits (06 R119). -/
def State.ownMark (s : State) (h : Hdr) (kind : MarkKind) (pre post : BitVec 16) : Mark :=
  { kind := kind, who := s.cur, at_ := s.cyc, from_ := s.cyc, pre := pre, post := post, sq := h.sq, commit := s.commitCycle }

/-- `FENCE` (11 R216): later accesses of the classes act after the earlier ones of the classes; non-temporal stores to windows
0x10 and 0x20 are left out. -/
def execFence (h : Hdr) (mask : BitVec 16) (_scope : BitVec 3) (s : State) : Res :=
  issue h 1 {} (fun s => .ok (s.addMark s.cur (s.ownMark h .fence mask mask))) s

/-- `DRAIN` (11 R221): gathers the non-temporal stores of the classes; every later access acts after them, and they count as
ordinary accesses for later releases. -/
def execDrain (h : Hdr) (mask : BitVec 16) (_scope : BitVec 3) (s : State) : Res :=
  issue h 1 {} (fun s => .ok (s.addMark s.cur (s.ownMark h .drain mask (BitVec.allOnes 16)))) s

/-! ### Atomics (11 R234 to R236) -/

/-- The new value of an atomic, or none where it writes nothing (11 R235). Values are those of the operand's size. -/
def atomicNew (fn : BitVec 3) (bits : Nat) (old b c : Nat) : Option Nat :=
  let sgn (v : Nat) : Int := if v < 2 ^ (bits - 1) then v else (v : Int) - 2 ^ bits
  match fn.toNat with
  | 0 => some ((old + b) % 2 ^ bits)
  | 1 => some (if sgn b < sgn old then b else old)
  | 2 => some (if sgn old < sgn b then b else old)
  | 3 => some (old &&& b)
  | 4 => some (old ||| b)
  | 5 => some (old ^^^ b)
  | 6 => some b
  | _ => if old = b then some c else none

/-- The size in bytes of an atomic or of a `WAITA`. -/
def wideBytes (wide : Bool) : Nat := if wide then 8 else 4

/-- The bytes that an atomic writes, from the bytes it finds (11 R235). -/
def atomicBytes (fn : BitVec 3) (wide : Bool) (old : List Byte) (b c : Dword) : Option (List Byte) :=
  let n := wideBytes wide
  (atomicNew fn (8 * n) (leNat old) (b.toNat % 2 ^ (8 * n)) (c.toNat % 2 ^ (8 * n))).map (leBytes n)

/-- An atomic at an address: checks in the order of Table 11-13, then the access; `far` says whether windows 0x10 and 0x20 are
allowed (11 R234, R236). -/
def State.atomicForm (s : State) (h : Hdr) (far : Bool) (xd : XReg) (a : Dword) (fn : BitVec 3) (wide : Bool) (b c : Dword)
    (oc : BitVec 4) (ord : BitVec 3) : Verdict :=
  let n := wideBytes wide
  if a.toNat % n ≠ 0 then addrFault .alignment a
  else match s.reach a n with
    | .bad e => addrFault e a
    | .far =>
      if !far then addrFault .protection a
      else if s.me.aligned then .fault { code := .timing }
      else .ok (s.request h (.atomic xd fn wide b c) a oc ord)
    | .spad off =>
      let t := s.cyc + arrayOff (s.path off)
      let land := s.cyc + scalarLand (s.path off)
      if s.cyc < s.here.scalar then s.busy s.here.scalar
      else if (s.path off == 0 && s.claimed off n) || !s.inOrder oc (isAcq ord) t then s.busy (s.heldTill oc (isAcq ord))
      else .ok (s.access h a oc ord t s.commitCycle (s.fixedLoad a)
        (.atomic (s.portRank off .scalar) off fn wide b c (some xd) land t)).takeScalar

/-- `ATM` (11 R234 to R236). -/
def execAtm (h : Hdr) (xd xa xb : XReg) (fn : BitVec 3) (size : BitVec 1) (oc : BitVec 4) (ord : BitVec 3) (xc : XReg) (s : State) :
    Res :=
  issue h 2 { reads := [s.xDest xa, s.xDest xb, s.xDest xc], writes := [s.xDest xd] }
    (fun s => s.atomicForm h false xd (s.xr xa) fn (size == 1) (s.xr xb) (s.xr xc) oc ord) s

/-- `SATM` (11 R234 to R236). -/
def execSatm (h : Hdr) (xd xa xb : XReg) (fn : BitVec 3) (size : BitVec 1) (oc : BitVec 4) (ord : BitVec 3) (xc : XReg)
    (s : State) : Res :=
  issue h 2 { reads := [s.xDest xa, s.xDest xb, s.xDest xc], writes := [s.xDest xd] }
    (fun s => s.atomicForm h true xd (s.xr xa) fn (size == 1) (s.xr xb) (s.xr xc) oc ord) s

/-! ### `WAITA` (11 R237) -/

/-- The condition of a `WAITA` on the bytes read: signed conditions on sign-extended values, the others on zero-extended ones. -/
def wordHolds (cond : BitVec 3) (wide : Bool) (v : List Byte) (b : Dword) : Bool :=
  if wide then condHolds cond (BitVec.ofNat 64 (leNat v)) b
  else
    let x : Word := BitVec.ofNat 32 (leNat v)
    let y : Word := b.setWidth 32
    if cond.toNat = 2 || cond.toNat = 3 then condHolds cond (sx64 x) (sx64 y) else condHolds cond (zx64 x) (zx64 y)

/-- A read of a `WAITA` starts on this cycle: on the scalar port of the core, or as a request (11 R237). -/
def State.startRead (s : State) (q : SeqId) (t0 : Nat) (a : Dword) (wide : Bool) (oc : BitVec 4) (ord : BitVec 3) : State :=
  let back := s.cur
  let s := { s with cur := q }
  let n := wideBytes wide
  let s := match s.reach a n with
    | .spad off =>
      let t := s.cyc + arrayOff (s.path off)
      (s.access ⟨0, false⟩ a oc ord t (s.cyc + scalarLand (s.path off)) false
        (.load (span off n) [] (.wait t0) (s.cyc + scalarLand (s.path off)) t)).takeScalar
    | _ => s.request ⟨0, false⟩ (.waitRead t0) a oc ord
  { s with cur := back }

/-- `WAITA` (11 R237). -/
def execWaita (h : Hdr) (xa xb : XReg) (cond : BitVec 3) (xt : XReg) (size : BitVec 1) (oc : BitVec 4) (ord : BitVec 3)
    (s : State) : Res :=
  match s.me.wait with
  | some w => if s.waitMet s.cur w.what then .next (s.retire 2 0) else .next s
  | none =>
    issue h 2 { reads := [s.xDest xa, s.xDest xb, s.xDest xt], waiting := true, serial := true } (fun s =>
      let a := s.xr xa
      let n := wideBytes (size == 1)
      if a.toNat % n ≠ 0 then addrFault .alignment a
      else match s.reach a n with
        | .bad c => addrFault c a
        | r =>
          let blocked := match r with
            | .spad off => (s.path off == 0 && s.claimed off n) || !s.inOrder oc false (s.cyc + arrayOff (s.path off)) ||
                decide (s.cyc < s.here.scalar)
            | _ => false
          if blocked then s.busy (s.heldTill oc false)
          else
            let s := s.beginWait h (.word a (s.xr xb) cond (size == 1) oc ord 0 true false) (s.xr xt)
            .hold (s.startRead s.cur s.cyc a (size == 1) oc ord)) s

/-- `WAITA_REREAD` (11 R237): a further read starts on this cycle. -/
def execWaitaReread (q : SeqId) (t0 : Nat) (s : State) : Res :=
  match (s.seq q).wait with
  | some w => match w.what with
    | .word a v c wd oc ord readAt _ met =>
      if w.t0 = t0 && !met then
        let s := s.modSeq q (fun x => { x with wait := some { w with what := .word a v c wd oc ord readAt true met } })
        .next (s.startRead q t0 a wd oc ord)
      else .next s
    | _ => .next s
  | none => .next s

/-- A failed read of a `WAITA` that acted on this cycle: the wait watches its line; a timeout that has passed is raised now
(11 R237, log 16). -/
def State.readFailed (s : State) (q : SeqId) (t0 : Nat) : State :=
  match (s.seq q).wait with
  | some w => match w.what with
    | .word a v c wd oc ord _ _ met =>
      if w.t0 ≠ t0 then s
      else
        let s := s.modSeq q (fun x => { x with wait := some { w with what := .word a v c wd oc ord s.cyc false met } })
        if w.tmo ≠ 0 && w.t0 + w.tmo ≤ s.cyc then s.timeoutNow q w else s
    | _ => s
  | none => s

/-- A read of a `WAITA` that meets its condition lands: the wait is over on this cycle. -/
def State.readMet (s : State) (q : SeqId) (t0 : Nat) : State :=
  match (s.seq q).wait with
  | some w => match w.what with
    | .word a v c wd oc ord readAt _ _ =>
      if w.t0 ≠ t0 then s
      else s.modSeq q (fun x => { x with wait := some { w with what := .word a v c wd oc ord readAt false true } })
    | _ => s
  | none => s

/-- Whether the bytes read meet the condition of the wait begun on `t0`. -/
def State.readHolds (s : State) (q : SeqId) (t0 : Nat) (bs : List Byte) : Bool :=
  match (s.seq q).wait with
  | some w => match w.what with
    | .word _ v c wd _ _ _ _ _ => w.t0 == t0 && wordHolds c wd bs v
    | _ => false
  | none => false

end Sys2Proof.Machine
end

