-- ==== Sys2Proof/Machine/System.lean ====
section
/-! DEFINITION. System, trap and flag instructions (15 R334 to R337). -/

namespace Sys2Proof.Machine
open Host

/-! ### `END` (15 R319, R334) -/

/-- Every other sequencer of the core that has an entry has issued its `END` (15 R319). -/
def Core.othersEnded (c : Core) (q : SeqName) : Bool :=
  allSeqs.all (fun r => r == q || !(c.seq r).entry || (c.seq r).ended)

/-- Every sequencer of the node in the package that has an entry has issued its `END` (15 R319). -/
def State.allEnded (s : State) (n : Node) : Bool :=
  (n.cores ++ n.sheps.map (·.2)).all (fun u => allSeqs.all (fun q => !((s.core u).seq q).entry || ((s.core u).seq q).ended))

/-- `FLAGS` of the node's cores together (14 Table 14-10). -/
def State.nodeFlags (s : State) (n : Node) : BitVec 16 := n.cores.foldl (fun f u => f ||| (s.core u).flags) 0

/-- `END` (15 R334): the last one of the node in the package begins the node's end, and what its record says of the stop is that cycle's
(15 R319, 14 Table 14-10). -/
def execEnd (h : Hdr) (s : State) : Res :=
  issue h 1 { serial := true } (fun s =>
    if s.here.othersEnded s.cur.q && !s.here.sq.isEmpty then .fault { code := .scaleq }
    else
      let q := s.me
      let s := s.setMe { q with ended := true, aligned := false, seg := 0 }
      match s.here.node.bind s.node? with
      | none => .ok s
      | some n =>
        if s.allEnded n then
          .ok ((s.modNode n.nd (fun n => { n with state := .ending, stopAt := s.cyc, stopDrone := s.drone, flagsAt := s.nodeFlags n })).postMine 1 (.nodeEnd n.nd))
        else .ok s) s

/-! ### Traps and checks (15 R335, R336) -/

/-- `TRAP` (15 R335). -/
def execTrap (h : Hdr) (n : BitVec 21) (s : State) : Res :=
  issue h 1 { serial := true } (fun _ => .fault { code := .trap, orig := 1, info := n.toNat }) s

/-- A node can halt: its queue is debuggable, its variant has no shepherd entry, its family is no group family (15 R329). -/
def State.canHalt (s : State) (n : Node) : Bool :=
  (s.queue n.queue).debuggable && !n.variant.entries.any (fun e => 0x80 ≤ e.rank) && !n.family.group

/-- `BRK` (15 R335): a debug halt with the cut point after it where the node can halt, else `TRAP` with `ORIG` = 2. -/
def execBrk (h : Hdr) (n : BitVec 21) (s : State) : Res :=
  issue h 1 { serial := true } (fun s =>
    match s.here.node.bind s.node? with
    | some nd =>
      if s.canHalt nd then
        .ok (s.addCause
          { node := nd.nd, rank := 6, unit := s.cur.unit.val, seq := some (s.cur.q, s.me.pc), r := { code := .trap, orig := 2, info := n.toNat } })
      else .fault { code := .trap, orig := 2, info := n.toNat }
    | none => .fault { code := .trap, orig := 2, info := n.toNat }) s

/-- `CHK.P` (15 R336). -/
def execChkP (h : Hdr) (p : PReg) (neg : BitVec 1) (s : State) : Res :=
  issue h 1 { reads := [s.pDest p], serial := true } (fun s =>
    if s.pr p != (neg == 1) then .ok s else .fault { code := .check, orig := 3, info := p.toNat }) s

/-- `CHK.F` (15 R336): in free mode it waits for the flag-setting results of its own sequencer. -/
def execChkF (h : Hdr) (mask : BitVec 16) (s : State) : Res :=
  issue h 1 { serial := true } (fun s =>
    if !s.me.aligned && s.cyc ≤ s.me.flagAt && s.me.flagAt ≠ 0 then .stall (s.me.flagAt + 1)
    else if s.flagsNow &&& mask = 0 then .ok s
    else .fault { code := .check, orig := 3, info := (s.flagsNow &&& mask).toNat }) s

/-! ### Flags (15 R337) -/

/-- `FLGRD` (15 R337). -/
def execFlgrd (h : Hdr) (xd : XReg) (s : State) : Res :=
  issue h 1 { writes := [s.xDest xd] } (fun s => .ok (s.laterX h xd 1 (zx64 s.flagsNow))) s

/-- `FLGCLR` (15 R337). -/
def execFlgclr (h : Hdr) (mask : BitVec 16) (s : State) : Res :=
  issue h 1 {} (fun s => .ok (s.laterClear h false mask)) s

/-- `FLGTST` (15 R337). -/
def execFlgtst (h : Hdr) (pd : PReg) (mask : BitVec 16) (s : State) : Res :=
  issue h 1 { writes := [s.pDest pd] } (fun s => .ok (s.laterP h pd 1 (s.flagsNow &&& mask != 0))) s

end Sys2Proof.Machine
end

