-- ==== Sys2Proof/Machine/Time.lean ====
section
/-! DEFINITION. Drone time, pitch and slip: the SCL forms that read and wait on them, and the computations they share with the
pitch protocol (13 R272 to R277, R287 to R290). -/

namespace Sys2Proof.Machine
open Host

/-- The admissible code of a limit code (13 R275). -/
def admissible (limit : Nat) : Nat := min 1000 (64 * limit / 65)

/-- The admissible code of now, and of what the monitor forecasts sooner than the lead (13 R275, R276, R283). -/
def State.admissibleSoon (s : State) : Nat :=
  (s.forecasts.filter (fun f => decide (f.1 < s.drone + 1000 * s.group.leadUs))).foldl (fun m f => min m (admissible f.2)) (admissible s.limit)

/-- Notices whose instant has not come (13 R276). -/
def State.pendingNotices (s : State) : List NoticeWord := s.group.notices.filter (fun n => s.drone < n.x)

/-- The next pending instant. -/
def State.nextInstant (s : State) : Option Nat :=
  match s.pendingNotices with
  | [] => none
  | n :: ns => some (ns.foldl (fun m k => min m k.x) n.x)

/-- The code that a RAISE allows at instant x: its own, or a LOWER issued after it with an instant no later (13 R277). -/
def raisedCode (all : List NoticeWord) (r : NoticeWord) : Nat :=
  (all.filter (fun n => n.kind == .lower && decide (r.issue < n.issue) && decide (n.x ≤ r.x))).foldl (fun m n => min m n.code) r.code

/-- The code that the notices falling at instant x give to pitch p (13 R277). -/
def codeAt (all : List NoticeWord) (p x : Nat) : Nat :=
  let now := all.filter (fun n => n.x == x)
  let p1 := match now.filter (fun n => n.kind == .raise) with
    | [] => p
    | r :: rs => rs.foldl (fun m k => min m (raisedCode all k)) (raisedCode all r)
  (now.filter (fun n => n.kind != .raise)).foldl (fun m n => min m n.code) p1

/-- The instants of a list of notices, ascending. -/
def instants (all : List NoticeWord) : List Nat := (sortBy id (all.map (·.x))).eraseDups

/-- The code that pitch p becomes through the notices that fall at instants after `t`, up to instant x (13 R277). -/
def codeThrough (all : List NoticeWord) (p t x : Nat) : Nat :=
  ((instants all).filter (fun i => t < i && i ≤ x)).foldl (fun p i => codeAt all p i) p

/-- The limit code at an instant, as the monitor forecasts it (13 R276). -/
def State.limitAt (s : State) (t : Nat) : Nat :=
  (sortBy (·.1) (s.forecasts.filter (fun f => f.1 ≤ t))).foldl (fun _ f => f.2) s.limit

/-- The first instant from now on at which the pitch, as the notices held give it, would pass the package's admissible code, with that code.
The pitch 250 of an emergency throttle passes nothing (13 R275, R276, R283). -/
def State.breach (s : State) : Option (Nat × Nat) :=
  let ts := s.drone :: sortBy id ((s.forecasts.map (·.1) ++ s.group.notices.map (·.x)).filter (fun t => s.drone < t))
  (ts.map (fun t => (t, admissible (s.limitAt t)))).find? (fun e =>
    let p := codeThrough s.group.notices s.pitch s.drone e.1
    decide (e.2 < p) && !(s.emerg && decide (p ≤ 250)))

/-- The pitch status (13 Table 13-5). -/
def State.pitchStatus (s : State) : Dword :=
  let b (v : Bool) (n : Nat) : Nat := if v then 2 ^ n else 0
  let next := match s.nextInstant with | some x => codeAt s.group.notices s.pitch x | none => s.pitch
  let lead := match s.nextInstant with | some x => (x - s.drone) / 1000 | none => 0
  BitVec.ofNat 64 (next % 2 ^ 10 + b s.nextInstant.isSome 10 + b s.catchUp 11 + b s.group.sync 12 +
    b (s.group.member && decide (1 < s.group.members.length)) 13 + b s.group.bell 14 + b s.emerg 15 +
    2 ^ 16 * admissible s.limit + 2 ^ 32 * (lead % 2 ^ 32))

/-- A form that writes one value to xd, with latency 1. -/
def readOut (h : Hdr) (xd : XReg) (f : State → Dword) (s : State) : Res :=
  issue h 1 { writes := [s.xDest xd] } (fun s => .ok (s.laterX h xd 1 (f s))) s

/-- `RDT` (13 R287). -/
def execRdt (h : Hdr) (xd : XReg) (s : State) : Res := readOut h xd (fun s => s.sreg 0x001) s
/-- `RDC` (13 R287). -/
def execRdc (h : Hdr) (xd : XReg) (s : State) : Res := readOut h xd (fun s => s.sreg 0x000) s
/-- `RDSLIP` (13 R287). -/
def execRdslip (h : Hdr) (xd : XReg) (s : State) : Res := readOut h xd (fun s => s.sreg 0x002) s
/-- `PITCHQ` (13 R288). -/
def execPitchq (h : Hdr) (xd : XReg) (s : State) : Res := readOut h xd State.pitchStatus s

/-- `PITCHW` (13 R289). -/
def execPitchw (h : Hdr) (xa xt : XReg) (s : State) : Res :=
  waitForm h [s.xDest xa, s.xDest xt] (fun s => .pitch ((s.xr xa).setWidth 32)) (fun s => s.xr xt) s

/-- `DRONEW` (13 R289). -/
def execDronew (h : Hdr) (xa xt : XReg) (s : State) : Res :=
  waitForm h [s.xDest xa, s.xDest xt] (fun s => .drone (s.xr xa)) (fun s => s.xr xt) s

/-- `DRONE_INSTANT_REACHED` (13 R289): the wait begun on `t0` ends on this cycle. -/
def execDroneInstantReached (q : SeqId) (t0 : Nat) (s : State) : Res :=
  let v := s.seq q
  match v.wait with
  | some w => match w.what with
    | .drone d => if w.t0 = t0 && d.toNat ≤ s.drone then .next (s.setSeq q (v.advance 1 0 s.cyc)) else .next s
    | _ => .next s
  | none => .next s

/-- `DRONECK` (13 R290). -/
def execDroneck (h : Hdr) (pd : PReg) (xa : XReg) (s : State) : Res :=
  issue h 1 { reads := [s.xDest xa], writes := [s.pDest pd] }
    (fun s => s.checkForm h pd (decide ((s.xr xa).toNat ≤ s.drone))) s

end Sys2Proof.Machine
end

