-- ==== Sys2Proof/Machine/Fabric.lean ====
section
/-! DEFINITION. The fabric: packets, routes and hops, sends, receive descriptors, exact slots, the step mailbox, link status and
guard intervals (12, 13 R285, R291). -/

namespace Sys2Proof

/-! ### Route entries (12 R242) -/

def Packet.entry (p : Packet) : Nat := (p.route.getD p.hop 0).toNat
def entryAction (e : Nat) : Nat := e / 2 ^ 13
def entryPort (e : Nat) : Nat := e / 2 ^ 9 % 16
def entryRx (e : Nat) : Nat := e / 2 ^ 3 % 64
def entryChan (e : Nat) : Nat := e / 2 % 4
def entryOp (e : Nat) : Bool := e % 2 == 1

/-- The entry forwards: FWD, RDC or DUP (12 Table 12-2). -/
def forwards (e : Nat) : Bool := entryAction e == 1 || entryAction e == 3 || entryAction e == 4

/-- The channel belongs to the class: 2 is the exact channel, 0 and 1 are timed ones (12 R238). -/
def chanOf (exact : Bool) (c : Nat) : Bool := if exact then c == 2 else c < 2

/-- An earlier entry has delivered the packet (12 R242). -/
def Packet.delivered (p : Packet) : Bool :=
  (p.route.take p.hop).any (fun e => entryAction e.toNat == 2 || entryAction e.toNat == 4)

/-- The return route: the entries that follow the first DLV (12 R242). -/
def Packet.back (p : Packet) : List (BitVec 16) :=
  let r := (p.route.dropWhile (fun e => entryAction e.toNat != 2)).drop 1
  (r ++ List.replicate 12 0).take 12

def Packet.size_ (p : Packet) : Nat := p.blocks.length

end Sys2Proof

namespace Sys2Proof.Machine
open Host

/-! ### Ports, dies, the node that uses the fabric -/

/-- The compute die that carries a port (01 Table 1-2): dies 0 to 3 carry ports 2d and 2d + 1, and port 8 + d. -/
def portDie (p : Nat) : Nat := if p < 8 then p / 2 else p - 8

/-- The group node that runs in the package, its end included (12 R242, 15 R319). -/
def State.groupNode (s : State) : Option Node := s.nodes.find? (fun n => n.family.group && n.live)

/-- The shepherd that serves a port: of the placement of the group node where one runs, else the active one (12 R249). -/
def State.portShep (s : State) (p : PortId) : UnitId :=
  match s.groupNode with
  | some n => s.shepOf n (portDie p.val)
  | none => unitOf (32 + 2 * portDie p.val + (if s.active.get (Fin.ofNat 4 (portDie p.val)) then 1 else 0))

/-- A decision of the coordinator, sent to every other part (15 R321). -/
def State.decide_ (s : State) (n : Node) (yes : Bool) : State :=
  (s.emit (.decision n.nd yes)).postIn 0 (.groupDecision n.nd yes)

/-- `LINK` in the nodes of the fabric partition that have a shepherd entry (12 R252, R255); a coordinator that has voted decides abort
(15 R321). -/
def State.raiseLink (s : State) (unit : Nat) : State :=
  (s.nodes.filter (fun n => some n.part == s.fabric && !n.sheps.isEmpty)).foldl
    (fun s n =>
      if n.state == .running || n.state == .ending then s.raiseNode n.nd unit { code := .link }
      else if n.state == .voted && n.coord == n.rank then s.decide_ n false
      else s) s

/-- Counters of `LNKST` saturate (12 R267). -/
def satAdd (a n : Nat) : Nat := min 0xFFF (a + n)

def State.countStray (s : State) (p : PortId) : State := s.modPort p (fun q => { q with stray := satAdd q.stray 1 })
def State.countLate (s : State) (p : PortId) (n : Nat) : State := s.modPort p (fun q => { q with late := satAdd q.late n })
def State.countBad (s : State) (p : PortId) : State := s.modPort p (fun q => { q with badCrc := satAdd q.badCrc 1 })

/-- The header conditions that drop a packet as stray (12 R242). -/
def State.strayHeader (s : State) (p : Packet) : Bool :=
  let e := p.entry
  !p.crcOk || (match s.groupNode with | some n => n.tag != p.tag | none => true) ||
  12 ≤ p.hop || 5 ≤ entryAction e || p.route.any (fun x => entryChan x.toNat == 3) ||
  (forwards e && (12 ≤ entryPort e || !chanOf p.exact (entryChan e)))

/-- The cycle on which the last beat of block `j` is available, the header on cycle `c` (12 R240). -/
def blockAt (c j : Nat) : Nat := c + 8 * (j + 1)

/-! ### Departures (12 R240, R243, R247, R255) -/

/-- Who an operation belongs to: the sequencer, the address of its instruction, its node, and whether it was issued in aligned
mode. -/
structure Org where
  by_ : SeqId
  pc : Dword
  node : Nat
  timed : Bool
  deriving DecidableEq, Repr

/-- A hop's operation belongs to no node. -/
def hopOrg (u : UnitId) : Org := ⟨⟨u, .st⟩, 0, 0, false⟩

def Eff.org (e : Eff) : Org := ⟨e.by_, e.pc, e.node, e.timed⟩

def State.put (s : State) (o : Org) (at_ iss : Nat) (op : EffOp) : State :=
  { s with effs := s.effs ++
      [{ at_ := at_, iss := iss, by_ := o.by_, pc := o.pc, node := o.node, sq := false, commit := iss, fixed := false, timed := o.timed
         op := op }] }

/-- A packet becomes ready to leave on a port and channel on a later cycle (12 R240); hop has been raised. -/
def State.leaveAt (s : State) (o : Org) (ready src : Nat) (p : Packet) : State × Nat :=
  let e := p.entry
  let key := s.serial
  let s := { s with serial := key + 1, transit := s.transit ++ [(key, { p with hop := p.hop + 1 })] }
  (s.put o ready s.cyc (.depart key (Fin.ofNat 12 (entryPort e)) (entryChan e) ready src), key)

/-- A cycle lies in a busy interval. -/
def inside (l : List (Nat × Nat)) (c : Nat) : Bool := l.any (fun r => r.1 ≤ c && c ≤ r.2)

/-- An interval [a, b] meets a busy interval. -/
def meets (l : List (Nat × Nat)) (a b : Nat) : Bool := l.any (fun r => r.1 ≤ b && a ≤ r.2)

/-- A free-mode `GUARD` waits for its channels and takes precedence over sends ready since its t + 40 (13 R291). -/
def State.guardWaits (s : State) (p : PortId) (ready : Nat) : Bool :=
  (s.port p).up && s.agenda.any (fun t => match t.ev with
    | .guardIntervalStart _ q _ al _ => !al && q == p && decide (t.iss + 40 ≤ s.cyc) && decide (t.iss + 40 ≤ ready)
    | _ => false)

/-- The guard intervals of a port: those that have started, and the declared ones of aligned `GUARD`s, whose start is known; a port that is
down has none to come (12 R255, 13 R291). -/
def State.guardedAt (s : State) (p : PortId) : List (Nat × Nat) :=
  if !(s.port p).up then (s.port p).guards
  else (s.port p).guards ++ s.agenda.filterMap (fun t => match t.due, t.ev with
    | .cyc d, .guardIntervalStart _ q beats al _ => if al && q == p then some (d, d + 2 * beats - 1) else none
    | _, _ => none)

/-- A packet that became ready earlier, or on the same cycle with a place before, waits for the same channel (12 R240). -/
def State.behind (s : State) (port : PortId) (chan ready src : Nat) : Bool :=
  s.effs.any (fun e => match e.op with
    | .depart _ p c r x => p == port && c == chan && decide (13 * r + x < 13 * ready + src)
    | _ => false)

/-- A departure tried on this cycle: it leaves, waits for the next cycle, or raises its fault. A packet in transit waits for an interval that
has begun, a send of this package also for one that is declared (12 R240, R246, R247, R252, R255, 13 R291). -/
def State.tryDepart (s : State) (e : Eff) (key : Nat) (port : PortId) (chan ready src : Nat) : State :=
  match s.transit.find? (fun t => t.1 == key) with
  | none => s
  | some (_, p) =>
    let q := s.port port
    let last := s.cyc + 2 * (1 + 4 * p.size_) - 1
    let c : Fin 3 := Fin.ofNat 3 chan
    let busy := inside (q.chan.get c) s.cyc || s.behind port chan ready src
    let guarded_ := if src == 12 then meets (s.guardedAt port) s.cyc last || s.guardWaits port ready else inside q.guards s.cyc
    let drop := { s with transit := s.transit.filter (fun t => t.1 != key) }
    if p.exact && !q.up then drop.raiseLink e.by_.unit.val
    else if src == 12 && !p.exact && (busy || guarded_) then drop.raiseAt e.by_ e.pc e.node { code := .timing }
    else if src == 12 && e.timed && guarded_ then drop.raiseAt e.by_ e.pc e.node { code := .timing }
    else if busy || guarded_ then
      { s with effs := s.effs ++ [{ e with at_ := s.cyc + 1 }] }
    else
      let s := s.modPort port (fun q => { q with chan := q.chan.set c.val ((q.chan.get c).filter (fun r => s.cyc ≤ r.2) ++ [(s.cyc, last)]) c.isLt })
      s.put e.org (s.cyc + 8 * p.size_) e.iss (.gone key port chan s.cyc)

/-- The last beat of a packet leaves; a port that is down loses a LOSSY one, and an EXACT one, which no replay brings across, raises `LINK`
(12 R252). -/
def State.packetGone (s : State) (key : Nat) (port : PortId) (chan first : Nat) : State :=
  match s.transit.find? (fun t => t.1 == key) with
  | none => s
  | some (_, p) =>
    let s := { s with transit := s.transit.filter (fun t => t.1 != key) }
    if (s.port port).up then s.emit (.packet port chan first p)
    else if p.exact then s.raiseLink (s.portShep port).val else s

/-! ### Replies (12 R253, R261) -/

/-- A slot-free notice or an atomic reply sets out on the return route of a packet, whose first entry its shepherd acts on as a hop; a
notice of a handle's send carries the handle in its slot field, marked by `size`, and the kind of the send in `fn` (12 R242,
log 27). -/
def State.reply (s : State) (port : PortId) (p : Packet) (kind : Nat) (value : Dword) : State :=
  let u := s.portShep port
  let rank := match s.groupNode with | some n => n.rank | none => 0
  let r : Packet :=
    { p with
      kind := kind, hop := 0, rank := rank, die := dieOf u, fn := p.kind, dest := 0, route := p.back, counts := List.replicate 16 1
      blocks := [⟨leBytes 8 value.toNat ++ List.replicate 248 0, true⟩], crcOk := true, reserved := false }
  s.put (hopOrg u) (s.cyc + 1) s.cyc (.answer ⟨port, s.cyc, r⟩)

/-- The answer to a packet that its destination has performed; what a DUP delivers on the way is not answered (12 R242, R253). -/
def State.answer (s : State) (h : Held) (kind : Nat) (value : Dword) : State :=
  if entryAction h.a.pkt.entry == 4 then s else s.reply h.a.port h.a.pkt kind value

/-- Tokens of an exchange have been written or acknowledged: the package's own, or those of a stage-1 packet that it passes on;
with the last one the notice of that packet leaves (12 R265). -/
def State.tokensEnd (s : State) (u : UnitId) (hd : Idx64) (relay n : Nat) : State :=
  let h := (s.core u).handles.get hd
  let put (s : State) (h : Handle) : State := s.modCore u (fun c => { c with handles := c.handles.set hd.val h hd.isLt })
  if relay = 0 then put s { h with tokens := h.tokens - n }
  else match h.relays.find? (fun r => r.1 == relay) with
    | none => s
    | some (_, left, p, port) =>
      if left ≤ n then (put s { h with relays := h.relays.filter (fun r => r.1 != relay) }).reply port p 4 0
      else put s { h with relays := h.relays.map (fun r => if r.1 == relay then (r.1, left - n, r.2.2) else r) }

/-- The first flight that a notice names: of the rank that sent it and the kind of the send where it tells them. -/
def takeFlight (f : Nat × Nat × Nat × Nat → Bool) :
    List (Nat × Nat × Nat × Nat) → Option ((Nat × Nat × Nat × Nat) × List (Nat × Nat × Nat × Nat))
  | [] => none
  | a :: l => if f a then some (a, l) else (takeFlight f l).map (fun r => (r.1, a :: r.2))

/-- A slot-free notice: it frees the slot, or acknowledges the oldest send of a handle that it fits (12 R253). -/
def State.noticeFrees (s : State) (u : UnitId) (slot : Idx64) (hd : Option Idx64) (fits : Nat × Nat × Nat × Nat → Bool) : State :=
  match hd with
  | none => s.modCore u (fun c => { c with slots := c.slots.set slot.val {} slot.isLt })
  | some hd =>
    let h := (s.core u).handles.get hd
    match takeFlight fits h.flight with
    | none => s
    | some ((kind, _, relay, n), rest) =>
      let s := s.modCore u (fun c => { c with handles := c.handles.set hd.val { h with flight := rest } hd.isLt })
      if kind = 5 || kind = 6 then s.tokensEnd u hd relay n else s

/-- A reply lands: the old value zero-extended in the register that waits for it, and the slot is free (12 R261). -/
def State.replyLands (s : State) (u : UnitId) (slot : Idx64) (old : Dword) : State :=
  let t := (s.core u).slots.get slot
  let s := s.modCore u (fun c => { c with slots := c.slots.set slot.val {} slot.isLt })
  match t.reply with
  | some (q, r, wide) =>
    s.returnX ⟨u, q⟩ 0 ((s.core u).node.getD 0) t.since false r (if wide then old else zx64 (old.setWidth 32))
  | none => s

/-- `SLOT_FREE_NOTICE` (12 R253). -/
def execSlotFreeNotice (unit : UnitId) (slot : Idx64) (handle : Option Idx64) (s : State) : Res :=
  .next (s.noticeFrees unit slot handle (fun _ => true))

/-- `ATOMIC_REPLY` (12 R261). -/
def execAtomicReply (unit : UnitId) (slot : Idx64) (old : Dword) (s : State) : Res := .next (s.replyLands unit slot old)

/-! ### Delivery (12 R244, R249 to R254, R257) -/

/-- The shepherd's descriptor. -/
def State.desc (s : State) (u : UnitId) (rx : Idx64) : Desc := (s.core u).descs.get rx
def State.setDesc (s : State) (u : UnitId) (rx : Idx64) (d : Desc) : State :=
  s.modCore u (fun c => { c with descs := c.descs.set rx.val d rx.isLt })

/-- The package offset that a window 0x02 address names in its package (12 R244). -/
def podOff (a : Dword) : Nat := a.toNat % 2 ^ 34

/-- The destination core is granted to the part of the group node (12 R244). -/
def State.destGranted (s : State) (off : Nat) : Bool :=
  match s.groupNode with
  | some n => n.cores.any (fun c => c.val == off / spadSize)
  | none => false

/-- The cycles from the last beat of a block to its array cycle (12 Table 12-3). -/
def dlvOff (die off : Nat) : Nat := if dieOf (coreOf off) == die then 24 else 52

/-- A LOSSY packet whose delivery the descriptor does not take (12 R244, R249). -/
def State.lossyStray (s : State) (a : Arrival) : Bool :=
  let p := a.pkt
  let d := s.desc (s.portShep a.port) (Fin.ofNat 64 (entryRx p.entry))
  let off := podOff p.dest
  let base := offOf d.base
  p.kind != 0 || !s.destGranted off || d.state != .open_ || d.ex || !(d.any || d.rank == p.rank) || off < base ||
    (off - base) % 256 != 0 || decide (d.e < (off - base) / 256 + p.size_)

/-- A LOSSY packet delivered (12 R249, R250): blocks whose CRC fails are counted now, the others are judged on their array
cycle. -/
def State.deliverLossy (s : State) (a : Arrival) : State :=
  let p := a.pkt
  let u := s.portShep a.port
  let rx : Idx64 := Fin.ofNat 64 (entryRx p.entry)
  let d := s.desc u rx
  let off := podOff p.dest
  let base := offOf d.base
  if s.lossyStray a then s.countStray a.port
  else
    (List.range p.size_).foldl (fun s j =>
      match p.blocks[j]? with
      | none => s
      | some b =>
        if !b.crcOk then s.countBad a.port
        else s.put (hopOrg u) (blockAt a.cyc j + dlvOff (portDie a.port.val) base) s.cyc
          (.deliver a.port rx d.serial ((off - base) / 256 + j) (p.counts.getD j 1) (off + 256 * j) b.data)) s

/-- The link of a port is held: a packet of it has found no exact buffer (12 R254). -/
def State.linkHeld (s : State) (port : PortId) : Bool :=
  (s.core (s.portShep port)).exbuf.any (fun h => !h.admitted && h.a.port == port)

/-- An EXACT packet that has its buffer begins to act, its header beat available on cycle `c` (12 R249, R253, R257). -/
def State.beginExact (s : State) (u : UnitId) (id : Nat) (a : Arrival) (c : Nat) : State :=
  let p := a.pkt
  let die := portDie a.port.val
  let off := podOff p.dest
  let last := blockAt c (p.size_ - 1) + dlvOff die off
  match p.kind with
  | 0 =>
    let rx : Idx64 := Fin.ofNat 64 (entryRx p.entry)
    (List.range p.size_).foldl (fun s j =>
      match p.blocks[j]? with
      | none => s
      | some b => s.put (hopOrg u) (blockAt c j + dlvOff die off) s.cyc
          (.exact (some rx) (off + 256 * j) b.data (if j + 1 == p.size_ then some id else none))) s
  | 1 => s.postIn (last - s.cyc - 1) (.signalAdd id)
  | 2 => s.postIn (last - s.cyc - 1) (.remoteAtomic id)
  | 5 => s.postIn (blockAt c (p.size_ - 1) + 24 - s.cyc) (.exchangeStage1 a)
  | _ => s.postIn (blockAt c (p.size_ - 1) + 24 - s.cyc) (.exchangeStage2 a)

/-- The shepherd has a free exact buffer (12 R254). -/
def State.bufferFree (s : State) (u : UnitId) : Bool := decide (((s.core u).exbuf.filter (·.admitted)).length < 256)

/-- An EXACT packet takes a buffer: a delivery that is no reply or notice and not stray (12 R244, R253, R254). -/
def State.needsBuffer (s : State) (p : Packet) : Bool :=
  p.exact && (entryAction p.entry == 2 || entryAction p.entry == 4) && p.kind != 3 && p.kind != 4 && p.kind != 7 &&
  !(p.kind < 3 && !s.destGranted (podOff p.dest))

/-- An EXACT packet delivered: a reply takes effect at once, everything else takes a buffer (12 R253, R254); a destination that is
not granted makes it stray (12 R244). -/
def State.deliverExact (s : State) (a : Arrival) : State :=
  let p := a.pkt
  let u := s.portShep a.port
  let slot : Idx64 := Fin.ofNat 64 p.slot
  match p.kind with
  | 3 => s.replyLands u slot (BitVec.ofNat 64 (leNat (((p.blocks.map (·.data)).headD []).take 8)))
  | 4 => s.noticeFrees u slot (if p.size then some slot else none) (fun f => f.1 == p.fn && f.2.1 == p.rank)
  | _ =>
    if !s.needsBuffer p then s.countStray a.port
    else
      let id := s.serial
      let s := { s with serial := id + 1 }
      (s.modCore u (fun c => { c with exbuf := c.exbuf ++ [⟨id, a, true⟩] })).beginExact u id a a.cyc

def State.deliverPkt (s : State) (a : Arrival) : State :=
  if a.pkt.exact then s.deliverExact a else s.deliverLossy a

/-- A hop forwards a packet under the FWD row (12 R243). -/
def State.forwardPkt (s : State) (o : Org) (src : Nat) (a : Arrival) : State :=
  let far := portDie (entryPort a.pkt.entry) != portDie a.port.val
  (s.leaveAt o (a.cyc + (if far then 44 else 16)) src a.pkt).1

/-- A `DUP`: delivered, and forwarded by `fwd`; one whose delivery is stray is dropped (12 R242, R244, R249). -/
def State.dupPkt (s : State) (a : Arrival) (fwd : State → State) : State :=
  let p := a.pkt
  if (if p.exact then decide (p.kind < 3) && !s.destGranted (podOff p.dest) else s.lossyStray a) then s.countStray a.port
  else fwd (s.deliverPkt a)

/-- An RDC hop: its blocks are combined one by one, then the packet leaves (12 R243, R251). -/
def State.combinePkt (s : State) (o : Org) (src : Nat) (a : Arrival) : State :=
  let p := a.pkt
  let e := p.entry
  let u := s.portShep a.port
  let rx : Idx64 := Fin.ofNat 64 (entryRx e)
  let d := s.desc u rx
  let base := offOf d.base
  let doff := p.dest.toNat % 2 ^ 29
  let boff := base % 2 ^ 29
  let lim := dlvOff (portDie a.port.val) base
  if d.state != .open_ || !d.red || doff < boff || (doff - boff) % 256 != 0 || d.e < (doff - boff) / 256 + p.size_ then
    s.countStray a.port
  else if !d.ex && d.close < blockAt a.cyc (p.size_ - 1) + lim then s.countLate a.port p.size_
  else
    let (s, key) := s.leaveAt o (a.cyc + (if lim == 24 then 32 else 60)) src p
    (List.range p.size_).foldl (fun s j =>
      let blk := (doff - boff) / 256 + j
      s.put o (blockAt a.cyc j + lim) s.cyc (.combine a.port key j rx d.serial blk (base + 256 * blk) (entryOp e))) s

/-- What happens to a packet of the END action (12 R242). -/
def State.endRoute (s : State) (a : Arrival) : State :=
  if a.pkt.kind = 3 || a.pkt.kind = 4 then s.deliverPkt a
  else if a.pkt.delivered then s else s.countStray a.port

/-- A hop acts on the next entry of a packet's route (12 R242). -/
def State.hopAct (s : State) (a : Arrival) : State :=
  let o := hopOrg (s.portShep a.port)
  match entryAction a.pkt.entry with
  | 1 => s.forwardPkt o a.port.val a
  | 2 => s.deliverPkt a
  | 3 => s.combinePkt o a.port.val a
  | 4 => s.dupPkt a (fun s => s.forwardPkt o a.port.val a)
  | 0 => s.endRoute a
  | _ => s.countStray a.port

/-- Packets that stand on a held link go on, each link in its order, as far as the exact buffers that are free let them (12 R254). -/
def State.takeBuffers (s : State) (u : UnitId) : State :=
  ((s.core u).exbuf.filter (fun h => !h.admitted)).foldl (fun s h =>
    if (s.core u).exbuf.any (fun k => !k.admitted && k.a.port == h.a.port && decide (k.id < h.id)) then s
    else if s.needsBuffer h.a.pkt && !s.bufferFree u then s
    else
      let s := s.modCore u (fun c => { c with exbuf := c.exbuf.filter (fun k => k.id != h.id) })
      s.hopAct { h.a with cyc := s.cyc }) s

/-- A packet has been performed: its buffer is free (12 R254). -/
def State.freeHeld (s : State) (u : UnitId) (id : Nat) : State :=
  (s.modCore u (fun c => { c with exbuf := c.exbuf.filter (fun k => k.id != id) })).takeBuffers u

/-- A packet of the exact channel holds its link: it finds no buffer, or stands behind one that has found none (12 R254). -/
def State.holdLink (s : State) (a : Arrival) : State :=
  let id := s.serial
  { s.modCore (s.portShep a.port) (fun c => { c with exbuf := c.exbuf ++ [⟨id, a, false⟩] }) with serial := id + 1 }

/-- The inbound beats of an arriving packet occupy its port (12 R240, 13 R285). -/
def State.heardBeats (s : State) (a : Arrival) : State :=
  s.modPort a.port (fun q => { q with quietFrom := max q.quietFrom (a.cyc + 2 * (1 + 4 * a.pkt.size_)) })

/-- The fill of an elastic buffer moves towards 128 by one place for each idle beat of a run of 32 or more: by 32 when the run has that
length, and then beat by beat (13 R285; log 26). -/
def Port.recentre (p : Port) (cyc : Nat) : Port :=
  let idle := cyc - p.quietFrom
  if !p.up || idle % 2 = 1 || idle < 64 then p
  else
    let n := if idle = 64 then 32 else 1
    { p with fill := if p.fill < 128 then min 128 (p.fill + n) else max 128 (p.fill - n) }

def State.recentre (s : State) : State := { s with ports := s.ports.map (fun p => p.recentre s.cyc) }

/-- An arriving packet at a hop: stray, held on its link, or the action of its entry where that is `k` (12 R242, R254). -/
def State.hop (s : State) (a : Arrival) (k : Nat) : Res :=
  s.unlessFailed <|
  let s := s.heardBeats a
  if s.strayHeader a.pkt then .next (s.countStray a.port)
  else if entryAction a.pkt.entry != k then .next s
  else if a.pkt.exact && (s.linkHeld a.port || (s.needsBuffer a.pkt && !s.bufferFree (s.portShep a.port))) then .next (s.holdLink a)
  else .next (s.hopAct a)

/-- The shepherd of the destination acts on the first entry of the return route of its answer (12 R242). -/
def State.answerLands (s : State) (a : Arrival) : State := if s.strayHeader a.pkt then s.countStray a.port else s.hopAct a

/-- `FWD` (12 R242, R243). -/
def execFwd (a : Arrival) (s : State) : Res := s.hop a 1

/-- `DLV` (12 R249, R250). -/
def execDlv (a : Arrival) (s : State) : Res := s.hop a 2

/-- `RDC_HOP` (12 R251). -/
def execRdcHop (a : Arrival) (s : State) : Res := s.hop a 3

/-- `DUP` (12 R242). -/
def execDup (a : Arrival) (s : State) : Res := s.hop a 4

/-- `ROUTE_END` (12 R242). -/
def execRouteEnd (a : Arrival) (s : State) : Res := s.hop a 0

/-- One lane of a combination (12 R251): FP32 addition, or wrapping addition. -/
def combineLane (op : Bool) (x y : Word) : Word := if op then x + y else (fadd (dec32 x) (dec32 y)).1

/-- The block that an RDC hop writes and forwards, with its count (12 R251). -/
def combineBlock (op ok : Bool) (count : Nat) (pkt buf : List Byte) : List Byte × Nat :=
  if ok && 0 < count then
    (wordBytes (List.zipWith (combineLane op) (bytesWords pkt) (bytesWords buf)), min (count + 1) 255)
  else (buf, 1)

/-! ### Signals and atomics at their destination (12 R257, R260, R261) -/

/-- A LOSSY descriptor of the package that covers the sender is open (12 R257). -/
def State.covered (s : State) (rank : Nat) : Bool :=
  s.cores.toList.any (fun c => c.descs.toList.any (fun d => d.state == .open_ && !d.ex && (d.any || d.rank == rank)))

/-- The shepherd and the packet that a buffered operation's number names. -/
def State.heldOf (s : State) (id : Nat) : Option (UnitId × Held) :=
  (List.finRange 40).findSome? (fun u => ((s.core u).exbuf.find? (fun h => h.id == id)).map (fun h => (u, h)))

/-- A buffered operation is tried on the next cycle. -/
def State.performSoon (s : State) (id : Nat) : State :=
  match s.heldOf id with
  | none => s
  | some (u, _) => s.put (hopOrg u) (s.cyc + 1) s.cyc (.perform id)

/-- `SIGNAL_ADD` (12 R257, R260). -/
def execSignalAdd (id : Nat) (s : State) : Res := .next (s.performSoon id)

/-- `REMOTE_ATOMIC` (12 R257, R261). -/
def execRemoteAtomic (id : Nat) (s : State) : Res := .next (s.performSoon id)

/-- What arrives from another package reads a word with an error in a scratchpad: the part of the group node here consumes it (15 R326,
log 21). -/
def State.partReadsBad (s : State) (u : UnitId) (off : Nat) : State :=
  match s.groupNode with
  | some n => s.raiseNode n.nd u.val { code := .uncorrectable, addr := 2 ^ 56 + off }
  | none => s

/-- A buffered signal or atomic on its array cycle, with the other writes of the cycle by their rank: it waits while a descriptor
covers its sender; performed, it answers (12 R257). -/
def State.performHeld (s : State) (e : Eff) (id : Nat) : State :=
  match s.heldOf id with
  | none => s
  | some (u, h) =>
    let p := h.a.pkt
    if s.covered p.rank then { s with effs := s.effs ++ [{ e with at_ := s.cyc + 1 }] }
    else
      let off := podOff p.dest
      let data := (p.blocks.map (·.data)).headD []
      let b : Dword := BitVec.ofNat 64 (leNat (data.take 8))
      let c : Dword := BitVec.ofNat 64 (leNat ((data.drop 8).take 8))
      let wide := p.kind = 1 || p.size
      if s.spadBad off (wideBytes wide) then s.partReadsBad u off else
      let fn : BitVec 3 := if p.kind = 1 then 0 else BitVec.ofNat 3 p.fn
      let old := s.spadBytes off (wideBytes wide)
      let s := match atomicBytes fn wide old b c with
        | some bs => s.writeSpad (cellsAt off bs)
        | none => s
      let s := s.answer h (if p.kind = 1 then 4 else 3) (BitVec.ofNat 64 (leNat old))
      s.freeHeld u id

/-! ### Sends (12 R246, R253, R256, R257, R259 to R261) -/

/-- The partition of a node is the fabric partition (12 R245). -/
def State.onFabric (s : State) (n : Node) : Bool := some n.part == s.fabric

/-- The fault of a window 0x01 range of a node (12 Table 12-4, orders 2 and 3). -/
def win1Fault (n : Node) (a : Dword) (len : Nat) : Option Code :=
  let o := offOf a
  if winOf a ≠ 1 || 2 ^ 34 ≤ o || spadSize < o % spadSize + len then some .window
  else if n.cores.any (fun c => c.val == o / spadSize) then none else some .protection

/-- The fault of a window 0x02 destination of a node. -/
def win2Fault (n : Node) (a : Dword) (len : Nat) : Option Code :=
  let v := a.toNat
  if winOf a ≠ 2 || bitsOf v 55 46 ≠ 0 || spadSize < v % spadSize + len then some .window
  else if n.size ≤ bitsOf v 45 34 then some .protection else none

/-- The first fault of a code among a list. -/
def firstFault (c : Code) (l : List (Option Code × Dword)) : Option Raise :=
  (l.find? (fun x => x.1 == some c)).map (fun x => { code := c, addr := x.2.toNat })

/-- The source of a send, as its plan names it: an image's blocks start 256 bytes into it (12 R259). -/
def SendPlan.source (p : SendPlan) : Option Dword :=
  if p.cls.isNone then some (p.tmpl + 256) else p.src

/-- The alignment of a send's destination (12 Table 12-4, order 1). -/
def SendPlan.align (p : SendPlan) : Nat := if p.kind = 0 then 256 else if p.kind = 1 || p.size then 8 else 4

/-- Bytes of the destination. -/
def SendPlan.dstLen (p : SendPlan) : Nat := if p.kind = 0 then p.len else p.align

/-- Checks 1 to 3 of a send, but for the class of an image (12 Table 12-4). -/
def State.sendFault (s : State) (n : Node) (p : SendPlan) : Option Raise :=
  let src := match p.source with | some a => [(win1Fault n a (max 256 p.len), a)] | none => []
  let ends := src ++ [(win1Fault n p.tmpl 64, p.tmpl)] ++ (match p.dst with | some a => [(win2Fault n a p.dstLen, a)] | none => [])
  if (match p.source with | some a => a.toNat % 256 != 0 | none => false) then
    some { code := .alignment, addr := (p.source.getD 0).toNat }
  else if p.tmpl.toNat % (if p.cls.isNone then 256 else 64) ≠ 0 then some { code := .alignment, addr := p.tmpl.toNat }
  else if (match p.dst with | some a => a.toNat % p.align != 0 | none => false) then
    some { code := .alignment, addr := (p.dst.getD 0).toNat }
  else if p.kind = 0 && p.cls.isSome && (p.len % 256 ≠ 0 || p.len < 256 || 4096 < p.len) then
    some { code := .alignment, addr := (p.source.getD 0).toNat }
  else match firstFault .window ends with
    | some r => some r
    | none =>
      if !s.onFabric n then some { code := .protection }
      else match firstFault .protection ends with
        | some r => some r
        | none => if p.cls == some false && !p.planned then some { code := .protection } else none

/-- A template or source lies in a core of another die (12 R243). -/
def SendPlan.far (p : SendPlan) (u : UnitId) : Bool :=
  let away (a : Dword) : Bool := dieOf (coreOf (offOf a)) != dieOf u
  p.away || away p.tmpl || (match p.source with | some a => away a | none => false)

/-- A window 0x01 range is claimed by a copy in flight (07 R139). -/
def State.claimed1 (s : State) (a : Option Dword) (len : Nat) : Bool :=
  match a with | some a => s.claimed (offOf a) len | none => false

/-- The send issues: its template and source are read on the array cycle of Table 12-3 (12 R243, R256). -/
def State.startSend (s : State) (o : Org) (p : SendPlan) : State :=
  let far := p.far o.by_.unit
  let first := s.cyc + (if far then 96 else 40)
  s.put o (s.cyc + (if far then 48 else 20)) s.cyc (.send { p with first := first })

/-- The accesses that `BAR`s have put before what a sequencer releases on cycle `iss` (05 R95, 11 R217). -/
def State.foldPends (s : State) (q : SeqId) (iss : Nat) : List Pend :=
  ((s.seq q).marks.filter (fun m => m.kind == .fold && decide (m.from_ ≤ iss))).flatMap (fun m => (s.pends m.who).filter (s.markHolds m))

/-- Every earlier access of the issuing sequencer will have been performed before cycle `a` (12 R256). -/
def State.allPerformed (s : State) (a : Nat) : Bool :=
  (s.pends s.cur).all (fun p => match p.last with | some l => decide (l < a) | none => false)

/-- An `RSIG` or `RATM`, which is a release at group scope (12 R257). -/
def SendPlan.releases (p : SendPlan) : Bool := p.kind == 1 || p.kind == 2

/-- The accesses that a `BAR` has put before an `RSIG` or `RATM` will have been performed before cycle `a` (11 R217, 12 R257). -/
def State.foldPerformed (s : State) (p : SendPlan) (a : Nat) : Bool :=
  !p.releases || (s.foldPends s.cur s.cyc).all (fun p => match p.last with | some l => decide (l < a) | none => false)

/-- Who issues. -/
def State.myOrg (s : State) : Org := ⟨s.cur, s.me.pc, s.myNode, s.me.aligned⟩

/-- The bytes of a window 0x01 range. -/
def State.bytes1 (s : State) (a : Dword) (n : Nat) : List Byte := s.spadBytes (offOf a) n

/-- The length in bytes of the blocks of an image, from its first header byte (12 Table 12-1). -/
def imageLen (head : List Byte) : Nat := 256 * ((head.headD 0).toNat / 2 % 16 + 1)

/-- A send as its checks at issue see it: an image gives its destination and its length as it stands (12 R246, R259). -/
def State.atIssue (s : State) (p : SendPlan) : SendPlan :=
  if p.cls.isNone then
    let head := s.bytes1 p.tmpl 64
    { p with dst := some (BitVec.ofNat 64 (leNat ((head.drop 8).take 8))), len := imageLen head }
  else p

/-- The common body of the send forms: checks 1 to 4, then the send (12 R246, R256, R257). An image is looked at once it can be read: in
free mode after every earlier access of the sequencer. -/
def State.sendForm (s : State) (p : SendPlan) : Verdict :=
  let a := s.cyc + (if p.far s.cur.unit then 48 else 20)
  match s.here.node.bind s.node? with
  | none => .fault { code := .protection }
  | some n =>
    match s.sendFault n p with
    | some r => .fault r
    | none =>
      if p.cls.isNone && !s.me.aligned && !(s.pends s.cur).isEmpty then s.busy (s.cyc + 1)
      else match s.sendFault n (s.atIssue p) with
        | some r => .fault r
        | none =>
          if s.claimed1 p.source (max 256 (s.atIssue p).len) || !s.allPerformed a || !s.foldPerformed p a then s.busy (s.cyc + 1)
          else .ok (s.startSend s.myOrg p)

/-- A plan with nothing read yet. -/
def State.newPlan (s : State) (cls : Option Bool) (kind : Nat) (tmpl : Dword) (src dst : Option Dword) (len : Nat) : SendPlan :=
  { since := s.cyc, cls := cls, kind := kind, tmpl := tmpl, src := src, dst := dst, payload := [], len := len, fn := 0, size := false, reply := none
    hd := none, relay := 0, tokens := 0, planned := s.me.aligned, free := !s.me.aligned, read := false, first := 0, head := [], data := [] }

/-- `RST` (12 R259). -/
def execRst (h : Hdr) (xa xb xc : XReg) (cls : BitVec 1) (xr : XReg) (s : State) : Res :=
  issue h 2 { reads := [s.xDest xa, s.xDest xb, s.xDest xc, s.xDest xr] } (fun s =>
    s.sendForm (s.newPlan (some (cls == 1)) 0 (s.xr xr) (some (s.xr xa)) (some (s.xr xb)) (s.xr xc).toNat)) s

/-- `PSEND` (12 R259). -/
def execPsend (h : Hdr) (xa : XReg) (s : State) : Res :=
  issue h 1 { reads := [s.xDest xa] } (fun s => s.sendForm (s.newPlan none 0 (s.xr xa) none none 0)) s

/-- `RSIG` (12 R260). -/
def execRsig (h : Hdr) (xa xb xr : XReg) (s : State) : Res :=
  issue h 1 { reads := [s.xDest xa, s.xDest xb, s.xDest xr] } (fun s =>
    s.sendForm { s.newPlan (some true) 1 (s.xr xr) none (some (s.xr xa)) 256 with
      payload := leBytes 8 (s.xr xb).toNat ++ List.replicate 248 0 }) s

/-- `RATM` (12 R261). -/
def execRatm (h : Hdr) (xd xa xb : XReg) (fn : BitVec 3) (size : BitVec 1) (xr xc : XReg) (s : State) : Res :=
  issue h 2 { reads := [s.xDest xa, s.xDest xb, s.xDest xr, s.xDest xc], writes := [s.xDest xd] } (fun s =>
    s.sendForm { s.newPlan (some true) 2 (s.xr xr) none (some (s.xr xa)) 256 with
      payload := leBytes 8 (s.xr xb).toNat ++ leBytes 8 (s.xr xc).toNat ++ List.replicate 240 0
      fn := fn.toNat
      size := size == 1
      reply := some xd }) s

/-- A 16-bit and a 64-bit field of bytes. -/
def field16 (bs : List Byte) (o : Nat) : BitVec 16 := BitVec.ofNat 16 (leNat ((bs.drop o).take 2))
def field64 (bs : List Byte) (o : Nat) : Dword := BitVec.ofNat 64 (leNat ((bs.drop o).take 8))
def byteAt (bs : List Byte) (o : Nat) : Nat := (bs.getD o 0).toNat

/-- The words of a range that hold an error are uncorrectable (15 R326). -/
def State.bad1 (s : State) (a : Option Dword) (n : Nat) : Bool :=
  match a with | some a => s.spadBad (offOf a) n | none => false

/-- A send must still wait on its array cycle: an earlier access of its sequencer has not been performed, or one that a `BAR` has put before
what an `RSIG` or `RATM` releases (12 R256, R257, 11 R217). -/
def State.readHeld (s : State) (e : Eff) (p : SendPlan) : Bool :=
  (s.pends e.by_).any (fun x => decide (x.iss < p.since)) || (p.releases && !(s.foldPends e.by_ p.since).isEmpty)

/-- The array cycle of a send: its template and its source are read (12 R243). -/
def State.readSend (s : State) (e : Eff) (p : SendPlan) : State :=
  let head := s.bytes1 p.tmpl 64
  let len := if p.cls.isNone then imageLen head else p.len
  let data := match p.source with | some a => s.bytes1 a len | none => p.payload
  if s.readHeld e p then
    if p.free then { s with effs := s.effs ++ [{ e with at_ := s.cyc + 1, op := .send { p with first := p.first + 1 } }] }
    else s.raiseAt e.by_ e.pc e.node { code := .timing }
  else if s.spadBad (offOf p.tmpl) 64 then s.raiseAt e.by_ e.pc e.node { code := .uncorrectable, addr := p.tmpl.toNat }
  else if s.bad1 p.source len then s.raiseAt e.by_ e.pc e.node { code := .uncorrectable, addr := (p.source.getD 0).toNat }
  else s.put e.org p.first e.iss (.send { p with read := true, head := head, data := data, len := len })

/-- The class of a send, once its template is known. -/
def SendPlan.exact (p : SendPlan) : Bool := match p.cls with | some c => c | none => byteAt p.head 0 % 2 == 1

/-- The destination of a send, once its template is known. -/
def SendPlan.dest (p : SendPlan) : Dword := match p.dst with | some a => a | none => field64 p.head 8

/-- The fault of check 5, the class of an image in free mode, and checks 1 to 3 once more for an image that has changed since its issue
(12 Table 12-4, R246, R259; log 26). -/
def SendPlan.landFault (p : SendPlan) (n : Node) (die : Nat) : Option Raise :=
  let h := p.head
  let e := (field16 h 0x10).toNat
  let image := p.cls.isNone
  if image && p.dest.toNat % 256 ≠ 0 then some { code := .alignment, addr := p.dest.toNat }
  else if image && (win1Fault n (p.tmpl + 256) p.len == some .window || win2Fault n p.dest p.len == some .window) then
    some { code := .window, addr := p.dest.toNat }
  else if image && (win2Fault n p.dest p.len).isSome then some { code := .protection, addr := p.dest.toNat }
  else if image && !p.exact && !p.planned then some { code := .protection, addr := p.tmpl.toNat }
  else if byteAt h 1 ≠ 0 || byteAt h 3 / 64 ≠ 0 || byteAt h 4 / 64 ≠ 0 || byteAt h 5 / 16 ≠ 0 || leNat ((h.drop 0x38).take 4) ≠ 0 || !forwards e || 12 ≤ entryPort e ||
      portDie (entryPort e) ≠ die || !chanOf p.exact (entryChan e) || (image && byteAt h 0 / 32 ≠ 0) ||
      ((p.kind = 1 || p.kind = 2) && byteAt h 0 % 2 = 0) then some { code := .protection, addr := p.tmpl.toNat }
  else none

/-- The packet of a send (12 R241, R259). -/
def SendPlan.packet (p : SendPlan) (n : Node) (die : Nat) : Packet :=
  { exact := p.exact, kind := p.kind, hop := 0, rank := n.rank, die := die
    slot := (match p.hd with | some h => h.val | none => byteAt p.head 4 % 64)
    fn := p.fn, size := (p.hd.isSome || p.size), tag := n.tag, dest := (if 5 ≤ p.kind then 0 else p.dest)
    route := (List.range 12).map (fun i => field16 p.head (0x10 + 2 * i)), counts := List.replicate 16 1
    blocks := (List.range (p.data.length / 256)).map (fun j => ⟨(p.data.drop (256 * j)).take 256, true⟩)
    crcOk := true, reserved := false }

/-- The rank of a window 0x02 address (12 R244). -/
def podRank (a : Dword) : Nat := bitsOf a.toNat 45 34

/-- An earlier send may be an EXACT `RST` or `RATM` to a rank: what an image holds is known once it has been read (12 R257, R259). -/
def SendPlan.exactTo (q : SendPlan) (rank : Nat) : Bool :=
  (q.kind == 0 || q.kind == 2) && ((q.cls.isNone && !q.read) || (q.exact && podRank q.dest == rank))

/-- An earlier EXACT `RST` or `RATM` of the shepherd to the same rank has not been acknowledged, be it still on its way to its port
(12 R257). -/
def State.unacked (s : State) (e : Eff) (rank : Nat) : Bool :=
  (s.core e.by_.unit).slots.toList.any (fun t => t.busy && t.rst && t.dest == rank && decide (t.since < e.iss)) ||
  (s.core e.by_.unit).handles.toList.any (fun h => h.flight.any (fun f => f.1 == 0 && f.2.1 == rank)) ||
  s.effs.any (fun x => x.by_.unit == e.by_.unit && decide (x.iss < e.iss) && (match x.op with
    | .send q => q.exactTo rank
    | _ => false))

/-- A packet acts on the first entry of its route at its sender (12 R243). -/
def State.firstHop (s : State) (o : Org) (p : Packet) : State :=
  let e := p.entry
  let a : Arrival := ⟨Fin.ofNat 12 (entryPort e), s.cyc, p⟩
  match entryAction e with
  | 1 => (s.leaveAt o s.cyc 12 p).1
  | 3 => s.combinePkt o 12 a
  | _ => s.dupPkt a (fun s => s.forwardPkt o 12 a)

/-- The template of a send has landed: check 5, then check 6, which marks its slot; an `RSIG` or `RATM` then waits until what it follows has been
acknowledged, and it leaves (12 R246, R253, R257). -/
def State.landSend (s : State) (e : Eff) (p : SendPlan) : State :=
  match s.node? e.node with
  | none => s
  | some n =>
    let u := e.by_.unit
    let again := { s with effs := s.effs ++ [{ e with at_ := s.cyc + 1 }] }
    match (if e.at_ = p.first then p.landFault n (dieOf u) else none) with
    | some r => s.raiseAt e.by_ e.pc e.node r
    | none =>
      let pkt := p.packet n (dieOf u)
      let slot : Idx64 := Fin.ofNat 64 pkt.slot
      if !p.exact then s.firstHop e.org pkt
      else if p.marked then (if s.unacked e (podRank p.dest) then again else s.firstHop e.org pkt)
      else match p.hd with
        | some hd =>
          let s := s.modCore u (fun c =>
            let h := c.handles.get hd
            { c with handles := c.handles.set hd.val { h with flight := h.flight ++ [(p.kind, podRank p.dest, p.relay, p.tokens)] } hd.isLt })
          s.firstHop e.org pkt
        | none =>
          if ((s.core u).slots.get slot).busy then
            if p.free then again else s.raiseAt e.by_ e.pc e.node { code := .timing }
          else
            let t : SendSlot :=
              { busy := true, dest := podRank p.dest, rst := p.kind ≠ 1, reply := p.reply.map (fun r => (e.by_.q, r, p.size)), since := e.iss }
            let s := s.modCore u (fun c => { c with slots := c.slots.set slot.val t slot.isLt })
            if p.releases && s.unacked e (podRank p.dest) then
              { s with effs := s.effs ++ [{ e with at_ := s.cyc + 1, op := .send { p with marked := true } }] }
            else s.firstHop e.org pkt

/-! ### Receive descriptors (12 R248 to R250, R262) -/

/-- A write that a shepherd's descriptor makes on its close. -/
def State.closeWrite (s : State) (u : UnitId) (c off : Nat) (bs : List Byte) : State :=
  s.put (hopOrg u) (c + dlvOff (dieOf u) off) c (.store (.service u) (cellsAt off bs) (c + dlvOff (dieOf u) off))

/-- The close of an open LOSSY descriptor on this cycle: its writes, and the cycle from which it reads closed (12 R250). -/
def State.closeDesc (s : State) (u : UnitId) (rx : Idx64) : State :=
  let d := s.desc u rx
  let c := s.cyc
  let got (b : Nat) : Option Nat := lookup d.got b
  let missing := (List.range d.e).filter (fun b => (got b).isNone)
  let s := missing.foldl (fun s b => s.closeWrite u c (offOf d.base + 256 * b) (List.replicate 256 0)) s
  let s := if d.maskAddr = 0 then s
    else (List.range d.e).foldl (fun s b =>
      s.closeWrite u c (offOf d.maskAddr + 4 * b) (List.replicate 4 (if (got b).isSome then 0xFF else 0))) s
  let s := if d.countAddr = 0 then s
    else (List.range d.e).foldl (fun s b => s.closeWrite u c (offOf d.countAddr + b) (leBytes 1 ((got b).getD 0))) s
  let here (a : Dword) : Bool := a = 0 || dieOf (coreOf (offOf a)) == dieOf u
  let all := here d.base && here d.maskAddr && here d.countAddr
  let s := match (s.core u).node with
    | some nd => s.modNode nd (fun n => { n with lossyZeros := n.lossyZeros + missing.length })
    | none => s
  s.put (hopOrg u) (c + (if all then 25 else 53)) c (.closed rx d.serial)

/-- `DESCRIPTOR_CLOSE` (12 R250). -/
def execDescriptorClose (unit : UnitId) (rx : Idx64) (serial : Nat) (s : State) : Res :=
  let d := s.desc unit rx
  if d.serial == serial && d.state == .open_ && !d.ex then .next (s.closeDesc unit rx) else .next s

/-- The bytes of a close that has taken effect. -/
def State.descClosed (s : State) (u : UnitId) (rx : Idx64) (serial : Nat) : State :=
  let d := s.desc u rx
  if d.serial == serial && d.state == .open_ then s.setDesc u rx { d with state := .closed } else s

/-- A descriptor is armed by an instruction or a step issued on this cycle (12 R249): an open LOSSY one closes first. -/
def State.arm (s : State) (o : Org) (rx : Idx64) (rec : Dword) : State :=
  let u := o.by_.unit
  let d := s.desc u rx
  let s := if d.state == .open_ && !d.ex && s.cyc ≤ d.close then s.closeDesc u rx else s
  let serial := s.serial
  let s := { s.setDesc u rx { state := .arming, serial := serial, close := s.cyc } with serial := serial + 1 }
  let far := dieOf (coreOf (offOf rec)) != dieOf u
  let t := s.cyc + (if far then 48 else 20)
  let land := s.cyc + (if far then 96 else 40)
  s.put o t s.cyc (.load (span (offOf rec) 32) [] (.record rx serial) land t)

/-- The fault of a record (12 R262). -/
def recordBad (n : Node) (r : List Byte) : Bool :=
  let base := field64 r 0
  let e := byteAt r 8
  let ex := byteAt r 9 % 2 == 1
  let src := (field16 r 0x0A).toNat
  let delta := leNat ((r.drop 0x0C).take 4)
  let mask := field64 r 0x10
  let count := field64 r 0x18
  byteAt r 9 / 4 ≠ 0 || src / 2 ^ 12 % 8 ≠ 0 || e = 0 || 64 < e || (if ex then delta ≠ 0 else delta < 64) ||
  base.toNat % 256 ≠ 0 || (win1Fault n base (256 * e)).isSome ||
  (mask ≠ 0 && (mask.toNat % 4 ≠ 0 || (win1Fault n mask (4 * e)).isSome)) ||
  (count ≠ 0 && (win1Fault n count e).isSome) ||
  (src < 2 ^ 15 && n.size ≤ src % 2 ^ 12)

/-- The record of an arming descriptor lands (12 R249, R262). -/
def State.recordLands (s : State) (e : Eff) (rx : Idx64) (serial : Nat) (r : List Byte) : State :=
  let u := e.by_.unit
  let d := s.desc u rx
  match s.node? e.node with
  | none => s
  | some n =>
    if d.serial ≠ serial || d.state ≠ .arming then s
    else if recordBad n r then s.raiseAt e.by_ e.pc e.node { code := .protection }
    else
      let ex := byteAt r 9 % 2 == 1
      let src := (field16 r 0x0A).toNat
      let delta := leNat ((r.drop 0x0C).take 4)
      let s := s.setDesc u rx
        { d with
          state := .open_, base := field64 r 0, e := byteAt r 8, ex := ex, red := byteAt r 9 / 2 % 2 == 1, rank := src % 2 ^ 12
          any := 2 ^ 15 ≤ src, delta := delta, maskAddr := field64 r 0x10, countAddr := field64 r 0x18, close := e.iss + delta, got := [] }
      if ex then s else s.postIn (e.iss + delta - s.cyc) (.descriptorClose u rx serial)

/-- `RXARM` (12 R249, R262). -/
def execRxarm (h : Hdr) (xa : XReg) (rx : BitVec 6) (s : State) : Res :=
  issue h 1 { reads := [s.xDest xa] } (fun s =>
    let a := s.xr xa
    if a.toNat % 32 ≠ 0 then addrFault .alignment a
    else match s.here.node.bind s.node? with
      | none => addrFault .protection a
      | some n =>
        match win1Fault n a 32 with
        | some .window => addrFault .window a
        | some c => addrFault c a
        | none =>
          if !s.onFabric n then .fault { code := .protection }
          else if s.claimed (offOf a) 32 then s.busy (s.cyc + 1)
          else .ok (s.arm s.myOrg rx.toFin a)) s

/-- A descriptor reads true: closed, complete or idle (12 R262). -/
def Desc.settled (d : Desc) : Bool := d.state == .idle || d.state == .closed || d.state == .complete

/-- The fabric forms outside the fabric partition raise PROTECTION (12 R245). -/
def State.offFabric (s : State) : Bool :=
  match s.here.node.bind s.node? with | some n => !s.onFabric n | none => true

/-- `RXCHK` (12 R262). -/
def execRxchk (h : Hdr) (pd : PReg) (rx : BitVec 6) (s : State) : Res :=
  issue h 1 { writes := [s.pDest pd] } (fun s =>
    if s.offFabric then .fault { code := .protection }
    else s.checkForm h pd (s.here.descs.get rx.toFin).settled) s

/-- The blocks that a descriptor has received, one bit each; none while it arms (12 R249, R262). -/
def Desc.gotBits (d : Desc) : Dword :=
  if d.state == .arming then 0
  else BitVec.ofNat 64 ((List.range d.e).foldl (fun v b => if (lookup d.got b).isSome then v + 2 ^ b else v) 0)

/-- `RXMSK` (12 R262). -/
def execRxmsk (h : Hdr) (xd : XReg) (rx : BitVec 6) (s : State) : Res :=
  issue h 1 { writes := [s.xDest xd] } (fun s =>
    if s.offFabric then .fault { code := .protection }
    else .ok (s.laterX h xd 2 (s.here.descs.get rx.toFin).gotBits)) s

/-- A block received by a descriptor. -/
def Desc.take (d : Desc) (blk cnt : Nat) : Desc :=
  let got := insertKey d.got blk cnt
  { d with got := got, state := (if d.ex && d.e ≤ got.length then .complete else d.state) }

/-- The array cycle of a LOSSY block: written when it is on time for the close, else counted as late (12 R250). -/
def State.blockLands (s : State) (e : Eff) (port : PortId) (rx : Idx64) (serial blk cnt off : Nat) (data : List Byte) : State :=
  let u := e.by_.unit
  let d := s.desc u rx
  if d.serial == serial && decide (s.cyc ≤ d.close) then
    (s.writeSpad (cellsAt off data)).setDesc u rx (d.take blk cnt)
  else s.countLate port 1

/-- The array cycle of an EXACT block (12 R249, R253). -/
def State.exactLands (s : State) (e : Eff) (rx : Option Idx64) (off : Nat) (data : List Byte) (done : Option Nat) : State :=
  let u := e.by_.unit
  let s := s.writeSpad (cellsAt off data)
  let s := match rx with
    | none => s
    | some rx =>
      let d := s.desc u rx
      let base := offOf d.base
      if d.state == .open_ && d.ex && base ≤ off && off < base + 256 * d.e then s.setDesc u rx (d.take ((off - base) / 256) 1) else s
  match done.bind s.heldOf with
  | none => s
  | some (u, h) => (s.answer h 4 0).freeHeld u h.id

/-- The array cycle of a block at an RDC hop: the buffer and the packet in transit take the result (12 R251). -/
def State.combineLands (s : State) (e : Eff) (port : PortId) (key j : Nat) (rx : Idx64) (serial blk off : Nat) (op : Bool) : State :=
  match s.transit.find? (fun t => t.1 == key) with
  | none => s
  | some (_, p) =>
    match p.blocks[j]? with
    | none => s
    | some b =>
      let u := e.by_.unit
      if s.spadBad off 256 then s.partReadsBad u off else
      let r := combineBlock op b.crcOk (p.counts.getD j 0) b.data (s.spadBytes off 256)
      let p := { p with blocks := p.blocks.set j ⟨r.1, true⟩, counts := p.counts.set j r.2 }
      let s := { s.writeSpad (cellsAt off r.1) with transit := s.transit.map (fun t => if t.1 == key then (key, p) else t) }
      let s := if b.crcOk then s else s.countBad port
      let d := s.desc u rx
      if d.serial == serial then s.setDesc u rx (d.take blk r.2) else s

/-! ### Step mailbox, link status, guard intervals, links -/

/-- The accesses that a post of a sequencer on cycle `iss` must follow, as a release at die scope (11 R217, 12 R266). -/
def State.unreleased (s : State) (q : SeqId) (iss : Nat) : List Pend :=
  (s.pends q).filter (fun p => decide (p.iss < iss) && (p.acq || (p.oc.isSome && !s.loose q p iss))) ++ s.foldPends q iss

/-- A post can not be taken eight cycles from now: an access that it releases will not have acted. -/
def State.releaseHeld (s : State) : Bool :=
  (s.unreleased s.cur s.cyc).any (fun p => match p.last with | some l => decide (s.cyc + 8 ≤ l) | none => true)

/-- A post enters the mailbox eight cycles after its issue, to be taken from then on (12 R266). -/
def State.post (s : State) (h : Hdr) (v : Dword) : State :=
  s.later h (s.cyc + 8) false false (.postStep (s.shepFor s.cur.unit) (v &&& 0x00FFFFFFFFFFFFFF))

/-- `STEPREQ` (12 R266): of several that wait, the one that finds no room on its timeout cycle raises its timeout. -/
def execStepreq (h : Hdr) (xa xt : XReg) (s : State) : Res :=
  match s.me.wait with
  | some w =>
    if s.waitMet s.cur w.what then .next ((s.post h (s.xr xa)).retire 1 0)
    else if w.tmo ≠ 0 && w.t0 + w.tmo ≤ s.cyc then .next (s.timeoutNow s.cur w)
    else .next s
  | none =>
    issue h 1 { reads := [s.xDest xa, s.xDest xt] } (fun s =>
      if s.offFabric then .fault { code := .protection }
      else if s.releaseHeld then s.busy (s.cyc + 1)
      else if s.posts (s.shepFor s.cur.unit) < 16 then .ok (s.post h (s.xr xa))
      else if s.me.aligned then .fault { code := .timing }
      else .hold (s.beginWait h .mailbox (s.xr xt))) s

/-- A post enters the mailbox, unless an access that it releases has been moved and has not acted (11 R217, 12 R266). -/
def State.postLands (s : State) (e : Eff) (dest : UnitId) (v : Dword) : State :=
  if !(s.unreleased e.by_ e.iss).isEmpty then { s with effs := s.effs ++ [{ e with at_ := s.cyc + 1 }] }
  else s.modCore dest (fun c => { c with mailbox := c.mailbox ++ [⟨e.by_.unit, v⟩] })

/-- The value of an entry of the mailbox: a one, the unit that posted, and what it posted (12 R266). -/
def Post.word (p : Post) : Dword := BitVec.ofNat 64 (2 ^ 63 + p.unit.val * 2 ^ 56 + p.value.toNat % 2 ^ 56)

/-- `STEPGET` (12 R266): the oldest entry is taken at once; its value lands two cycles later. A squashable one in a branch's shadow
keeps the entry until the branch has resolved (06 R119). -/
def execStepget (h : Hdr) (xd : XReg) (s : State) : Res :=
  issue h 1 { writes := [s.xDest xd] } (fun s =>
    if s.offFabric then .fault { code := .protection }
    else match s.here.mailbox with
      | [] => .ok (s.laterX h xd 2 0)
      | p :: rest =>
        let t := (s.modHere (fun c => { c with mailbox := rest })).laterX h xd 2 p.word
        match s.unresolved with
        | some b => .ok (if h.sq then t.later h b false true (.takeStep p) else t)
        | none => .ok t) s

/-- The status of a port (12 Table 12-11). -/
def State.linkStatus (s : State) (p : PortId) : Dword :=
  let q := s.port p
  let b (v : Bool) (n : Nat) : Nat := if v then 2 ^ n else 0
  BitVec.ofNat 64 (q.reach % 256 * 2 ^ 56 + q.late * 2 ^ 44 + q.badCrc * 2 ^ 32 + q.stray * 2 ^ 20 + q.fill % 256 * 2 ^ 8 +
    b s.fabric.isSome 3 + b q.replay 2 + b q.trained 1 + b q.up 0)

/-- `LNKST` (12 R267). -/
def execLnkst (h : Hdr) (xd : XReg) (port : BitVec 4) (s : State) : Res :=
  issue h 1 { writes := [s.xDest xd] } (fun s => .ok (s.laterX h xd 2 (s.linkStatus (Fin.ofNat 12 port.toNat)))) s

/-- `GUARD` (13 R291). -/
def execGuard (h : Hdr) (port : BitVec 4) (beats : BitVec 8) (s : State) : Res :=
  issue h 1 {} (fun s =>
    if s.offFabric || portDie port.toNat ≠ dieOf s.cur.unit then .fault { code := .protection }
    else .ok (s.postMine 40 (.guardIntervalStart s.cur.unit (Fin.ofNat 12 port.toNat) beats.toNat s.me.aligned s.me.pc))) s

/-- `GUARD_INTERVAL_START` (13 R291): the interval starts when all three channels are idle; an aligned one must find them so. -/
def execGuardIntervalStart (unit : UnitId) (port : PortId) (beats : Nat) (aligned : Bool) (pc : Dword) (s : State) : Res :=
  let q := s.port port
  let busy := q.chan.toList.any (fun l => inside l s.cyc)
  if !q.up then .next s
  else if !busy then .next (s.modPort port (fun q =>
    { q with guards := q.guards.filter (fun r => s.cyc ≤ r.2) ++ [(s.cyc, s.cyc + 2 * beats - 1)] }))
  else if aligned then .next (match (s.core unit).node.bind s.node? with
    | some n => if n.t0 ≤ s.evIss then s.raiseAt ⟨unit, .st⟩ pc n.nd { code := .timing } else s
    | none => s)
  else
    .next { s with agenda := s.agenda ++
      [{ due := .cyc (s.cyc + 1), ev := .guardIntervalStart unit port beats aligned pc, node := (s.core unit).node, iss := s.evIss }] }

/-- `LINK_REPLAY` (12 R252): after eight replays without success, `LINK`. -/
def execLinkReplay (port : PortId) (ok : Bool) (s : State) : Res :=
  s.unlessFailed <|
  let n := if ok then 0 else (s.port port).replays + 1
  let s := s.modPort port (fun q => { q with replay := !ok && n < 8, replays := (if n < 8 then n else 0) })
  .next (if n < 8 then s else s.raiseLink (s.portShep port).val)

/-- `ELASTIC_BUFFER_LIMIT` (12 R255, 13 R285): the fill of the buffer; at either limit, `LINK`. -/
def execElasticBufferLimit (port : PortId) (fill : Nat) (s : State) : Res :=
  s.unlessFailed <|
  let s := s.modPort port (fun q => { q with fill := fill })
  .next (if fill ≤ 16 || 240 ≤ fill then s.raiseLink (s.portShep port).val else s)

/-- A link has been trained with a reach (12 R239). -/
def State.retrainLink (s : State) (port : PortId) (reach : Nat) : State :=
  s.modPort port (fun q => { q with reach := reach, fill := 128, trained := true, up := true, deferred := none })

/-- A re-training may change the reach of a port: within a guard interval, and while no node of the fabric partition runs (12 R239,
17 R367). -/
def State.mayChangeReach (s : State) (port : PortId) : Bool :=
  inside (s.port port).guards s.cyc && !s.nodes.any (fun n => some n.part == s.fabric && n.live)

/-- `LINK_TRAINING` (12 R239, 17 R367): a reach of 1 to 255 cycles, fixed at bring-up; only re-training within a guard interval changes it, and
that is deferred until no node of the fabric partition runs. -/
def execLinkTraining (port : PortId) (reach : Nat) (s : State) : Res :=
  s.unlessFailed <|
  let q := s.port port
  let again := decide (q.reach = reach) && (!q.trained || inside q.guards s.cyc)
  if reach = 0 || 255 < reach then .next s
  else if q.reach = 0 || again || (q.reach ≠ reach && s.mayChangeReach port) then
    .next (s.modPort port (fun q => { q with reach := reach, trained := true, up := true, fill := 128, replays := 0, replay := false, quietFrom := s.cyc }))
  else if q.reach ≠ reach && inside q.guards s.cyc then .next (s.modPort port (fun q => { q with deferred := some reach }))
  else .next s

/-- Deferred re-trainings take place as soon as they may (17 R367). -/
def State.retrainDeferred (s : State) : State :=
  (List.finRange 12).foldl (fun s p => match (s.port p).deferred with
    | some r => if s.mayChangeReach p then s.retrainLink p r else s
    | none => s) s

/-- Requests of window 0x20 on a host port that goes down fail: they return PROTECTION (17 R359). -/
def State.hostPortDown (s : State) (p : Nat) : State :=
  { s with hostDown := (if s.hostDown.contains p then s.hostDown else s.hostDown ++ [p]) }

/-- `LINK_DOWN` (12 R252, 17 R359): ports 0 to 11 are Wying ports, 12 and 13 the host ports. -/
def execLinkDown (port : Nat) (s : State) : Res :=
  s.unlessFailed <|
  if port < 12 then .next (s.modPort (Fin.ofNat 12 port) (fun q => { q with up := false, trained := false }))
  else .next (s.hostPortDown (port - 12))

end Sys2Proof.Machine
end

