-- ==== Sys2Proof/Machine/Collect.lean ====
section
/-! DEFINITION. Route programs and the two-stage exchange of the shepherd cores (12 R263 to R265). -/

namespace Sys2Proof.Machine
open Host

/-! ### Handles -/

def State.handle (s : State) (u : UnitId) (hd : Idx64) : Handle := (s.core u).handles.get hd

def State.setHandle (s : State) (u : UnitId) (hd : Idx64) (h : Handle) : State :=
  s.modCore u (fun c => { c with handles := c.handles.set hd.val h hd.isLt })

/-- Sends of a handle that have not been acknowledged: in flight, or still on their way to their port; own sends, or those that
pass on another package's tokens. -/
def State.sendsOut (s : State) (u : UnitId) (hd : Idx64) (own : Bool) : Nat :=
  ((s.handle u hd).flight.filter (fun f => (f.2.2.1 == 0) == own)).length +
  (s.effs.filter (fun e => e.by_.unit == u && (match e.op with
    | .send p => p.hd == some hd && (p.relay == 0) == own
    | _ => false))).length

/-- The program or exchange of a handle is complete (12 R264, R265). -/
def State.handleEnds (s : State) (u : UnitId) (hd : Idx64) : Bool :=
  let h := s.handle u hd
  h.busy && (if h.exchange then h.xw != 0 && h.tokens == 0
    else h.s != 0 && h.done == h.s && s.sendsOut u hd true == 0 &&
      h.armed.all (fun r => (s.desc u (Fin.ofNat 64 r)).settled))

/-- The next packet of an exchange for which W leaves room: the checks of a send, and it starts (12 R246, R265). -/
def State.pumpOut (s : State) (u : UnitId) (hd : Idx64) : State :=
  let h := s.handle u hd
  match h.outq.find? (fun p => s.sendsOut u hd (p.relay == 0) < h.xw), s.node? h.node with
  | some p, some n =>
    let t := s.setHandle u hd { h with outq := h.outq.erase p }
    match s.sendFault n p with
    | some r => t.raiseAt ⟨u, .st⟩ h.pc h.node r
    | none => t.startSend ⟨⟨u, .st⟩, h.pc, h.node, false⟩ p
  | _, _ => s

/-- The shepherd-core sites. -/
def shepSites : List UnitId := (List.range 8).map (fun k => unitOf (32 + k))

/-- The handles of a shepherd that have completed become idle (12 R264, R265). -/
def State.endHandlesOf (s : State) (u : UnitId) : State :=
  (List.finRange 64).foldl (fun s hd =>
    if s.handleEnds u hd then s.setHandle u hd { s.handle u hd with busy := false } else s) s

def State.endHandles (s : State) : State := shepSites.foldl State.endHandlesOf s

/-- The handles at the end of a cycle's events: packets start, completed handles become idle. -/
def State.settleHandles (s : State) : State :=
  (shepSites.foldl (fun s u => (List.finRange 64).foldl (fun s hd =>
    if (s.handle u hd).outq.isEmpty then s else s.pumpOut u hd) s) s).endHandles

/-! ### `COLL` (12 R263, R264) -/

/-- The checks that `COLL` and `A2A` make on their list at issue (12 Table 12-4, orders 1 to 3). -/
def State.listFault (s : State) (n : Node) (a : Dword) (len : Nat) : Option Raise :=
  if a.toNat % 64 ≠ 0 then some { code := .alignment, addr := a.toNat }
  else match win1Fault n a len with
    | some .window => some { code := .window, addr := a.toNat }
    | c =>
      if !s.onFabric n then some { code := .protection }
      else if c.isSome then some { code := .protection, addr := a.toNat } else none

/-- `COLL` (12 R264): what the handle still passes on for an exchange of other packages stays with it (12 R265). -/
def execColl (h : Hdr) (xa : XReg) (hd : BitVec 6) (s : State) : Res :=
  issue h 1 { reads := [s.xDest xa] } (fun s =>
    match s.here.node.bind s.node? with
    | none => .fault { code := .protection }
    | some n =>
      match s.listFault n (s.xr xa) 32 with
      | some r => .fault r
      | none =>
        if (s.handle s.cur.unit hd.toFin).busy || s.claimed (offOf (s.xr xa)) 32 || !s.allPerformed (s.cyc + 63) then s.busy (s.cyc + 1)
        else
          let old := s.handle s.cur.unit hd.toFin
          let hnd : Handle :=
            { busy := true, addr := s.xr xa, t := s.cyc, aligned := s.me.aligned, pc := s.me.pc, node := n.nd
              flight := old.flight, xw := old.xw, count := old.count, outq := old.outq, tab1 := old.tab1, tab2 := old.tab2, relays := old.relays }
          .ok ((s.setHandle s.cur.unit hd.toFin hnd).put s.myOrg (s.cyc + 63) s.cyc (.head hd.toFin))) s

/-- `COLLW` (12 R264). -/
def execCollw (h : Hdr) (hd : BitVec 6) (xt : XReg) (s : State) : Res :=
  if s.me.wait.isNone && s.offFabric then issue h 1 { reads := [s.xDest xt], waiting := true, serial := true } (fun _ => .fault { code := .protection }) s
  else waitForm h [s.xDest xt] (fun _ => .handle hd.toFin) (fun s => s.xr xt) s

/-- A head breaks Table 12-10 (12 R264). -/
def headBad (r : List Byte) : Bool :=
  let n := (field16 r 0).toNat
  let w := byteAt r 3
  let exact := byteAt r 2 % 2 == 1
  n = 0 || 1024 < n || byteAt r 2 / 2 ≠ 0 || (if exact then w = 0 || 64 < w else w ≠ 0) || (r.drop 4).any (fun b => b != 0)

/-- The head of a route program is read (12 R264). -/
def State.readHead (s : State) (e : Eff) (hd : Idx64) : State :=
  let u := e.by_.unit
  let h := s.handle u hd
  let r := s.bytes1 h.addr 32
  let exact := byteAt r 2 % 2 == 1
  if s.spadBad (offOf h.addr) 32 then s.raiseAt e.by_ e.pc e.node { code := .uncorrectable, addr := h.addr.toNat }
  else if headBad r || (!exact && !h.aligned) then s.raiseAt e.by_ e.pc e.node { code := .protection, addr := h.addr.toNat }
  else
    let s := s.setHandle u hd { h with s := (field16 r 0).toNat, exact := exact, w := byteAt r 3 }
    { s with agenda := s.agenda ++ [{ due := .cyc (s.cyc + 1), ev := .collStep u hd 0, node := some e.node, iss := e.iss }] }

/-- A step breaks Table 12-10 (12 R264). -/
def stepBad (j : Nat) (r : List Byte) : Bool :=
  let op := byteAt r 4
  leNat (r.take 4) < 128 + j || (op ≠ 1 && op ≠ 2) || byteAt r 5 / 64 % 2 ≠ 0 || (op = 2 && byteAt r 5 / 128 ≠ 0) ||
  (op = 1 && 16 ≤ byteAt r 6) || byteAt r 7 ≠ 0

/-- Step `j` again on a later cycle. -/
def State.stepAt (s : State) (c : Nat) (u : UnitId) (hd : Idx64) (j : Nat) : State :=
  let h := s.handle u hd
  { s with agenda := s.agenda ++ [{ due := .cyc c, ev := .collStep u hd j, node := some h.node, iss := h.t }] }

/-- Step `j` is read (12 R264). -/
def State.readStep (s : State) (u : UnitId) (hd : Idx64) (j : Nat) : State :=
  let h := s.handle u hd
  let a := h.addr + BitVec.ofNat 64 (32 + 32 * j)
  let r := s.bytes1 a 32
  let q : SeqId := ⟨u, .st⟩
  match (s.node? h.node).bind (fun n => win1Fault n a 32) with
  | some c => s.raiseAt q h.pc h.node { code := c, addr := a.toNat }
  | none =>
    if s.spadBad (offOf a) 32 then s.raiseAt q h.pc h.node { code := .uncorrectable, addr := a.toNat }
    else if stepBad j r then s.raiseAt q h.pc h.node { code := .protection, addr := a.toNat }
    else
      let s := (s.setHandle u hd { h with steps := h.steps ++ [r] }).stepAt (h.t + leNat (r.take 4)) u hd j
      if j + 1 < h.s then s.stepAt (s.cyc + 1) u hd (j + 1) else s

/-- The send of a step (12 R264). -/
def stepPlan (h : Handle) (hd : Idx64) (r : List Byte) : SendPlan :=
  { since := h.t, cls := some h.exact, kind := 0, tmpl := field64 r 8, src := some (field64 r 16), dst := some (field64 r 24), payload := []
    len := 256 * (byteAt r 6 + 1), fn := 0, size := false, reply := none, hd := (if h.exact then some hd else none), relay := 0, tokens := 0
    planned := true, free := !h.aligned, read := false, first := 0, head := [], data := [] }

/-- Step `j` runs on its planned cycle, or for an EXACT program once it may (12 R264). -/
def State.runStep (s : State) (u : UnitId) (hd : Idx64) (j : Nat) (r : List Byte) : State :=
  let h := s.handle u hd
  let q : SeqId := ⟨u, .st⟩
  let o : Org := ⟨q, h.pc, h.node, h.aligned && !h.exact⟩
  let send := byteAt r 4 = 1
  let rx : Idx64 := Fin.ofNat 64 (byteAt r 5 % 64)
  let free := !(send && byteAt r 5 < 128) || (s.desc u rx).settled
  let after := s.setHandle u hd { h with done := h.done + 1 }
  match s.node? h.node with
  | none => s
  | some n =>
    if h.exact && (j ≠ h.done || !free || h.w ≤ s.sendsOut u hd true) then s.stepAt (s.cyc + 1) u hd j
    else if !free then s.raiseAt q h.pc h.node { code := .timing }
    else if send then
      let p := stepPlan h hd r
      match s.sendFault n p with
      | some f => s.raiseAt q h.pc h.node f
      | none =>
        if s.claimed1 p.source p.len then
          if h.exact then s.stepAt (s.cyc + 1) u hd j else s.raiseAt q h.pc h.node { code := .timing }
        else after.startSend o p
    else
      let rec_ := field64 r 8
      if rec_.toNat % 32 ≠ 0 then s.raiseAt q h.pc h.node { code := .alignment, addr := rec_.toNat }
      else match win1Fault n rec_ 32 with
        | some c => s.raiseAt q h.pc h.node { code := c, addr := rec_.toNat }
        | none =>
          if s.claimed (offOf rec_) 32 then
            if h.exact then s.stepAt (s.cyc + 1) u hd j else s.raiseAt q h.pc h.node { code := .timing }
          else (after.setHandle u hd { h with done := h.done + 1, armed := rx.val :: h.armed }).arm o rx rec_

/-- `COLL_STEP` (12 R264): first the step is read, then, on its cycle, it runs. -/
def execCollStep (unit : UnitId) (hd : Idx64) (j : Nat) (s : State) : Res :=
  let h := s.handle unit hd
  if !h.busy || h.s ≤ j then .next s
  else match h.steps[j]? with
    | some r => .next (s.runStep unit hd j r)
    | none => .next (s.readStep unit hd j)

/-! ### `A2A` (12 R265) -/

/-- Elements in groups by a key, the groups in the order of their first elements. -/
def groupsOf {α : Type} (key : α → Nat) (l : List α) : List (Nat × List α) :=
  ((l.map key).eraseDups).map (fun k => (k, l.filter (fun a => key a == k)))

/-- A list in pieces of at most `n`; the first argument bounds the number of pieces. -/
def chunks {α : Type} : Nat → Nat → List α → List (List α)
  | 0, _, _ => []
  | _, _, [] => []
  | fuel + 1, n, l => l.take n :: chunks fuel n (l.drop n)

/-- A token: its destination and its data (12 R265). -/
abbrev Token := Dword × List Byte

/-- A token, and whether it was read from a core of another die than the sender's (12 R243). -/
abbrev Loaded := Token × Bool

/-- The packets of a group of tokens: up to 15 data blocks after an address block. DESIGN CHOICE (log 25): the function field tells which of
the handle's exchanges they belong to (12 R265). -/
def tokenPackets (since kind count : Nat) (tmpl : Dword) (rank relay : Nat) (hd : Idx64) (l : List Loaded) : List SendPlan :=
  (chunks l.length 15 l).map (fun g =>
    let ts := g.map (·.1)
    let addrs := ts.flatMap (fun t => leBytes 8 t.1.toNat)
    let blocks := (addrs ++ List.replicate (256 - addrs.length) 0) ++ ts.flatMap (·.2)
    { since := since, cls := some true, kind := kind, tmpl := tmpl, src := none, dst := some (BitVec.ofNat 64 (2 ^ 57 + rank * 2 ^ 34))
      payload := blocks, len := blocks.length, fn := count % 8, size := true, reply := none, hd := some hd, relay := relay, tokens := ts.length
      planned := true, free := true, read := false, first := 0, head := [], data := [], away := g.any (·.2) })

/-- A token for a core of this package is written; one for a core that is not granted is dropped (12 R244, R265). -/
def State.tokenHere (s : State) (u : UnitId) (t : Token) (done : Option Nat) : State :=
  let off := podOff t.1
  let at_ := s.cyc + dlvOff (dieOf u) off
  if s.destGranted off then s.put (hopOrg u) at_ s.cyc (.exact none off t.2 done)
  else match done.bind s.heldOf with
    | some (v, h) => (s.answer h 4 0).freeHeld v h.id
    | none => s

/-- Stage 2: tokens of this package's line, by rail; those of its own rail are delivered here (12 R265). -/
def State.stage2 (s : State) (u : UnitId) (n : Node) (hd : Idx64) (relay : Nat) (l : List Loaded) : State :=
  let rail (t : Loaded) : Nat := podRank t.1.1 % 8
  let mine := l.filter (fun t => rail t == n.rank % 8)
  let s := mine.foldl (fun s t => s.tokenHere u t.1 none) s
  let s := if mine.isEmpty then s else s.put (hopOrg u) (s.cyc + 53) s.cyc (.tokensDone hd relay mine.length)
  let h := s.handle u hd
  let out := (groupsOf rail (l.filter (fun t => rail t != n.rank % 8))).flatMap (fun g =>
    tokenPackets h.t 6 h.count (h.tab2 + BitVec.ofNat 64 (64 * g.1)) (n.rank / 8 * 8 + g.1) relay hd g.2)
  s.setHandle u hd { h with outq := h.outq ++ out }

/-- `A2A` (12 R265). -/
def execA2a (h : Hdr) (xa xb : XReg) (hd : BitVec 6) (s : State) : Res :=
  issue h 1 { reads := [s.xDest xa, s.xDest xb] } (fun s =>
    match s.here.node.bind s.node? with
    | none => .fault { code := .protection }
    | some n =>
      let a := s.xr xa
      let far := dieOf (coreOf (offOf a)) != dieOf s.cur.unit
      let t := s.cyc + (if far then 48 else 20)
      match s.listFault n a (64 + 16 * (s.xr xb).toNat) with
      | some r => .fault r
      | none =>
        if n.size % 8 ≠ 0 then .fault { code := .protection }
        else if (s.handle s.cur.unit hd.toFin).busy || s.claimed (offOf a) (64 + 16 * (s.xr xb).toNat) || !s.allPerformed t then
          s.busy (s.cyc + 1)
        else
          let old := s.handle s.cur.unit hd.toFin
          let hnd : Handle :=
            { old with
              busy := true, exchange := true, exact := true, xw := 0, count := old.count + 1, addr := a, t := s.cyc, aligned := s.me.aligned, pc := s.me.pc
              node := n.nd, tokens := (s.xr xb).toNat }
          .ok ((s.setHandle s.cur.unit hd.toFin hnd).put s.myOrg t s.cyc (.exchange hd.toFin a (s.xr xb).toNat false))) s

/-- The fault of a token (12 Table 12-4). -/
def tokenFault (n : Node) (src dst : Dword) : Option Raise :=
  if src.toNat % 256 ≠ 0 then some { code := .alignment, addr := src.toNat }
  else if dst.toNat % 256 ≠ 0 then some { code := .alignment, addr := dst.toNat }
  else match win1Fault n src 256, win2Fault n dst 256 with
    | some .window, _ => some { code := .window, addr := src.toNat }
    | _, some .window => some { code := .window, addr := dst.toNat }
    | some c, _ => some { code := c, addr := src.toNat }
    | _, some c => some { code := c, addr := dst.toNat }
    | none, none => none

/-- The list of an exchange is read, with the tokens it names, once every earlier access has been performed, and stage 1 begins; where a token
lies in a core of another die, the tokens are read on that row's array cycle (12 Table 12-3, R245, R256, R265). -/
def State.readExchange (s : State) (e : Eff) (hd : Idx64) (list : Dword) (count : Nat) (listed : Bool) : State :=
  let u := e.by_.unit
  let h := s.handle u hd
  let head := s.bytes1 list 64
  let w := byteAt head 16
  match s.node? e.node with
  | none => s
  | some n =>
    let toks := (List.range count).map (fun k =>
      let r := s.bytes1 (list + BitVec.ofNat 64 (64 + 16 * k)) 16
      (field64 r 0, field64 r 8))
    if (s.pends e.by_).any (fun x => decide (x.iss < e.iss)) then
      if h.aligned then s.raiseAt e.by_ e.pc e.node { code := .timing } else { s with effs := s.effs ++ [{ e with at_ := s.cyc + 1 }] }
    else if s.spadBad (offOf list) (64 + 16 * count) then
      s.raiseAt e.by_ e.pc e.node { code := .uncorrectable, addr := list.toNat }
    else if (head.drop 17).any (fun b => b != 0) || w = 0 || 64 < w then
      s.raiseAt e.by_ e.pc e.node { code := .protection, addr := list.toNat }
    else if toks.any (fun t => s.claimed1 (some t.1) 256) then
      if h.aligned then s.raiseAt e.by_ e.pc e.node { code := .timing } else { s with effs := s.effs ++ [{ e with at_ := s.cyc + 1 }] }
    else match toks.findSome? (fun t => tokenFault n t.1 t.2) with
      | some r => s.raiseAt e.by_ e.pc e.node r
      | none =>
      let far (a : Dword) : Bool := dieOf (coreOf (offOf a)) != dieOf u
      if !listed && toks.any (fun t => far t.1) && decide (s.cyc < e.iss + 48) then
        { s with effs := s.effs ++ [{ e with at_ := e.iss + 48, op := .exchange hd list count true }] }
      else match toks.find? (fun t => s.spadBad (offOf t.1) 256) with
      | some t => s.raiseAt e.by_ e.pc e.node { code := .uncorrectable, addr := t.1.toNat }
      | none =>
        let l : List Loaded := toks.map (fun t => ((t.2, s.bytes1 t.1 256), far t.1))
        let line (t : Loaded) : Nat := podRank t.1.1 / 8
        let tab1 := field64 head 0
        let out := (groupsOf line (l.filter (fun t => line t != n.rank / 8))).flatMap (fun g =>
          tokenPackets h.t 5 h.count (tab1 + BitVec.ofNat 64 (64 * g.1)) (8 * g.1 + n.rank % 8) 0 hd g.2)
        let s := s.setHandle u hd { h with xw := w, tab1 := tab1, tab2 := field64 head 8, outq := h.outq ++ out }
        s.stage2 u n hd 0 (l.filter (fun t => line t == n.rank / 8))

/-- The tokens of a packet of an exchange (12 R265). -/
def packetTokens (p : Packet) : List Token :=
  match p.blocks with
  | [] => []
  | b :: bs => bs.zipIdx.map (fun d => (field64 b.data (8 * d.2), d.1.data))

/-- The number of the buffered packet that an arrival brought. -/
def State.heldId (s : State) (u : UnitId) (a : Arrival) : Option Nat := ((s.core u).exbuf.find? (fun h => h.a == a)).map (·.id)

/-- The package has not issued the `A2A` of a stage-1 packet, or not read its list (12 R265). -/
def Handle.early (h : Handle) (p : Packet) : Bool :=
  let ahead := (p.fn + 8 - h.count % 8) % 8
  h.xw == 0 || (decide (1 ≤ ahead) && decide (ahead < 4))

/-- `EXCHANGE_STAGE_1` (12 R265): the packet waits in its buffer until the package has issued its `A2A` on the handle. -/
def execExchangeStage1 (a : Arrival) (s : State) : Res :=
  let u := s.portShep a.port
  let hd : Idx64 := Fin.ofNat 64 a.pkt.slot
  let h := s.handle u hd
  if h.early a.pkt then .next (s.postIn 1 (.exchangeStage1 a))
  else match s.groupNode with
    | none => .next s
    | some n =>
      let toks := packetTokens a.pkt
      let id := s.serial
      let s := { s with serial := id + 1 }
      let s := s.setHandle u hd { h with relays := h.relays ++ [(id, toks.length, a.pkt, a.port)] }
      let s := match s.heldId u a with
        | some k => s.freeHeld u k
        | none => s
      .next (s.stage2 u n hd id (toks.map (fun t => (t, false))))

/-- The token of a packet whose write acts last: of a core on another die where there is one, and the last of those (12 Table 12-3,
R253). -/
def State.lastToken (s : State) (u : UnitId) (toks : List Token) : Nat :=
  let key (t : Token × Nat) : Nat := if s.destGranted (podOff t.1.1) then dlvOff (dieOf u) (podOff t.1.1) else 0
  (toks.zipIdx.foldl (fun m t => if m.1 ≤ key t then (key t, t.2) else m) (0, 0)).2

/-- `EXCHANGE_STAGE_2` (12 R265): the packet is answered when the last of its tokens has been written. -/
def execExchangeStage2 (a : Arrival) (s : State) : Res :=
  let u := s.portShep a.port
  let toks := packetTokens a.pkt
  let last := s.lastToken u toks
  .next (toks.zipIdx.foldl (fun s t => s.tokenHere u t.1 (if t.2 == last then s.heldId u a else none)) s)

end Sys2Proof.Machine
end

