-- ==== Sys2Proof/Machine/Group.lean ====
section
/-! DEFINITION. The group: drone exchanges, droop and catch-up, notices, beacons, silence, the GROUP fault and emergency throttle
(13 R268 to R283). -/

namespace Sys2Proof.Machine
open Host

/-! ### Clock -/

/-- The pitch changes on this cycle, to a code from 250 to 1000; the fraction of a nanosecond keeps its value (01 R8, 13 R277, log 3). -/
def State.setPitch (s : State) (p : Nat) : State :=
  let p := max 250 (min 1000 p)
  { s with pitch := p, droneRem := s.droneRem * p / s.pitch }

/-- N is set to `CYC` (13 R272). -/
def State.clearSlip (s : State) : State := { s with n65 := 65 * s.cyc, catchUp := false }

/-- Drone time of one cycle, in units of 1 / (65 × pitch) ns: the clock is locked to N, which advances 0.004 × pitch cycles for each
nanosecond of drone time, and in catch-up runs at 65/64 of that (13 R272, R273; log 3). -/
def cycleUnits (catching : Bool) : Nat := 250 * (if catching then 64 else 65)

/-- Drone time advances by a number of units. -/
def State.addDrone (s : State) (u : Nat) : State :=
  let r := s.droneRem + u
  let ns := s.pitch * 65
  { s with drone := s.drone + r / ns, droneRem := r % ns }

/-- `SUPPLY_DROOP` (13 R273): cycles are lost while drone time goes on. -/
def execSupplyDroop (lost : Nat) (s : State) : Res :=
  s.unlessFailed <|
  let s := s.addDrone (lost * cycleUnits false)
  .next { s with n65 := s.n65 + 65 * lost, droop := true, catchUp := false }

/-- `CATCH_UP` (13 R273): the droop ends, and the clock catches up until it has made up for every cycle lost. -/
def execCatchUp (s : State) : Res := s.unlessFailed <| .next { s with droop := false, catchUp := decide (65 * s.cyc < s.n65) }

/-- `CATCH_UP_END` (13 R273): the count has reached N, and the clock is locked to it. -/
def execCatchUpEnd (s : State) : Res := s.unlessFailed <| if s.n65 ≤ 65 * s.cyc then .next { s with catchUp := false } else .next s

/-! ### Membership -/

/-- The package runs as a group of one, its own bellwether on its own reference, with none of the group's words; N is set to `CYC`
(13 R269 to R272, R278, R283). -/
def State.groupOfOne (s : State) : State :=
  { s.clearSlip with
    slew := 0
    group := { s.group with
      member := false, rank := 0, members := [0], parent := 0xFF, alternate := 0xFF, bell := true, bellRank := 0, joining := none
      leaving := none, tree := [], heard := [], limits := [], silent := [], notices := [], listen := [], faults := []
      seen := [], sync := true, lastOffset := none, asked := none } }

/-- The ports on which flooded words leave: those whose `UP` is 1 (13 R271). -/
def State.upPorts (s : State) : List Nat := ((List.finRange 12).filter (fun p => (s.port p).up)).map (·.val)

/-- The group has more than one member. -/
def State.inGroup (s : State) : Bool := s.group.member && decide (1 < s.group.members.length)

/-- An emergency throttle is entered on the next cycle, once for all the cases that call for it until then (13 R283). -/
def State.throttleSoon (s : State) : State :=
  if s.agenda.any (fun t => t.ev == .emergencyThrottle) then s else s.postIn 1 .emergencyThrottle

/-! ### Drone exchanges (13 R269, R270, R278) -/

/-- The offset of an exchange (13 R269). -/
def exchangeOffset (t1 t2 t3 t4 : Nat) (asym : Int) : Int :=
  (((t2 : Int) - t1) - ((t4 : Int) - t3)) / 2 - asym

/-- The slew after an exchange: the rate so far, trimmed by the change of the offset since the last exchange, and what brings the offset that
is left, `rest`, to zero before the next one; at most 200 ppm (13 R268, R269). -/
def slewFor (rate off rest : Int) (last : Option Int) : Int :=
  let v := rate - (off - last.getD off + rest) * 2 ^ 32 / 1000000
  max (-858993) (min 858993 v)

/-- A member tells the bellwether that it leaves, in a flooded word; a joiner, which has no rank yet and is told apart by the time of its
word, tells on its parent port that it is ready (13 R271, R278; log 29). -/
def State.askBell (s : State) (joins : Bool) : State :=
  let n : NoticeWord :=
    { kind := .ask joins, code := admissible s.limit, x := s.drone, issue := s.drone
      origin := if joins then 4096 else s.group.rank, num := if joins then s.drone else s.group.sent }
  let s := { s with group := { s.group with
    sent := s.group.sent + 1, seen := s.group.seen ++ [(n.origin, n.num)], asked := if joins then some n.num else s.group.asked } }
  s.emit (.notice (if joins then [s.group.parent] else s.upPorts) n)

/-- `DRONE_EXCHANGE` (13 R268 to R270, R278): a joiner is ready when its offset has stayed within 4 ns for three exchanges, and it can hold a
pitch (13 R275); a step forward leaves no offset to slew out. -/
def execDroneExchange (t1 t2 t3 t4 : Nat) (asym : Int) (s : State) : Res :=
  s.unlessFailed <|
  let off := exchangeOffset t1 t2 t3 t4 asym
  let near := decide (-4 ≤ off) && decide (off ≤ 4)
  if s.group.member && s.group.bell then .next s
  else if s.group.member then
    let s := { s with slew := slewFor s.slew off off s.group.lastOffset, group := { s.group with lastOffset := some off, sync := near } }
    .next (if 32 < off.natAbs then s.throttleSoon else s)
  else if s.group.joining.isSome then
    let rest := max 0 off
    let s := if off < 0 then { s with drone := s.drone + off.natAbs, served := s.served + off.natAbs } else s
    let s := { s with slew := slewFor s.slew off rest s.group.lastOffset }
    let good := if near then s.group.goodExchanges + 1 else 0
    let s := { s with group := { s.group with lastOffset := some rest, sync := near, goodExchanges := good } }
    .next (if 3 ≤ good && s.group.asked.isNone && 250 ≤ admissible s.limit && s.group.parent != 0xFF then s.askBell true else s)
  else .next s

/-! ### Notices (13 R276, R277) -/

/-- The instant of a notice is on the agenda once (13 R277). -/
def State.awaitInstant (s : State) (x : Nat) : State :=
  if s.agenda.any (fun t => t.ev == .noticeApply x) then s else s.postAt (.ns x) (.noticeApply x)

/-- A notice that this package holds. -/
def State.holdNotice (s : State) (n : NoticeWord) : State :=
  { s.awaitInstant n.x with group := { s.group with notices := s.group.notices ++ [n] } }

/-- A notice that this package issues: held, and in a group flooded (13 R271). -/
def State.issueNotice (s : State) (k : NoticeKind) (code x : Nat) : State :=
  let n : NoticeWord := { kind := k, code := code, x := x, issue := s.drone, origin := s.group.rank, num := s.group.sent }
  let s := s.holdNotice n
  let s := { s with group := { s.group with sent := s.group.sent + 1 } }
  if s.group.member then
    { s with group := { s.group with seen := s.group.seen ++ [(n.origin, n.num)] } }.emit (.notice s.upPorts n)
  else s

/-- The monitor heeds the next `k` instants at which the pitch would pass the package's admissible code: sooner than the lead the package
throttles, and else it issues a LOWER with that code. A code below 250 allows no pitch to be agreed: the package throttles when it falls
(13 R275, R276, R283). -/
def State.heedNext : Nat → State → State
  | 0, s => s
  | k + 1, s =>
    match s.breach with
    | none => s
    | some (t, a) =>
      if t < s.drone + 1000 * s.group.leadUs then s.throttleSoon
      else if a < 250 then s
      else heedNext k (s.issueNotice .lower a (s.drone + 1000 * s.group.leadUs))

/-- The monitor heeds all that it forecasts, with the notices it holds: after each LOWER the pitch may still pass a code forecast for later, and
there are no more such instants than forecasts and notices (13 R276). -/
def State.heed (s : State) : State := s.heedNext (s.forecasts.length + s.group.notices.length + 1)

/-- The lowest rank that is neither in the group nor about to be. -/
def State.freeRank (s : State) : Nat :=
  let taken := s.group.members ++ s.pendingNotices.filterMap (fun n => match n.kind with | .member r true _ _ => some r | _ => none)
  ((List.range (taken.length + 1)).find? (fun r => !taken.contains r)).getD 0

/-- The bellwether admits a joiner, or removes the member that leaves, with a MEMBER notice after the lead (01 R8, 13 R276, R278). -/
def State.memberNotice (s : State) (rank : Nat) (joins : Bool) (asker : Nat) (others : List Nat) (code : Nat) : State :=
  s.issueNotice (.member rank joins asker others) (if joins then max 250 (min s.pitch code) else s.pitch) (s.drone + 1000 * s.group.leadUs)

/-- A joiner keeps the notices that it hears until its own MEMBER instant; the words of those that ask are none (13 R278). -/
def State.listenTo (s : State) (n : NoticeWord) : State :=
  match n.kind with
  | .ask _ => s
  | _ => { s.awaitInstant n.x with group := { s.group with listen := s.group.listen ++ [n] } }

/-- A word that asks reaches the bellwether: it admits a joiner that can hold a pitch, or removes the member (13 R275, R278). -/
def State.answerAsk (s : State) (n : NoticeWord) (joins : Bool) : State :=
  if !s.group.bell then s
  else if joins then (if 250 ≤ n.code then s.memberNotice s.freeRank true n.num s.group.members n.code else s)
  else s.memberNotice n.origin false 0 [] n.code

/-- `NOTICE` (13 R271, R276, R277): a member forwards the first copy and holds it; one that comes after its instant throttles. RAISE and
MEMBER notices name the bellwether by their origin. -/
def execNotice (n : NoticeWord) (s : State) : Res :=
  s.unlessFailed <|
  if s.group.seen.contains (n.origin, n.num) || !(s.group.member || s.group.joining.isSome) then .next s
  else
    let s := { s with group := { s.group with seen := s.group.seen ++ [(n.origin, n.num)] } }
    let s := match n.kind with
      | .lower => s
      | .ask _ => s
      | _ => { s with group := { s.group with bellRank := n.origin } }
    if !s.group.member then .next (s.listenTo n)
    else
      let s := s.emit (.notice s.upPorts n)
      match n.kind with
      | .ask joins => .next (s.answerAsk n joins)
      | _ => .next (if n.x ≤ s.drone then s.throttleSoon else (s.holdNotice n).heed)

/-- The package power in watts that the monitor holds to (17 Table 17-7). -/
def State.powerCap (s : State) : Nat := min 2800 (s.trayCap.getD 2800)

/-- The limit code that the monitor sets from a forecast: the highest one at which power and junction temperature stay within their limits, 0
where none does (13 R275, 17 R368). -/
def State.limitFor (s : State) (f : Forecast) : Nat :=
  (f.points.filter (fun p => p.1 ≤ 1023 && p.2.1 ≤ s.powerCap && p.2.2 ≤ 105)).foldl (fun m p => max m p.1) 0

/-- `LOWER_NOTICE` (13 R275, R276, R283, 17 R368): the monitor forecasts power and temperature for an instant, and sets the limit code of that
instant. -/
def execLowerNotice (code : Forecast) (y : Nat) (s : State) : Res :=
  s.unlessFailed <| .next { s with forecasts := s.forecasts ++ [(y, s.limitFor code)] }.heed

/-- The limit codes whose instant has come take effect; a package whose pitch passes its admissible code, as the notices of this cycle leave it,
throttles (13 R275, R276, R283). -/
def State.meetForecasts (s : State) : State :=
  match sortBy (·.1) (s.forecasts.filter (fun f => f.1 ≤ s.drone)) with
  | [] => s
  | f :: fs =>
    let s := { s with limit := (fs.getLastD f).2, forecasts := s.forecasts.filter (fun f => s.drone < f.1) }
    let p := codeThrough s.group.notices s.pitch s.served s.drone
    if admissible s.limit < p && !(s.emerg && p ≤ 250) then s.throttleSoon else s

/-- The lowest limit code of the group, from the summaries of the subtrees in the latest beacons and the package's own; none while no neighbour
has sent one (13 R276, R279). -/
def State.lowestLimit (s : State) : Option Nat :=
  if s.inGroup && s.group.limits.isEmpty then none
  else some ((s.group.limits.map (·.2)).foldl min s.limit)

/-- A bellwether's proposals go on every 10 ms (13 R276). -/
def State.proposeRaises (s : State) : State :=
  if s.agenda.any (fun t => t.ev == .raiseProposal) then s else s.postAt (.ns (s.drone + 10000000)) .raiseProposal

/-- `RAISE_PROPOSAL` (13 R276): the bellwether proposes a raise every 10 ms, and heeds its own forecasts under it; before READY the code stays
250 (17 R357). -/
def execRaiseProposal (s : State) : Res :=
  s.unlessFailed <|
  if !s.group.bell then .next s
  else
    let s1 := s.proposeRaises
    if !s.ready then .next s1
    else match s.lowestLimit with
    | none => .next s1
    | some l =>
      let a := admissible l
      if s.pitch < a then .next (s1.issueNotice .raise a (s.drone + 1000 * s.group.leadUs)).heed else .next s1

/-- The queue is STOPPED or OVERRUN. -/
def Queue.halted (v : Queue) : Bool := v.state == .stopped || v.state == .overrun

/-- A node of a queue that has been launched and not armed for the first time: its packet stands at `HEAD` (14 R298, R304, R305). -/
def Node.unarmed (n : Node) : Bool := (match n.state with | .waiting _ => true | _ => false) && n.attempt == 0

/-- A queue stops, with a status in `CAUSE`: it leaves its slot, and the packet in hand and a launch at its head are read again from
`HEAD` after a RESUME (14 R297, R298, R311, 15 R318, log 31). One that has stopped keeps its state and cause. -/
def State.stopQueue (s : State) (q : QueueId) (st : QState) (status : Nat) : State :=
  if (s.queue q).halted then s
  else
    let gone := s.nodes.filter (fun n => n.queue == q && n.unarmed)
    let s := s.modQueue q (fun v => { v with state := st, out := true, cause := BitVec.ofNat 4 status, started := none })
    gone.foldl (fun s n => s.postIn 1 (.imageRelease n.image)) { s with nodes := s.nodes.filter (fun n => !(n.queue == q && n.unarmed)) }

/-- A record of a queue falls due; `stop` stops the queue with its status (14 R310, R311). -/
def State.recordDue (s : State) (q : QueueId) (r : Record) (stop : Bool) : State :=
  let s := (s.modQueue q (fun v => { v with due := v.due ++ [r] })).postIn 1 (.completionRecordWrite q)
  if stop then s.stopQueue q .stopped r.status else s

/-- The end of the packet of a queue: HEAD moves past `adv` words, its record falls due on this cycle, and stops the queue where it says
so (14 R310, R311). -/
def State.completePacket (s : State) (q : QueueId) (r : Option Record) (stop : Bool) (adv : Nat) : State :=
  let s := s.modQueue q (fun v => { v with started := none, head := v.head + BitVec.ofNat 32 adv })
  match r with
  | some r => s.recordDue q r stop
  | none => s

/-- The end of a packet that waited for an event: HEAD moves past it where it still stands there (14 R297). -/
def State.completeLater (s : State) (q : QueueId) (r : Record) (adv : Nat) : State :=
  if (s.queue q).head.toNat = r.seq then s.completePacket q (some r) false adv else s.recordDue q r false

/-- A record with only the packet's own fields. -/
def plainRecord (id : Dword) (seq typ status : Nat) : Record :=
  { id := id, seq := seq, typ := typ, status := status, fault := 0, unit := 0, kind := 0, attempt := 0, cores := 0, detour := 0
    flags := 0, cycles := 0, zeros := 0, mxerr := 0 }

/-- The ranks of the group that a joiner enters at instant `x`: those that its MEMBER notice names, changed by the MEMBER notices and the fault
notices that it has heard whose instants have come since (13 R278, R280; log 29). -/
def Group.ranksAt (g : Group) (n : NoticeWord) (x : Nat) : List Nat :=
  let base := match n.kind with | .member _ _ _ l => l | _ => []
  let since := sortBy (·.x) (g.listen.filter (fun m => decide (n.issue < m.x) && decide (m.x ≤ x)))
  let now := since.foldl (fun l m => match m.kind with
    | .member r true _ _ => if l.contains r then l else l ++ [r]
    | .member r false _ _ => l.filter (fun k => k != r)
    | _ => l) base
  now.filter (fun r => !g.faults.any (fun f => decide (f.g ≤ x) && f.ranks.contains r))

/-- The package itself joins at its MEMBER instant, with the notices of its group and none of its own: N is set to `CYC`; of the tree it keeps
the neighbours that are members (13 R277 to R279). -/
def State.joinGroup (s : State) (rank : Nat) (others : List Nat) : State :=
  match s.group.joining with
  | none => s
  | some (q, seq) =>
    let g := s.group
    let all := if others.contains rank then others else others ++ [rank]
    let s := { s with group := { g with
      member := true, rank := rank, members := all
      tree := g.tree.filter (fun h => all.contains h.1), heard := g.heard.filter (fun h => all.contains h.1)
      limits := g.limits.filter (fun h => all.contains h.1), silent := g.silent.filter all.contains
      faults := g.faults.filter (fun f => decide (s.drone < f.g)), bell := g.parent == 0xFF, joining := none, goodExchanges := 0, asked := none
      notices := if g.parent == 0xFF then g.notices else g.listen, listen := [] } }
    let s := if s.group.bell then s.proposeRaises else s
    { s.clearSlip with emerg := false }.completeLater q (plainRecord 0 seq 9 0) 3

/-- The join or leave of a MEMBER notice at its instant; of a package that has left nothing is kept (13 R276, R278, R279). -/
def State.applyMember (s : State) (rank : Nat) (joins : Bool) (others : List Nat) : State :=
  let g := s.group
  if joins then
    if g.joining.isSome then s.joinGroup rank others
    else if g.member && !g.members.contains rank then
      { s with group := { g with members := g.members ++ [rank], seen := g.seen.filter (fun e => e.1 != rank) } }
    else s
  else if g.member && rank == g.rank then
    let s := s.groupOfOne
    let a := admissible s.limit
    let s := if 250 ≤ a then s.setPitch a else s
    let s := s.proposeRaises
    match g.leaving with
    | some (q, seq) => s.completeLater q (plainRecord 0 seq 10 0) 1
    | none => s
  else
    { s with group := { g with
      members := g.members.filter (fun r => r != rank), tree := g.tree.filter (fun h => h.1 != rank), heard := g.heard.filter (fun h => h.1 != rank)
      limits := g.limits.filter (fun h => h.1 != rank), silent := g.silent.filter (fun r => r != rank) } }

/-- The MEMBER notice at an instant that answers a joiner's own word, among what it has heard. -/
def State.admits (s : State) (x : Nat) : Option NoticeWord :=
  if s.group.joining.isNone then none
  else s.group.listen.find? (fun n => n.x == x && (match n.kind with | .member _ j k _ => j && s.group.asked == some k | _ => false))

/-- `NOTICE_APPLY` (13 R277, R278, 17 R357): after READY, on the first cycle at or after the instant, pitch, epoch and membership change by the notices that the
package holds; a joiner takes the group's code at the instant that admits it. Where the membership changes the package holds other notices, and
heeds its forecasts anew (R275, R276). -/
def execNoticeApply (x : Nat) (s : State) : Res :=
  if s.drone < x || !s.ready then .next s
  else
    let now := s.group.notices.filter (fun n => n.x == x)
    let own (s : State) : State := 
      let t := now.foldl (fun s n => match n.kind with | .member r j _ l => s.applyMember r j l | _ => s) s
      if now.any (fun n => match n.kind with | .member _ _ _ _ => true | _ => false) then t.heed else t
    match s.admits x with
    | some n =>
      let rank := match n.kind with | .member r _ _ _ => r | _ => 0
      let p := min n.code (codeThrough s.group.listen n.code n.issue x)
      .next ({ s.setPitch p with epoch := s.epoch + 1 }.applyMember rank true (s.group.ranksAt n x)).heed
    | none =>
      if now.isEmpty then .next s
      else .next (own { s.setPitch (codeAt s.group.notices s.pitch x) with epoch := s.epoch + 1 })

/-! ### Silence and `GROUP` (13 R279 to R283) -/

/-- A fault notice that this package issues: held and flooded, its instant on the agenda (13 R271, R279). -/
def State.issueFault (s : State) (ranks : List Nat) : State :=
  let f : FaultWord := { ranks := ranks, g := s.drone + 100000, origin := s.group.rank, num := s.group.sent }
  let s := { s with group := { s.group with
    sent := s.group.sent + 1, seen := s.group.seen ++ [(f.origin, f.num)], faults := s.group.faults ++ [f] } }
  (s.emit (.faultWord s.upPorts f)).postAt (.ns f.g) .groupFault

/-- A rank whose word counts: a member's, or any while the package listens and knows no members (13 R278, R279). -/
def Group.knows (g : Group) (r : Nat) : Bool := if g.member then g.members.contains r else g.joining.isSome

/-- `BEACON` (13 R279): a tree neighbour is heard; its silence is looked for 200 µs later. The beacon of a rank that has left is none, and so is
a silence that it declares. -/
def execBeacon (src : Neighbour) (lim _slip lowest : Nat) (silent : List Nat) (s : State) : Res :=
  s.unlessFailed <|
  let g := s.group
  if !g.knows src.rank then .next s else
  let s := { s with group := { g with
    tree := insertKey g.tree src.rank src.port.val, heard := insertKey g.heard src.rank s.drone, limits := insertKey g.limits src.rank (min lim lowest)
    silent := (g.silent ++ silent.filter g.knows).eraseDups } }
  .next (s.postAt (.ns (s.drone + 200000)) (.silence src.rank))

/-- `SILENCE` (13 R279): no beacon of the neighbour for 200 µs. -/
def execSilence (rank : Nat) (s : State) : Res :=
  match lookup s.group.heard rank with
  | none => .next s
  | some t =>
    if s.drone < t + 200000 || !s.group.member || !s.group.members.contains rank || s.group.silent.contains rank then .next s
    else .next ({ s with group := { s.group with silent := s.group.silent ++ [rank] } }.issueFault [rank])

/-- `FAULT_NOTICE` (13 R271, R280): a member forwards the first copy and holds it until its instant, or it acts at once when that has
passed; a joiner keeps it for the time when it is a member. -/
def execFaultNotice (n : FaultWord) (s : State) : Res :=
  s.unlessFailed <|
  if s.group.seen.contains (n.origin, n.num) || !(s.group.member || s.group.joining.isSome) then .next s
  else if !s.group.member then
    .next ({ s with group := { s.group with seen := s.group.seen ++ [(n.origin, n.num)], faults := s.group.faults ++ [n] } }.postAt (.ns n.g) .groupFault)
  else
    let s := { s with group := { s.group with seen := s.group.seen ++ [(n.origin, n.num)], faults := s.group.faults ++ [n] } }
    let s := s.emit (.faultWord s.upPorts n)
    .next (if n.g ≤ s.drone then s.postIn 0 .groupFault else s.postAt (.ns n.g) .groupFault)

/-- A group node takes `GROUP`, or leaves it pending for the next launch; a part that has voted waits for the decision, decides
when it coordinates, or is in doubt when the coordinator is named (13 R280, 14 R309, 15 R321, R322). DESIGN CHOICE (log 31): the fault's
unit id is 0. -/
def State.takeGroup (s : State) (ranks : List Nat) : State :=
  match s.nodes.find? (fun n => n.family.group && some n.part == s.fabric &&
      (n.state == .armed || n.state == .running || n.state == .ending || n.state == .voted)) with
  | none =>
    match s.fabric with
    | some p => s.modPart p (fun v => { v with pendingGroup := true })
    | none => s
  | some n =>
    if n.state == .voted then
      if n.coord == n.rank then s.decide_ n false
      else if ranks.contains n.coord then s.postIn 0 (.inDoubt n.nd)
      else s
    else s.raiseNode n.nd 0 { code := .group }

/-- `GROUP_FAULT` (13 R280, R281): at the earliest G held, with every fault notice held, the named ranks leave, the epoch rises, the deputy takes over from a silent bellwether. -/
def execGroupFault (s : State) : Res :=
  if !s.group.faults.any (fun f => f.g ≤ s.drone) || s.group.joining.isSome then .next s
  else
    let ranks := (s.group.faults.flatMap (·.ranks)).eraseDups
    let g := s.group
    let lost := ranks.contains g.bellRank
    let bell := if lost then g.rank == g.deputy else g.bell
    let parent := if lost && bell then 0xFF
      else if g.alternate != 0xFF && ranks.any (fun r => lookup g.tree r == some g.parent) then g.alternate else g.parent
    let s := { s with
      epoch := s.epoch + 1
      group := { g with
        members := g.members.filter (fun r => !ranks.contains r), faults := [], silent := g.silent.filter (fun r => !ranks.contains r)
        tree := g.tree.filter (fun h => !ranks.contains h.1), heard := g.heard.filter (fun h => !ranks.contains h.1)
        limits := g.limits.filter (fun h => !ranks.contains h.1), bellRank := (if lost then g.deputy else g.bellRank), bell := bell
        parent := parent } }
    let s := if bell && !g.bell then { s.proposeRaises with slew := 0, group := { s.group with sync := true, lastOffset := none } } else s
    let s := s.takeGroup ranks
    .next (if ranks.contains g.rank then s.groupOfOne.proposeRaises.heed else s)

/-- `EMERGENCY_THROTTLE` (13 R283). -/
def execEmergencyThrottle (s : State) : Res :=
  s.unlessFailed <|
  let a := s.admissibleSoon
  let s := (s.setPitch (if a < 250 then 250 else min s.pitch a)).clearSlip
  let s := { s with emerg := true, epoch := s.epoch + 1 }
  let s := if s.inGroup then
      let f : FaultWord := { ranks := [s.group.rank], g := s.drone + 100000, origin := s.group.rank, num := s.group.sent }
      { s.emit (.faultWord s.upPorts f) with group := { s.group with sent := s.group.sent + 1, seen := s.group.seen ++ [(f.origin, f.num)] } }
    else s
  let s := s.takeGroup [s.group.rank]
  .next s.groupOfOne.proposeRaises.heed

end Sys2Proof.Machine
end

