-- ==== Sys2Proof/Machine/Pin.lean ====
section
/-! DEFINITION. Images: their checks and their parts, pinning and unpinning (03 R48 to R59, 17 R363). -/

namespace Sys2Proof.Machine
open Host

/-! ### Fields of an image -/

def u16 (b : List Byte) (o : Nat) : Nat := leNat ((b.drop o).take 2)
def u32 (b : List Byte) (o : Nat) : Nat := leNat ((b.drop o).take 4)
def u64 (b : List Byte) (o : Nat) : Nat := leNat ((b.drop o).take 8)

/-- An entry of the section table (03 Table 3-3). -/
structure Section where
  typ : Nat
  flags : Nat
  off : Nat
  size : Nat
  info : Nat
  rsvd : Nat
  deriving DecidableEq, Repr

def sectionAt (b : List Byte) (o : Nat) : Section :=
  { typ := u32 b o, flags := u32 b (o + 4), off := u64 b (o + 8), size := u64 b (o + 16), info := u32 b (o + 24), rsvd := u32 b (o + 28) }

/-- The section table (03 R49). -/
def sectionsOf (b : List Byte) : List Section := (List.range (u32 b 0x10)).map (fun i => sectionAt b (u32 b 0x14 + 32 * i))

/-- Two ranges, given by their first byte and size, share a byte. -/
def overlap (a b : Nat × Nat) : Bool := a.2 != 0 && b.2 != 0 && a.1 < b.1 + b.2 && b.1 < a.1 + a.2

/-- No two ranges of a list share a byte. -/
def disjoint : List (Nat × Nat) → Bool
  | [] => true
  | r :: rs => rs.all (fun x => !overlap r x) && disjoint rs

/-- Check 4: table, notes and sections lie within the image and do not overlap (03 R49, Table 3-7). A section count outside 1 to 1,024, or
an offset that is not aligned, fails it as well, since no check names them (log 23). -/
def boundsOk (b : List Byte) (len : Nat) : Bool :=
  let n := u32 b 0x10
  let tab := u32 b 0x14
  let note := u32 b 0x30
  let size := u64 b 0x18
  1 ≤ n && n ≤ 1024 && tab % 8 == 0 && note % 4 == 0 && size ≤ len && tab + 32 * n ≤ size &&
  (note == 0 || note + u32 b 0x34 ≤ size) &&
  (sectionsOf b).all (fun x => x.off + x.size ≤ size) &&
  disjoint ([(0, 64), (tab, 32 * n)] ++ (if note == 0 then [] else [(note, u32 b 0x34)]) ++ (sectionsOf b).map (fun x => (x.off, x.size)))

def Section.known (x : Section) : Bool := 1 ≤ x.typ && x.typ ≤ 6

/-- Check 5 (03 R49, R50, R53, Table 3-7). DESIGN CHOICE (log 23): a CODE section whose size is no multiple of 4, and a reserved word at
0x1C that is not zero, have status SECTION; Table 3-3 asks for both, and no check of Table 3-7 names them. -/
def sectionOk (x : Section) : Bool :=
  (x.known || x.flags % 2 == 1) && x.flags < 2 && x.rsvd == 0 &&
  (if x.typ == 1 then x.info < 2 ^ 25 && x.size % 4 == 0 else x.info == 0) &&
  (x.typ != 6 || x.size == 136)

def sectionsOk (b : List Byte) : Bool :=
  let l := sectionsOf b
  l.all sectionOk && (l.filter (fun x => x.typ == 6)).length ≤ 1 && (l.filter (fun x => x.typ == 4)).length == 1

/-- Check 6: the note records from an offset to the end of the notes; the first argument bounds their number (03 R51). DESIGN CHOICE
(log 23): a record that runs past the end of the notes has status NOTE, which no check of Table 3-7 names. -/
def notesOk (b : List Byte) : Nat → Nat → Nat → Bool
  | 0, o, fin => decide (fin ≤ o)
  | fuel + 1, o, fin =>
    if fin ≤ o then true
    else
      let next := o + 12 + (u32 b (o + 8) + 3) / 4 * 4
      next ≤ fin && u32 b (o + 4) < 2 && (u32 b o == 1 || u32 b o == 2 || u32 b (o + 4) == 0) && notesOk b fuel next fin

/-- The code-store address, stream and kind of a code section (03 Table 3-3). -/
def Section.codeAddr (x : Section) : Nat := x.info % 2 ^ 22
def Section.stream (x : Section) : Nat := x.info / 2 ^ 22 % 4
def Section.shep (x : Section) : Bool := x.info / 2 ^ 24 % 2 == 1

/-! ### Timetables (03 R52, R55) -/

/-- A start entry, or none where a field lies outside Table 3-6. -/
def entryOf (t : List Byte) (o : Nat) : Option Entry :=
  let rank := u64 t o % 2 ^ 8
  let seq := u64 t o / 2 ^ 8 % 2 ^ 8
  if t.length < o + 16 || u16 t (o + 2) ≠ 0 || u32 t (o + 12) ≠ 0 || 3 < seq || !(rank < 31 || (0x80 ≤ rank && rank < 0x84)) then none
  else some ⟨rank, seqNamed seq, u32 t (o + 4), u32 t (o + 8)⟩

/-- A list of options as an option of a list. -/
def allSome {α : Type} : List (Option α) → Option (List α)
  | [] => some []
  | a :: l => match a, allSome l with
    | some a, some l => some (a :: l)
    | _, _ => none

def variantOf (t : List Byte) (o : Nat) : Option Variant :=
  let cores := u64 t o % 2 ^ 8
  let n := u16 t (o + 2)
  let eo := u64 t (o + 8)
  let fo := u64 t (o + 16)
  if t.length < o + 24 || cores = 0 || 31 < cores || u32 t (o + 4) ≠ 0 || t.length < eo + 16 * n || t.length < fo + 8 * cores then none
  else (allSome ((List.range n).map (fun i => entryOf t (eo + 16 * i)))).map (fun es =>
    { cores := cores, detour := u64 t o / 2 ^ 8 % 2 ^ 8, entries := es
      folds := (List.range cores).map (fun r => foldMask (BitVec.ofNat 64 (u64 t (fo + 8 * r)))) })

def familyOf (t : List Byte) (o : Nat) : Option Family :=
  let n := u64 t o / 2 ^ 16 % 2 ^ 8
  let attr := u64 t o / 2 ^ 24 % 2 ^ 8
  let vo := u64 t (o + 16)
  if t.length < o + 24 || n = 0 || 16 < n || 8 ≤ attr || u32 t (o + 4) ≠ 0 then none
  else (allSome ((List.range n).map (fun i => variantOf t (vo + 24 * i)))).map (fun vs =>
    { id := u16 t o, nonidem := attr % 2 == 1, tolerant := attr / 2 % 2 == 1, group := attr / 4 % 2 == 1, budget := u64 t (o + 8), variants := vs })

/-- No two elements of a list are equal. -/
def distinct {α : Type} [DecidableEq α] (l : List α) : Bool := l.eraseDups.length == l.length

/-- The conditions of a variant (03 R55). DESIGN CHOICE (log 23): an entry address that is no multiple of 4, where no pc can stand (02 R21),
makes the timetable invalid; R55 and Table 3-6 do not list it. -/
def variantOk (codes : List Section) (v : Variant) : Bool :=
  v.entries.all (fun e =>
    (0x80 ≤ e.rank || e.rank < v.cores) && !(0x80 ≤ e.rank && e.q == .cmp) && e.addr % 4 == 0 &&
    codes.any (fun x => x.stream == seqNum e.q && x.shep == decide (0x80 ≤ e.rank) && x.codeAddr ≤ e.addr && e.addr < x.codeAddr + x.size)) &&
  distinct (v.entries.map (fun e => (e.rank, e.q))) &&
  (List.range v.cores).all (fun r => v.entries.any (fun e => e.rank == r))

/-- A timetable, or none where it is invalid (03 R55). -/
def timetableOf (t : List Byte) (codes : List Section) : Option (List Family) :=
  let n := u32 t 0
  if t.length < 8 || u32 t 4 ≠ 0 || t.length < 8 + 24 * n then none
  else match allSome ((List.range n).map (fun i => familyOf t (8 + 24 * i))) with
    | none => none
    | some fs =>
      if distinct (fs.map (·.id)) && fs.all (fun f =>
          distinct (f.variants.map (fun v => (v.cores, v.detour))) && f.variants.all (variantOk codes)) then some fs
      else none

/-! ### Checks and effects of `PIN` (03 R54 to R57) -/

/-- Bytes of an image whose signature section is taken as zero (03 R53). -/
def signedBytes (b : List Byte) (x : Section) : List Byte := b.take x.off ++ List.replicate 136 0 ++ b.drop (x.off + 136)

/-- Check 7 (03 R53, 17 R363). DESIGN CHOICE (log 23): reserved bytes 1 to 3 of the section that are not zero have status SIGNATURE; no
check of Table 3-7 names them. -/
def State.signatureOk (s : State) (q : QueueId) (b : List Byte) : Bool :=
  match (sectionsOf b).find? (fun x => x.typ == 6) with
  | none => !(s.queue q).reqSig
  | some x =>
    let sig := (b.drop x.off).take 136
    match (s.queue q).keys[byteAt sig 0]? with
    | some k => (sig.drop 1).take 3 == [0, 0, 0] && signatureVerifies k (signedBytes b x) (sig.drop 4)
    | none => false

/-- The ranges of code that an image claims (03 R56). -/
def codeRanges (l : List Section) : List (Bool × Nat × Nat) :=
  (l.filter (fun x => x.typ == 1)).map (fun x => (x.shep, x.codeAddr, x.size))

/-- Check 9 (03 R54, R58). DESIGN CHOICE (log 23): two code sections of one image that overlap in the same code store have status
CODESPACE; the check names only code pinned by an image. DEDUCED (log 30): a retiring image counts among the 256. -/
def State.codeFits (s : State) (rs : List (Bool × Nat × Nat)) : Bool :=
  s.images.length < 256 && rs.all (fun r => r.2.1 + r.2.2 ≤ 2 ^ 22) &&
  disjoint ((rs.filter (fun r => r.1)).map (·.2)) && disjoint ((rs.filter (fun r => !r.1)).map (·.2)) &&
  rs.all (fun r => s.images.all (fun i => i.ranges.all (fun x => x.1 != r.1 || !overlap x.2 r.2)))

/-- Every page of an image may be read by a `PIN`: valid, with `X` (16 R340). In window 0x20 the host answers the reads of a `PIN` as a
whole; what it refuses, or returns poisoned, counts as unreadable, for which the manual gives no status of its own (log 23). -/
def State.imageReadable (s : State) (pasid : Nat) (a : Dword) (len : Nat) : Bool :=
  if len = 0 then true
  else if winOf a = 0x20 then (s.hostAnswer pasid s.free).isNone
  else if winOf a = 0x10 then
    (List.range (len / 2 ^ 16 + 2)).all (fun k =>
      let x := min (offOf a / 2 ^ 16 * 2 ^ 16 + k * 2 ^ 16) (offOf a + (len - 1))
      match s.walk pasid x with
      | some l => pteX l.e && s.keys.contains (pteKey l.e)
      | none => false)
  else false

/-- The checks of Table 3-7 in order: the status, or the families of the timetable. A header that cannot be read gives BOUNDS before its
bytes are looked at (16 R340); an image shorter than its header gives BADMAGIC, bytes beyond the image length are not looked at, but their
pages must be readable (log 23). -/
def State.pinCheck (s : State) (q : QueueId) (pasid : Nat) (a : Dword) (len : Nat) (b : List Byte) : Nat × List Family :=
  if !s.imageReadable pasid a (min len 64) then (4, [])
  else if len < 64 || b.take 4 != [0x49, 0x52, 0x53, 0x4E] || u16 b 4 ≠ 64 then (1, [])
  else if u16 b 6 ≠ 1 then (2, [])
  else if 16 ≤ u64 b 8 || u64 b 0x38 ≠ 0 then (3, [])
  else if !s.imageReadable pasid a len || !boundsOk b len then (4, [])
  else if !sectionsOk b then (5, [])
  else if u32 b 0x30 ≠ 0 && !notesOk b (u32 b 0x34) (u32 b 0x30) (u32 b 0x30 + u32 b 0x34) then (6, [])
  else if !s.signatureOk q (b.take (u64 b 0x18)) then (7, [])
  else
    let l := sectionsOf b
    let t := match l.find? (fun x => x.typ == 4) with | some x => (b.drop x.off).take x.size | none => []
    match timetableOf t (l.filter (fun x => x.typ == 1)) with
    | none => (8, [])
    | some fs => if s.codeFits (codeRanges l) then (0, fs) else (9, [])

/-- The lowest image handle that is free. -/
def State.freeHandle (s : State) : Nat :=
  ((List.range 256).find? (fun h => !s.images.any (fun i => i.handle == h))).getD 0

/-- The effects of a successful `PIN`: code stores, and the data sections one after another from the data base (03 R56). -/
def State.pinImage (s : State) (part : PartId) (pasid : Nat) (b : List Byte) (base : Dword) (fs : List Family) : State :=
  let l := sectionsOf b
  let img : Image := { handle := s.freeHandle, id := (b.drop 0x20).take 16, part := part, ranges := codeRanges l, families := fs }
  let s := { s with images := s.images ++ [img] }
  let s := (l.filter (fun x => x.typ == 1)).foldl (fun s x => s.setCodeBytes x.shep x.codeAddr ((b.drop x.off).take x.size)) s
  ((l.filter (fun x => x.typ == 2 || x.typ == 3)).foldl
    (fun r x => ((r.1.writeEach part pasid r.2 ((b.drop x.off).take x.size)).wakeRange pasid r.2 x.size, r.2 + BitVec.ofNat 64 x.size))
    (s, base)).1

/-- Words of the packet that a queue has started. -/
def Queue.words (q : Queue) : List Word := match q.started with | some p => p.words | none => []
def Queue.seqNo (q : Queue) : Nat := match q.started with | some p => p.seq | none => 0

/-- A 64-bit field of a packet, the low word first (14 Table 14-6). -/
def pkt64 (w : List Word) (i : Nat) : Dword := (w.getD (i + 1) 0) ++ (w.getD i 0)
def pkt32 (w : List Word) (i : Nat) : Nat := (w.getD i 0).toNat

/-! ### The release of a retiring image (03 R58, R59) -/

/-- A node of the image is running, queued, or unsettled (03 R58). -/
def State.imageBusy (s : State) (h : Nat) : Bool :=
  s.nodes.any (fun n => n.image == h)

/-- `IMAGE_RELEASE` (03 R58): the ranges of a retiring image are free, and the records of its `UNPIN`s fall due. -/
def execImageRelease (image : Nat) (s : State) : Res :=
  match s.images.find? (fun i => i.handle == image) with
  | none => .next s
  | some i =>
    if !i.retiring || s.imageBusy image then .next s
    else
      let s := { s with images := s.images.filter (fun x => x.handle != image) }
      .next (i.unpins.foldl (fun s u => s.completeLater u.1 (plainRecord 0 u.2 12 0) 2) s)

/-- A retiring image whose last node is gone is released on the next cycle. -/
def State.releaseSoon (s : State) (h : Nat) : State :=
  if s.images.any (fun i => i.handle == h && i.retiring) && !s.imageBusy h then s.postIn 1 (.imageRelease h) else s

end Sys2Proof.Machine
end

