-- ==== Sys2Proof/Machine/Front.lean ====
section
/-! DEFINITION. The front end: notify pages, drovers and slots, packets and completion records (14 R292 to R302, R310, R379). -/

namespace Sys2Proof.Machine
open Host

/-! ### Queues (14 R292 to R298) -/

/-- A word of a queue's ring (14 R293). -/
def State.ringWord (s : State) (c : QueueCfg) (n : Word) : Word :=
  BitVec.ofNat 32 (leNat ((s.readFor c.pasid (c.ring + BitVec.ofNat 64 (4 * (n.toNat % c.ringWords))) 4).getD []))

/-- The packet words of a queue from a sequence number on. -/
def State.ringWords (s : State) (c : QueueCfg) (n : Word) (len : Nat) : List Word :=
  (List.range len).map (fun i => s.ringWord c (n + BitVec.ofNat 32 i))

/-- The tail value is beyond the ring, or moves the tail backwards (14 R295). -/
def Queue.badTail (q : Queue) (size : Nat) (v : Word) : Bool :=
  decide (size < (v - q.head).toNat) || decide ((v - q.head).toNat < (q.tail - q.head).toNat)

/-- A tail value takes effect (14 R295). The record of an OVERRUN holds type 0, the sequence number of `HEAD`, and unit id 0, for which the
manual gives no value (log 31). -/
def State.applyTail (s : State) (q : QueueId) (v : Word) : State :=
  let u := s.queue q
  match u.cfg with
  | none => s
  | some c =>
    if !u.badTail c.ringWords v then s.setQueue q { u with tail := v }
    else if u.halted then s
    else (s.stopQueue q .overrun 3).recordDue q { plainRecord 0 u.head.toNat 0 0x13 with fault := 0x1B } false

/-- A write to `TAIL`: dropped before READY or without a queue, captured while the queue is switched out (14 R295, R296, 17 R356). A
stopped queue takes or ignores it at once, unless it has captured one before (log 31). -/
def State.writeTail (s : State) (q : QueueId) (v : Word) : State :=
  let u := s.queue q
  match u.cfg with
  | none => s
  | some c =>
    if !s.ready then s
    else if u.halted then
      if u.badTail c.ringWords v then s
      else if u.captured.isSome then s.setQueue q { u with captured := some v } else s.setQueue q { u with tail := v }
    else if u.out then s.setQueue q { u with captured := some v }
    else s.applyTail q v

/-- `TAIL` (14 R295, R296). -/
def execTail (q : QueueId) (v : Word) (s : State) : Res := .next (s.writeTail q v)

/-- RESUME: a stopped or overrun queue continues at `HEAD` (14 R297). -/
def State.resumeQueue (s : State) (q : QueueId) : State :=
  if s.ready && (s.queue q).halted then s.modQueue q (fun u => { u with state := .idle, cause := 0 }) else s

/-- The tail of a stopped queue, with the value captured while it was switched out where R295 takes it (14 R295, R296). -/
def Queue.fullTail (u : Queue) : Word :=
  match u.cfg, u.captured with
  | some c, some v => if u.badTail c.ringWords v then u.tail else v
  | _, _ => u.tail

/-- RESET: the unread packets are discarded, those exposed by a captured tail too; a node that waits at the head to run again goes with them
(14 R297, 15 R318, log 31). -/
def State.resetQueue (s : State) (q : QueueId) : State :=
  if s.ready && (s.queue q).halted then
    let waits (n : Node) : Bool := n.queue == q && (match n.state with | .waiting _ => true | _ => false)
    let gone := s.nodes.filter waits
    let s := s.modQueue q (fun u =>
      { u with state := .idle, cause := 0, head := u.fullTail, tail := u.fullTail, captured := none, heldBack := false })
    gone.foldl (fun s n => s.postIn 1 (.imageRelease n.image)) { s with nodes := s.nodes.filter (fun n => !waits n) }
  else s

/-- `RESUME` (14 R297). -/
def execResume (q : QueueId) (s : State) : Res := .next (s.resumeQueue q)

/-- `RESET` (14 R297). -/
def execReset (q : QueueId) (s : State) : Res := .next (s.resetQueue q)

/-- `REGISTER_WRITE` (14 R294, Table 14-2): only 8-byte writes to `TAIL`, `QCTL` and `CHEAD` act. -/
def execRegisterWrite (q : QueueId) (off size : Nat) (v : Dword) (s : State) : Res :=
  if size ≠ 8 || !s.ready || (s.queue q).cfg.isNone then .next s
  else match off with
    | 0x000 => .next (s.writeTail q (v.setWidth 32))
    | 0x018 =>
      let s := if v.getLsbD 1 then s.resetQueue q else s
      .next (if v.getLsbD 0 then s.resumeQueue q else s)
    | 0x028 =>
      let s := s.modQueue q (fun u => { u with chead := v.setWidth 32 })
      .next (if (s.queue q).due.isEmpty then s else s.postIn 1 (.completionRecordWrite q))
    | _ => .next s

/-! ### Completion records (14 R310) -/

/-- The 64 bytes of a record (14 Table 14-10). -/
def Record.bytes (r : Record) (drone : Nat) : List Byte :=
  leBytes 8 r.id.toNat ++ leBytes 4 r.seq ++ leBytes 1 r.typ ++ leBytes 1 r.status ++ leBytes 1 r.fault ++ leBytes 1 r.unit ++
  leBytes 1 r.kind ++ leBytes 1 r.attempt ++ leBytes 1 r.cores ++ leBytes 1 r.detour ++ leBytes 2 r.flags.toNat ++ leBytes 2 0 ++
  leBytes 8 r.cycles ++ leBytes 4 r.zeros ++ leBytes 4 0 ++ leBytes 8 drone ++ leBytes 8 r.mxerr ++ leBytes 8 0

/-- A store or an atomic that a node issued before its stop has still to act (15 R313). -/
def State.writing (s : State) (nd : Nat) : Bool :=
  nd != 0 && s.effs.any (fun e => e.node == nd && (match e.op with | .store _ _ _ => true | .atomic _ _ _ _ _ _ _ _ _ => true | _ => false))

/-- The oldest due record of a queue is written, while a place is free, once every write of its node has been performed (14 R310, 11 R224). -/
def State.writeRecord (s : State) (q : QueueId) : State :=
  let u := s.queue q
  match u.cfg, u.due with
  | some c, r :: rest =>
    if c.cringRecs ≤ (u.ctail - u.chead).toNat || s.awaits c.cring || s.writing r.after then s
    else
      let a := c.cring + BitVec.ofNat 64 (64 * (u.ctail.toNat % c.cringRecs))
      let s := (s.writeFor c.part c.pasid a (r.bytes s.drone)).wakeRange c.pasid a 64
      s.modQueue q (fun u => { u with ctail := u.ctail + 1, due := rest })
  | _, _ => s

/-- Every due record of a queue is written now, while places are free. -/
def State.writeRecords (s : State) (q : QueueId) : State := (List.range (s.queue q).due.length).foldl (fun s _ => s.writeRecord q) s

/-- `COMPLETION_RECORD_WRITE` (14 R310); it waits for device memory that re-trains (17 R367). -/
def execCompletionRecordWrite (q : QueueId) (s : State) : Res :=
  let t := s.writeRecord q
  let rest := (t.queue q).due.length
  let waits := (s.queue q).cfg.any (fun c => s.awaits c.cring) || ((s.queue q).due.head?).any (fun r => s.writing r.after)
  .next (if rest = 0 || (rest = (s.queue q).due.length && !waits) then t else t.postIn 1 (.completionRecordWrite q))

/-! ### What the host reads (14 R294, R296, Table 14-3, 17 R355, R356) -/

/-- `QSTAT` (14 Table 14-3). -/
def Queue.status (u : Queue) : Dword :=
  let st := match u.state with | .idle => 0 | .run => 1 | .parked => 2 | .stopped => 3 | .overrun => 4
  BitVec.ofNat 64 (st + (if u.out then 8 else 0) + 16 * u.cause.toNat)

/-- A read of 8 bytes of a queue's notify page: while the queue is switched out `TAIL` reads as the value captured last, `HEAD` and
`QSTAT` as they were saved; `QCTL` is write only, and every other offset reads zero (14 R294, R296, Table 14-2). -/
def State.notifyRead (s : State) (q : QueueId) (off : Nat) : Dword :=
  let u := s.queue q
  if !s.ready || u.cfg.isNone then 0
  else match off with
    | 0x000 => zx64 (u.captured.getD u.tail)
    | 0x008 => zx64 u.head
    | 0x010 => u.status
    | 0x020 => zx64 u.ctail
    | 0x028 => zx64 u.chead
    | _ => 0

/-- `HSTAT` (17 Table 17-2); the modes of the ports show once the configuration has been read (17 R354, R358). -/
def State.hubStatus (s : State) : Dword :=
  let b (v : Bool) (n : Nat) : Nat := if v then 2 ^ n else 0
  BitVec.ofNat 64 (b s.ready 0 + b s.errV 1 + b s.alarm 2 + b (s.cores.toList.any (·.quarantined)) 3 + b (s.cxl.get 0) 4 + b (s.cxl.get 1) 5 +
    2 ^ 8 * (s.stage % 2 ^ 8) + 2 ^ 16 * (s.err % 2 ^ 8))

/-- A byte of BAR0 of a host port: `HSTAT`, then the firmware mailboxes, whose layout the manual does not give (17 R355, R358). -/
def State.bar0Byte (s : State) (port : Fin 2) (off : Nat) : Byte :=
  if off < 8 then (leBytes 8 s.hubStatus.toNat).getD off 0 else cellRead zeroBg s.bar0 (port.val * 2 ^ 14 + off)

/-- A read of 8 bytes of BAR0 of a host port, which is 16 KiB long (17 R355, R358). -/
def State.bar0Read (s : State) (port : Fin 2) (off : Nat) : Option Dword :=
  if off + 8 ≤ 2 ^ 14 then some (BitVec.ofNat 64 (leNat ((List.range 8).map (fun i => s.bar0Byte port (off + i))))) else none

/-- A write of the host, or of firmware, to the mailboxes of BAR0; `HSTAT` is read-only (17 R355, R358). -/
def State.bar0Write (s : State) (port : Fin 2) (off : Nat) (bs : List Byte) : State :=
  if s.errV then s
  else { s with bar0 := (bs.zipIdx).foldl (fun m b =>
    let o := off + b.2
    if 8 ≤ o && o < 2 ^ 14 then cellWrite zeroBg m (port.val * 2 ^ 14 + o) b.1 else m) s.bar0 }

/-- The queue and the offset in its notify page of an offset in BAR2 (17 R358, 14 R294). -/
def barQueue (off : Nat) : QueueId × Nat := (Fin.ofNat 256 (off / 2 ^ 12), off % 2 ^ 12)

/-- A read of 8 bytes of BAR2 (17 R356, R358). -/
def State.bar2Read (s : State) (off : Nat) : Dword := s.notifyRead (barQueue off).1 (barQueue off).2

/-- A write of the host to BAR2: to an offset of the notify page of a queue (17 R356, R358). -/
def bar2Write (off size : Nat) (v : Dword) (s : State) : Res := execRegisterWrite (barQueue off).1 (barQueue off).2 size v s

/-! ### Packets: reading, checks, start (14 R293, R300, R301) -/

/-- The length of a packet of a type, where it is fixed (14 Table 14-5). -/
def packetLen (typ : Nat) : Nat :=
  match typ with
  | 1 => 9 | 2 => 6 | 3 => 6 | 4 => 3 | 5 => 2 | 6 => 6 | 7 => 2 | 8 => 4 | 9 => 3 | 10 => 1 | 11 => 8 | 12 => 2
  | _ => 0

def hdrType (h : Word) : Nat := h.toNat / 2 ^ 24
def hdrLen (h : Word) : Nat := h.toNat / 2 ^ 16 % 2 ^ 8
def hdrC (h : Word) : Bool := h.getLsbD 15
def hdrOrder (h : Word) : Bool := h.getLsbD 14

/-- A header that passes its check (14 R300). -/
def headerOk (h : Word) : Bool :=
  hdrType h ≤ 12 && h.toNat % 2 ^ 14 == 0 && (if hdrType h = 0 then 1 ≤ hdrLen h else hdrLen h == packetLen (hdrType h))

/-- The fields of a packet's body lie in their ranges (14 Table 14-6). -/
def bodyOk (w : List Word) : Bool :=
  let f := pkt32 w
  let window (i : Nat) (l : List Nat) : Bool := l.contains (winOf (pkt64 w i))
  match hdrType (w.getD 0 0) with
  | 0 => (w.drop 1).all (fun x => x == 0)
  | 1 => window 4 [0x10] && f 4 % 64 == 0 && f 6 / 4 % 2 ^ 12 == 0 && f 6 / 2 ^ 26 == 0 && f 7 / 2 ^ 16 == 0
  | 2 => window 1 [0x10, 0x20] && f 1 % 8 == 0 && f 5 != 0
  | 3 => f 5 < 2
  | 5 => f 1 < 2
  | 6 => window 1 [0x10] && f 5 < 2 ^ 16
  | 7 => f 1 < 2 ^ 16
  | 8 => f 3 < 2
  | 11 => window 1 [0x10, 0x20] && window 5 [0x10] && f 7 == 0
  | 12 => f 1 < 2 ^ 16
  | _ => true

/-- Launches of the queue that have not completed: nodes that have not committed (14 Table 14-8). -/
def State.launchesOpen (s : State) (q : QueueId) : Bool :=
  s.nodes.any (fun n => n.queue == q && !(n.state == .committed || n.state == .tainted))

/-- Nodes of the queue that have not settled (14 Table 14-8). -/
def State.nodesOpen (s : State) (q : QueueId) : Bool := s.nodes.any (fun n => n.queue == q)

/-- A node of the queue stands at its head: launched or re-queued, and T0 of the attempt has not come (14 R298, R304 to R306). -/
def State.headNode (s : State) (q : QueueId) : Option Node :=
  s.nodes.find? (fun n => n.queue == q && (match n.state with | .waiting _ => true | .armed => true | _ => false))

/-- A node of the partition commits: no node is armed, and no page table changes under it (15 R320, 16 R346, R347). -/
def State.committingIn (s : State) (p : PartId) : Bool := s.nodes.any (fun n => n.part == p && n.state == .committing)

/-- Words that the drover has not read. -/
def Queue.unread (u : Queue) : Nat := (u.tail - u.head).toNat

/-- A BADPKT record; the queue stops with `HEAD` at the packet (14 R300). -/
def State.badPacket (s : State) (q : QueueId) : State :=
  let u := s.queue q
  let typ := match u.cfg with | some c => hdrType (s.ringWord c u.head) | none => 0
  s.completePacket q (some (plainRecord 0 u.head.toNat typ 0x12)) true 0

/-- The drover may start a packet of the queue: it is resident and running, none is in hand or held back, none waits at its head, words are
unread, the completion ring has eight places, and the ring can be read (14 R298, R301, R310, 15 R317, 17 R367). -/
def State.mayStart (s : State) (q : QueueId) (c : QueueCfg) : Bool :=
  let u := s.queue q
  u.started.isNone && !u.out && u.state == .run && !u.heldBack && u.unread != 0 && (s.headNode q).isNone &&
  decide ((u.ctail - u.chead).toNat + 8 ≤ c.cringRecs) && !s.awaits c.ring

/-- `RESERVED_TYPE_PACKET` (14 R300): the header at `HEAD` fails its check. -/
def execReservedTypePacket (q : QueueId) (s : State) : Res :=
  match (s.queue q).cfg with
  | some c => .next (if s.mayStart q c && !headerOk (s.ringWord c (s.queue q).head) then s.badPacket q else s)
  | none => .next s

/-- A packet of a type at `HEAD` is started where it may: header and body pass, `TAIL` covers it, earlier launches allow it (14 R293,
R300, R301). A packet that has started already is found as it is. -/
def State.startPacket (s : State) (q : QueueId) (typ : Nat) : State :=
  let u := s.queue q
  match u.cfg with
  | none => s
  | some c =>
    let h := s.ringWord c u.head
    if !s.mayStart q c || hdrType h ≠ typ then s
    else if !headerOk h then s.badPacket q
    else if u.unread < hdrLen h then s
    else
      let w := s.ringWords c u.head (hdrLen h)
      if !bodyOk w then s.badPacket q
      else if hdrOrder h && s.launchesOpen q then s
      else { s.setQueue q { u with started := some ⟨s.serial, u.head.toNat, typ, w, s.drone⟩, keys := (s.part c.part).keys, reqSig := (s.part c.part).reqSig } with serial := s.serial + 1 }

/-- The packet of a type that the queue has started. -/
def Queue.inHand (u : Queue) (typ : Nat) : Option (QueueCfg × Started) :=
  match u.cfg, u.started with
  | some c, some p => if p.typ = typ then some (c, p) else none
  | _, _ => none

/-- A packet's record where its `C` bit asks for one. -/
def cRecord (p : Started) : Option Record :=
  if hdrC (p.words.getD 0 0) then some (plainRecord 0 p.seq p.typ 0) else none

/-! ### NOP, MARK, FENCE (14 R301) -/

/-- `NOP_PACKET` (14 R301). -/
def execNopPacket (q : QueueId) (s : State) : Res :=
  let s := s.startPacket q 0
  match (s.queue q).inHand 0 with
  | some (_, p) => .next (s.completePacket q (cRecord p) false p.words.length)
  | none => .next s

/-- `MARK` (14 R301): its record is written on the cycle it starts. -/
def execMark (q : QueueId) (s : State) : Res :=
  let s := s.startPacket q 4
  match (s.queue q).inHand 4 with
  | some (_, p) => .next ((s.completePacket q (some (plainRecord (pkt64 p.words 1) p.seq 4 0)) false 3).writeRecords q)
  | none => .next s

/-- `FENCE_PACKET` (14 R301). -/
def execFencePacket (q : QueueId) (s : State) : Res :=
  let s := s.startPacket q 5
  match (s.queue q).inHand 5 with
  | some (_, p) =>
    if s.launchesOpen q || (pkt32 p.words 1 = 1 && s.nodesOpen q) then .next s
    else .next (s.completePacket q (cRecord p) false 2)
  | none => .next s

/-! ### SEMWAIT and SEMSIG (14 R299, R301, R379, 16 R346) -/

/-- A FAULT record of a packet that no node raised: its unit is the drover (14 R379). -/
def State.packetFault (s : State) (q : QueueId) (c : QueueCfg) (p : Started) (code : Nat) : State :=
  s.completePacket q (some { plainRecord 0 p.seq p.typ 0x10 with fault := code, unit := 0x28 + c.drover }) true 0

/-- What an access of a packet to a semaphore meets, on the page of its first byte or else of its last: the fault code, or nothing (14 R379). -/
def State.semFault (s : State) (c : QueueCfg) (a : Dword) (write : Bool) : Option Nat :=
  let page (off : Nat) : Option Nat := match s.walk c.pasid off with
    | none => some 0x07
    | some l => if (write && !pteW l.e) || !s.keys.contains (pteKey l.e) then some 0x06 else none
  if winOf a = 0x20 then
    match s.hostAnswer c.pasid s.free with
    | some .translation => some 0x07
    | some _ => some 0x06
    | none => none
  else if winOf a ≠ 0x10 then some 0x07
  else (page (offOf a)).orElse (fun _ => page (offOf a + 7))

/-- The semaphore holds at least the value (14 R301). -/
def State.semHolds (s : State) (c : QueueCfg) (p : Started) : Bool :=
  match s.readFor c.pasid (pkt64 p.words 1) 8 with
  | some b => decide ((pkt64 p.words 3).toNat ≤ leNat b)
  | none => false

/-- The next read of a semaphore: after its interval, or on the next cycle where device memory re-trains (14 R299, R301, 17 R367). -/
def State.nextRead (s : State) (p : Started) (ns : Nat) (ev : Instr) : State :=
  if s.awaits (pkt64 p.words 1) then s.postIn 1 ev else s.postAt (.ns (s.drone + ns)) ev

/-- One read of a SEMWAIT's semaphore: fault, completion, or nothing. -/
def State.semRead (s : State) (q : QueueId) (c : QueueCfg) (p : Started) : State × Bool :=
  let f := s.semFault c (pkt64 p.words 1) false
  let s := s.nextFree
  if s.awaits (pkt64 p.words 1) then (s, false)
  else match f with
  | some code => (s.packetFault q c p code, true)
  | none => if s.semHolds c p then (s.completePacket q (cRecord p) false 6, true) else (s, false)

/-- `SEMWAIT` (14 R299, R301): the first read; the later ones, the park and the timeout are due from its start. -/
def execSemwait (q : QueueId) (s : State) : Res :=
  let fresh := (s.queue q).started.isNone
  let s := s.startPacket q 2
  match (s.queue q).inHand 2 with
  | some (c, p) =>
    if !fresh then .next s
    else
      let r := s.semRead q c p
      if r.2 then .next r.1
      else
        let s := r.1
        let s := s.nextRead p 2000 (.semaphorePoll q p.id)
        let s := s.postAt (.ns (s.drone + 1000000)) (.park q p.id)
        .next (s.postAt (.ns (p.at_ + 1000 * pkt32 p.words 5)) (.semwaitTimeout q p.id))
  | none => .next s

/-- The SEMWAIT with this number of start is in hand: one that was given up when its queue stopped is not (14 R297, R301, log 31). -/
def Queue.waitingFor (u : Queue) (id : Nat) : Option (QueueCfg × Started) := (u.inHand 2).filter (fun r => r.2.id == id)

/-- `SEMAPHORE_POLL` (14 R301): while the queue is resident, at intervals of 2 µs. -/
def execSemaphorePoll (q : QueueId) (id : Nat) (s : State) : Res :=
  match (s.queue q).waitingFor id with
  | some (c, p) =>
    if (s.queue q).state == .parked then .next s
    else
      let r := s.semRead q c p
      .next (if r.2 then r.1 else r.1.nextRead p 2000 (.semaphorePoll q id))
  | none => .next s

/-- `PARK` (14 R299): the queue leaves its slot. -/
def execPark (q : QueueId) (id : Nat) (s : State) : Res :=
  match (s.queue q).waitingFor id with
  | some _ => .next ((s.modQueue q (fun u => { u with state := .parked, out := true })).postAt (.ns (s.drone + 100000)) (.parkedPoll q id))
  | none => .next s

/-- `PARKED_POLL` (14 R299): every 100 µs; where the condition holds, the queue takes the next free slot and goes on. -/
def execParkedPoll (q : QueueId) (id : Nat) (s : State) : Res :=
  match (s.queue q).waitingFor id with
  | some (c, p) =>
    if (s.queue q).state != .parked then .next s
    else
      let r := s.semRead q c p
      if !r.2 then .next (r.1.nextRead p 100000 (.parkedPoll q id))
      else .next (r.1.modQueue q (fun u => if u.state == .parked then { u with state := .idle } else u))
  | none => .next s

/-- `SEMWAIT_TIMEOUT` (14 R301). -/
def execSemwaitTimeout (q : QueueId) (id : Nat) (s : State) : Res :=
  match (s.queue q).waitingFor id with
  | some (_, p) => .next (s.completePacket q (some (plainRecord 0 p.seq 2 0x14)) true 6)
  | none => .next s

/-- The write of a SEMSIG: added to or set, unstaged, in the live version (14 R301, 16 R346). -/
def State.semWrite (s : State) (c : QueueCfg) (p : Started) : State :=
  let a := pkt64 p.words 1
  let old := BitVec.ofNat 64 (leNat ((s.readFor c.pasid a 8).getD []))
  let v := if pkt32 p.words 5 = 1 then pkt64 p.words 3 else old + pkt64 p.words 3
  (s.writeFor c.part c.pasid a (leBytes 8 v.toNat)).wakeRange c.pasid a 8

/-- `SEMSIG` (14 R301, R379, 16 R346): it waits for a commit of its partition, whose exclusion a copy of the page has. -/
def execSemsig (q : QueueId) (s : State) : Res :=
  let s := s.startPacket q 3
  match (s.queue q).inHand 3 with
  | some (c, p) =>
    if s.launchesOpen q || s.committingIn c.part || s.awaits (pkt64 p.words 1) then .next s
    else
      let f := s.semFault c (pkt64 p.words 1) true
      let s := s.nextFree
      match f with
      | some code => .next (s.packetFault q c p code)
      | none =>
        if winOf (pkt64 p.words 1) = 0x20 then .next ((s.semWrite c p).completePacket q (cRecord p) false 6)
        else
          let off := offOf (pkt64 p.words 1)
          match (s.ownAt c.part c.pasid off).bind (fun s => s.ownAt c.part c.pasid (off + 7)) with
          | none => .next (s.packetFault q c p 0x07)
          | some s => .next ((s.semWrite c p).completePacket q (cRecord p) false 6)
  | none => .next s

/-! ### PIN and UNPIN (03 R54 to R59) -/

/-- `PIN` (03 R54 to R56); the image id is reported beside the record, which has no field for it (03 R48, log 23). -/
def execPin (q : QueueId) (s : State) : Res :=
  let s := s.startPacket q 11
  match (s.queue q).inHand 11 with
  | some (c, p) =>
    let a := pkt64 p.words 1
    let len := (pkt64 p.words 3).toNat
    let b := s.bytesFor c.pasid a len
    let r := s.pinCheck q c.pasid a len b
    let s := s.nextFree
    if s.awaits a || s.awaits (pkt64 p.words 5) then .next s
    else if r.1 ≠ 0 then .next (s.completePacket q (some (plainRecord 0 p.seq 11 r.1)) false 8)
    else
      let h := s.freeHandle
      let s := s.emit (.pinned h ((b.drop 0x20).take 16))
      .next ((s.pinImage c.part c.pasid (b.take (u64 b 0x18)) (pkt64 p.words 5) r.2).completePacket q
        (some (plainRecord (BitVec.ofNat 64 h) p.seq 11 0)) false 8)
  | none => .next s

/-- `UNPIN` (03 R58): the image retires at once; the record waits for its release. -/
def execUnpin (q : QueueId) (s : State) : Res :=
  let s := s.startPacket q 12
  match (s.queue q).inHand 12 with
  | some (c, p) =>
    let h := pkt32 p.words 1 % 2 ^ 16
    if s.images.any (fun i => i.unpins.contains (q, p.seq)) then .next s
    else if s.images.any (fun i => i.handle == h && i.part == c.part) then
      let s := { s with images := s.images.map (fun (i : Image) =>
        if i.handle == h then { i with retiring := true, unpins := i.unpins ++ [(q, p.seq)] } else i) }
      .next (s.releaseSoon h)
    else .next (s.completePacket q (some (plainRecord 0 p.seq 12 0x15)) true 2)
  | none => .next s

/-! ### GJOIN and GLEAVE (13 R278, 14 R302) -/

/-- The partition of a queue is the fabric partition. -/
def State.fabricQueue (s : State) (c : QueueCfg) : Bool := some c.part == s.fabric

/-- `GJOIN` (13 R278, 14 R302): the package listens and joins at the MEMBER instant, the bellwether at that of its own notice. A block with
a nonzero reserved byte, or a port or a lead outside its range, gets BADPKT: the manual names no check of it, and this is the model's
choice (log 31). -/
def execGjoin (q : QueueId) (s : State) : Res :=
  let s := s.startPacket q 9
  match (s.queue q).inHand 9 with
  | some (c, p) =>
    if s.group.joining == some (q, p.seq) || s.awaits (pkt64 p.words 1) then .next s
    else if !s.fabricQueue c then .next (s.completePacket q (some (plainRecord 0 p.seq 9 0x18)) true 3)
    else
      let b := s.bytesFor c.pasid (pkt64 p.words 1) 32
      let port (v : Nat) : Bool := v < 12 || v == 0xFF
      let lead := u32 b 8
      if s.group.member || s.group.joining.isSome || !port (byteAt b 2) || !port (byteAt b 3) || u16 b 6 ≠ 0 || lead < 64 || 10000 < lead ||
          (b.drop 12).any (fun x => x != 0) then .next (s.badPacket q)
      else
        let s := { s with group := { s.group with
          tag := u16 b 0, parent := byteAt b 2, alternate := byteAt b 3, deputy := u16 b 4, leadUs := lead, joining := some (q, p.seq)
          goodExchanges := 0, lastOffset := none, faults := [], seen := [], listen := [], asked := none } }
        .next (if byteAt b 2 = 0xFF then s.memberNotice 0 true 0 [] (admissible s.limit) else s)
  | none => .next s

/-- `GLEAVE` (13 R278, 14 R302): a group of one leaves at once, a member at the MEMBER instant. -/
def execGleave (q : QueueId) (s : State) : Res :=
  let s := s.startPacket q 10
  match (s.queue q).inHand 10 with
  | some (c, p) =>
    if s.group.leaving == some (q, p.seq) then .next s
    else if !s.fabricQueue c then .next (s.completePacket q (some (plainRecord 0 p.seq 10 0x18)) true 1)
    else if !s.inGroup then .next ((if s.group.member then s.groupOfOne.heed else s).completePacket q (some (plainRecord 0 p.seq 10 0)) false 1)
    else
      let s := { s with group := { s.group with leaving := some (q, p.seq) } }
      .next (if s.group.bell then s.memberNotice s.group.rank false 0 [] 0 else s.askBell false)
  | none => .next s

end Sys2Proof.Machine
end

