-- ==== Sys2Proof/Machine/Launch.lean ====
section
/-! DEFINITION. Launches: checks, partitions and grants, placement, arming, budgets and pre-emption requests (14 R303 to R309, 15
R318, 05 R82, R93). -/

namespace Sys2Proof.Machine
open Host

/-! ### Partitions (14 R307, R308) -/

/-- Hundred times the deficit of a partition in core-nanoseconds: T × e - 100 × u (14 R307). -/
def State.deficit (s : State) (p : PartId) : Int :=
  ((s.part p).target : Int) * ((s.drone - s.window : Nat) : Int) - 100 * ((s.part p).usage : Int)

/-- 10 core-ms, in the unit of `deficit` (14 R308). -/
def tenCoreMs : Int := 100 * 10000000

/-- The cores that a partition holds. -/
def State.held (s : State) (p : PartId) : Nat :=
  ((List.range 32).filter (fun c => (s.core (unitOf c)).owner == some p)).length

/-- The compute cores granted to partitions, those in a border move among them (01 R13, 14 R307). -/
def State.grantedCores (s : State) : Nat :=
  ((List.range 32).filter (fun c => (s.core (unitOf c)).owner.isSome || (s.core (unitOf c)).moving)).length

/-- How many more cores the controller can grant a partition: its ceiling, and 31 in the package (01 R13, 14 R307, 15 R323). -/
def State.room (s : State) (p : PartId) : Nat :=
  let moving := (s.agenda.filter (fun t => match t.ev with | .borderMove o _ => o == p | _ => false)).length
  min ((s.part p).ceiling - s.held p - moving) (31 - s.grantedCores)

/-- The core cannot start the node that it has been given (14 R305, 15 R323, R325). -/
def Core.unready (c : Core) : Bool := c.quarantined || c.muster || c.moving

/-- The core is out of service: quarantined, in muster, in a border move, withdrawn (14 R308, 15 R323, R325, 17 R367). -/
def Core.outOfService (c : Core) : Bool := c.unready || c.withdrawn

/-- The core needs no border move to belong to the partition (14 R308). -/
def Core.atOnce (c : Core) (p : PartId) : Bool := !c.fresh && (c.lastOwner == none || c.lastOwner == some p)

/-- The partition of a waiting launch. -/
def Node.isWaiting (n : Node) : Bool := match n.state with | .waiting h => !h | _ => false

/-- An erased slot holds back the node: slot 0 until every context that it lost is rebuilt, another one while a leaf of the node's context
names it (16 R353, 17 R366). -/
def State.slotsMissing (s : State) (n : Node) : Bool :=
  !s.lost.isEmpty || s.erased.contains 0 ||
  (!s.erased.isEmpty && (match lookup s.roots n.pasid with
    | some r => (s.leavesOf n.pasid r).any (fun l => s.erased.contains (pteKey l.e))
    | none => false))

/-- The launch is in line for cores: it waits at the head of its queue, which runs, and no pre-emption request is kept for the queue
(14 R298, R304, 15 R318). -/
def State.inLine (s : State) (n : Node) : Bool :=
  n.isWaiting && (s.queue n.queue).kept.isNone && !(s.queue n.queue).halted && (s.headNode n.queue).map (·.nd) == some n.nd

/-- The controller may place the node: it is in line, no alarm is in force, the keys that it needs are there, and no node of its partition
commits (14 R304, 15 R320, R328, 16 R353). -/
def State.mayPlace (s : State) (n : Node) : Bool := s.inLine n && !s.alarm && !s.slotsMissing n && !s.committingIn n.part

/-- A partition with a launch in line comes first: the largest deficit, then the lower number; one at its ceiling does not count
(14 R307). -/
def State.firstInLine (s : State) (p : PartId) : Bool :=
  (List.finRange 16).all (fun o =>
    o == p || !s.nodes.any (fun n => n.part == o && s.inLine n) || (s.part o).ceiling ≤ s.held o ||
    s.deficit o < s.deficit p || (s.deficit o == s.deficit p && decide (p.val < o.val)))

/-- `CORE_GRANT` (14 R307, R308): at once, or through a border move of 2^19 cycles. -/
def execCoreGrant (part : PartId) (core : UnitId) (s : State) : Res :=
  s.unlessFailed <|
  let c := s.core core
  if isShep core || c.owner.isSome || c.node.isSome || c.outOfService || s.room part = 0 then .next s
  else if c.atOnce part then .next (s.setCore core { c with owner := some part, lastOwner := some part })
  else .next ((s.setCore core { c with moving := true }).postIn (2 ^ 19) (.borderMove part core))

/-- `BORDER_MOVE` ends (14 R308, 11 R208): the scratchpad reads zero, counters and last tickets are zero. -/
def execBorderMove (part : PartId) (core : UnitId) (s : State) : Res :=
  let c := s.core core
  if !c.moving then .next s
  else
    let lo := core.val * spadSize
    let s := { s.wipeSpad core 0 with badSpad := s.badSpad.filter (fun x => !(lo ≤ x && x < lo + spadSize)) }
    .next (s.setCore core
      { c with
        moving := false, fresh := false, owner := some part, lastOwner := some part, tlc := Vector.replicate 4 0
        ticket := Vector.replicate 4 0 })

/-- A node that is armed or runs uses the fabric (14 R309). -/
def Node.onFabric (n : Node) : Bool :=
  (!n.sheps.isEmpty || n.family.group) &&
  (n.state == .armed || n.state == .running || n.state == .ending || n.state == .voted || n.state == .committing)

/-- A node of the partition uses the fabric (14 R309). -/
def State.usesFabric (s : State) (p : PartId) : Bool := s.nodes.any (fun n => n.part == p && n.onFabric)

/-- The fabric partition may change from what it is (14 R309). -/
def State.fabricFree (s : State) (new : Option PartId) : Bool :=
  !(s.fabric.any s.usesFabric || new.any s.usesFabric)

/-- Another partition, or none, is the fabric partition: counters and last tickets of the shepherd cores, which it holds, are zero
(14 R309, 11 R208). -/
def State.setFabric (s : State) (new : Option PartId) : State :=
  if new = s.fabric then s
  else { s with
    fabric := new
    cores := Vector.ofFn (fun u => let c := s.cores.get u
      if isShep u then { c with tlc := Vector.replicate 4 0, ticket := Vector.replicate 4 0 } else c) }

/-- `PARTITION_CONFIG` (14 R307, R309, 15 R323): target, ceiling and fabric flag of a partition, and where given the muster interval;
refused when the targets sum to more than 3,100, the ceiling is outside 1 to 31, the interval outside 200 µs to 10 ms, or the fabric
partition would change while a node uses the fabric. -/
def execPartitionConfig (part : PartId) (target ceiling : Nat) (run : PartRun) (s : State) : Res :=
  s.unlessFailed <|
  let sum := ((List.finRange 16).filter (fun p => p != part)).foldl (fun m p => m + (s.part p).target) target
  let new := if run.fabric then some part else if s.fabric = some part then none else s.fabric
  if 3100 < sum || ceiling = 0 || 31 < ceiling || run.musterUs.any (fun m => m < 200 || 10000 < m) then .next (s.emit (.refusedCall 307))
  else if new ≠ s.fabric && !s.fabricFree new then .next (s.emit (.refusedCall 309))
  else
    let s := (s.modPart part (fun p => { p with target := target, ceiling := ceiling })).setFabric new
    .next { s with musterUs := run.musterUs.getD s.musterUs }

/-- `FABRIC_PARTITION_SET` (14 R309): a change only while neither the old nor the new partition runs a node that uses the fabric, and the
detour map at any time. -/
def execFabricPartitionSet (part : PartId) (detour : Nat) (s : State) : Res :=
  s.unlessFailed <|
  if some part ≠ s.fabric && !s.fabricFree (some part) then .next (s.emit (.refusedCall 309)) else .next { s.setFabric (some part) with detour := detour }

/-! ### `LAUNCH` (14 R303) -/

/-- The bits of a core mask. -/
def maskCores (m : Word) : List UnitId := ((List.range 32).filter (fun c => m.getLsbD c)).map unitOf

/-- The detour map that a partition's variants must have (14 Table 14-9, order 6). -/
def State.mapOf (s : State) (p : PartId) : Nat := if s.fabric == some p then s.detour else 0

/-- The variants that a launch may take (14 Table 14-9, R304). -/
def State.fits (s : State) (p : PartId) (f : Family) (mask : Word) : List Variant :=
  f.variants.filter (fun v => v.detour == s.mapOf p && v.cores ≤ (s.part p).ceiling && (mask == 0 || v.cores == (maskCores mask).length))

/-- Some variant has a shepherd entry (14 Table 14-9). -/
def Family.sheps (f : Family) : Bool := f.variants.any (fun v => v.entries.any (fun e => 0x80 ≤ e.rank))

/-- The checks of Table 14-9 in order: a status, or the family. -/
def State.launchCheck (s : State) (p : PartId) (w : List Word) : Nat × Option Family :=
  let h := pkt32 w 1 / 2 ^ 16
  match s.images.find? (fun i => i.handle == h && i.part == p) with
  | none => (0x15, none)
  | some i =>
    if i.retiring then (0x16, none)
    else match i.families.find? (fun f => f.id == pkt32 w 1 % 2 ^ 16) with
      | none => (0x17, none)
      | some f =>
        if (f.sheps || f.group) && s.fabric != some p then (0x18, none)
        else if f.group && (s.part p).pendingGroup then (0x19, none)
        else if (s.fits p f (w.getD 8 0)).isEmpty then (0x17, none)
        else (0, some f)

/-- No variant chosen yet. -/
def noVariant : Variant := { cores := 0, detour := 0, entries := [], folds := [] }

/-- The node of a launch that has passed its checks; it waits at the head of its queue (14 R304). -/
def newNode (nd : Nat) (q : QueueId) (c : QueueCfg) (p : Started) (f : Family) (drone : Nat) : Node :=
  let w := p.words
  { nd := nd, id := pkt64 w 2, queue := q, seq := p.seq, part := c.part, pasid := c.pasid, image := pkt32 w 1 / 2 ^ 16, family := f
    variant := noVariant, args := pkt64 w 4, fresh := pkt32 w 6 % 2 == 1, strict := pkt32 w 6 / 2 % 2 == 1
    coord := pkt32 w 6 / 2 ^ 14 % 2 ^ 12, tag := pkt32 w 7 % 2 ^ 16, mask := w.getD 8 0, record := true, attempt := 0, cores := [], sheps := []
    t0 := 0, rank := 0, size := 1, state := .waiting false, waitFrom := drone, arrived := [], announced := [], staged := [], pre := []
    uncleared := [], lossyZeros := 0, votes := [], stopAt := 0, halt := none, saved := [], savedSpad := [], savedSeeds := [], later := [], stepping := none }

/-- `LAUNCH` (14 R303, R309): the checks; then the controller tries to place the node. -/
def execLaunch (q : QueueId) (s : State) : Res :=
  let s := s.startPacket q 1
  match (s.queue q).inHand 1 with
  | some (c, p) =>
    if (s.headNode q).isSome then .next s
    else
      let r := s.launchCheck c.part p.words
      match r.2 with
      | none =>
        let s := if r.1 = 0x19 then s.modPart c.part (fun v => { v with pendingGroup := false }) else s
        .next (s.completePacket q (some (plainRecord (pkt64 p.words 2) p.seq 1 r.1)) true 9)
      | some f =>
        let nd := s.serial
        let n := newNode nd q c p f s.drone
        let s := if f.group then
            { s with serial := nd + 1, nodes := s.nodes ++ [{ n with announced := s.group.early }], group := { s.group with early := [] } }
          else { s with serial := nd + 1, nodes := s.nodes ++ [n] }
        .next (s.postIn 1 (.variantPlacement nd))
  | none => .next s

/-! ### Placement (14 R304) -/

/-- The cores of a partition that no node uses and that are in service. -/
def State.ownFree (s : State) (p : PartId) : List UnitId :=
  ((List.range 32).map unitOf).filter (fun u => (s.core u).node.isNone && !(s.core u).outOfService && (s.core u).owner == some p)

/-- The free cores that a partition may be granted at once, where it is first in line. -/
def State.unowned (s : State) (p : PartId) : List UnitId :=
  if s.firstInLine p then
    ((List.range 32).map unitOf).filter (fun u =>
      let c := s.core u
      c.node.isNone && !c.outOfService && c.owner.isNone && c.atOnce p)
  else []

/-- The cores that the controller can give a waiting node now, ascending: with a core mask those of the mask. -/
def State.usable (s : State) (p : PartId) (mask : Word) : List UnitId :=
  let new := ((s.unowned p).filter (fun u => mask == 0 || mask.getLsbD u.val)).take (s.room p)
  sortBy (fun (u : UnitId) => u.val) (s.ownFree p ++ new)

/-- The shepherds that a variant needs: die and active site; none while one of them is busy or out of service. -/
def State.sheps (s : State) (v : Variant) : Option (List (Nat × UnitId)) :=
  let dies := ((v.entries.filter (fun e => 0x80 ≤ e.rank)).map (fun e => e.rank % 4)).eraseDups
  let l := dies.map (fun d => (d, unitOf (32 + 2 * d + (if s.active.get (Fin.ofNat 4 d) then 1 else 0))))
  if l.all (fun x => (s.core x.2).node.isNone && !(s.core x.2).outOfService) then some l else none

/-- The variant and cores that the controller fixes, if it can place the node (14 R304). -/
def State.choose (s : State) (n : Node) : Option (Variant × List UnitId × List (Nat × UnitId)) :=
  let free := s.usable n.part n.mask
  let vs := s.fits n.part n.family n.mask
  if n.mask == 0 then
    match vs.filter (fun v => v.cores ≤ free.length) with
    | [] => none
    | v :: rest =>
      let v := rest.foldl (fun a b => if a.cores < b.cores then b else a) v
      (s.sheps v).map (fun l => (v, free.take v.cores, l))
  else
    let cs := maskCores n.mask
    if cs.all free.contains then
      match vs with
      | [] => none
      | v :: _ => (s.sheps v).map (fun l => (v, cs, l))
    else none

/-- Free cores that the partition could have through a border move are granted to it while its launch waits (14 R307, R308). -/
def State.grantMore (s : State) (n : Node) : State :=
  if !s.firstInLine n.part then s
  else
    let wanted := ((List.range 32).map unitOf).filter (fun u =>
      let c := s.core u
      c.owner.isNone && c.node.isNone && !c.outOfService && !c.atOnce n.part && (n.mask == 0 || (maskCores n.mask).contains u))
    (wanted.take (s.room n.part)).foldl (fun s u => s.postIn 1 (.coreGrant n.part u)) s

/-- The running node that a partition's deficit pre-empts: one of the partition of the smallest deficit (14 R308). -/
def State.victim (s : State) (p : PartId) : Option Node :=
  let running := s.nodes.filter (fun n => n.state == .running && n.part != p)
  running.foldl (fun m n => match m with
    | none => some n
    | some k => if s.deficit n.part < s.deficit k.part then some n else some k) none

/-- `VARIANT_PLACEMENT` (14 R304 to R306, R308, 15 R318, R320): fixed on this cycle when the controller can, else tried again. -/
def execVariantPlacement (nd : Nat) (s : State) : Res :=
  match s.node? nd with
  | none => .next s
  | some n =>
    if !n.isWaiting then .next s
    else
      let again (s : State) : Res := .next (s.postIn 1 (.variantPlacement nd))
      if !s.mayPlace n then again s
      else match s.choose n with
        | none =>
          let s := s.grantMore n
          if n.waitFrom + 1000000 ≤ s.drone && tenCoreMs < s.deficit n.part &&
              !s.agenda.any (fun t => match t.ev with | .preemptionRequest _ p => p.part == n.part | _ => false) &&
              !s.queues.toList.any (fun q => q.kept.any (fun k => k.1 == n.part)) then
            match s.victim n.part with
            | some k => again (s.postIn 1 (.preemptionRequest k.nd ⟨n.part, nd⟩))
            | none => again s
          else again s
        | some (v, cs, sh) =>
          let s := (cs ++ sh.map (·.2)).foldl (fun s u => s.modCore u (fun c =>
            { c with node := some nd, owner := some n.part, lastOwner := some n.part })) s
          let t0 := s.cyc + 1024
          let s := s.modNode nd (fun n => { n with variant := v, cores := cs, sheps := sh, t0 := t0, state := .armed, alarmed := false })
          .next (s.postIn 1024 (.nodeArm nd))

/-! ### Arming (05 R82, R93, 14 R305) -/

/-- Free words from a number on. -/
def freeWords (base n : Nat) : List Word := (List.range n).map (fun i => Config.freeWord (base + i))

/-- How many free words a core takes at node start. -/
def startWords : Nat := 39 * 256 + 4 * 24576 + 8 * 3072 + 8 * 1024

/-- The contents of a core that are undefined at node start: tiles, accumulators and their kinds, slots (05 Table 5-1, 07 R145). -/
def Core.undefine (c : Core) (base : Nat) : Core :=
  let b1 := base + 39 * 256
  let b2 := b1 + 4 * 24576
  let b3 := b2 + 8 * 3072
  { c with
    tiles := Vector.ofFn (fun i => freeWords (base + 256 * i.val) 256)
    accs := Vector.ofFn (fun i => ⟨freeWords (b1 + 24576 * i.val) 24576, if Config.freeBit (base + i.val) then .fp32 else .int32⟩)
    planes := Vector.ofFn (fun i => wordBytes (freeWords (b2 + 3072 * i.val) 3072))
    rows := Vector.ofFn (fun i => wordBytes (freeWords (b3 + 1024 * i.val) 1024)) }

/-- The index registers at node start (05 Table 5-1). -/
def startX (args : Dword) (who cores rank size : Nat) : Vector Dword 32 :=
  Vector.ofFn (fun i =>
    match i.val with
    | 1 => args
    | 2 => BitVec.ofNat 64 who
    | 3 => BitVec.ofNat 64 cores
    | 4 => BitVec.ofNat 64 rank
    | 5 => BitVec.ofNat 64 size
    | _ => 0)

/-- A sequencer at node start; with an entry, its first instruction issues on T0 + offset + its `IDLE` (05 R82). -/
def startSeq (x : Vector Dword 32) (e : Option Entry) (t0 : Nat) : Seq :=
  match e with
  | some e => { x := x, pc := BitVec.ofNat 64 e.addr, entry := true, base := t0 + e.offset }
  | none => { x := x }

/-- `FOLD` of a shepherd core of die d, derived from the folds of the compute cores (05 R93). -/
def shepFold (n : Node) (d : Nat) : Dword :=
  let folds := n.cores.zip n.variant.folds
  let mine := folds.filter (fun f => foldShep f.2 d)
  let seqs := (n.variant.entries.filter (fun e => e.rank == 0x80 + d)).foldl (fun v e => v ||| 2 ^ seqNum e.q) 0
  let diem := (mine.filter (fun f => f.1.val / 8 == d)).foldl (fun v f => v ||| 2 ^ (4 + f.1.val % 8)) 0
  let pkgm := mine.foldl (fun v f => v ||| 2 ^ (16 + f.1.val)) 0
  let shm := mine.foldl (fun v f => v ||| (bitsOf f.2.toNat 51 48 * 2 ^ 48)) 0
  BitVec.ofNat 64 (seqs ||| diem ||| pkgm ||| shm ||| (if n.family.group then 2 ^ 52 else 0))

/-- The state that a core holds at node start: what it does not name keeps its value (05 R82, 02 Table 2-6, 12 R248, R266). -/
def Core.start (c : Core) (n : Node) (who : Nat) (fold : Dword) : Core :=
  let x := startX n.args who n.variant.cores n.rank n.size
  let e (q : SeqName) : Option Entry := n.variant.entries.find? (fun e => e.rank == who && e.q == q)
  { tlc := c.tlc, ticket := c.ticket, owner := c.owner, lastOwner := c.lastOwner, node := some n.nd, passes := c.passes
    runStart := c.runStart, quarantined := c.quarantined, withdrawn := c.withdrawn, muster := c.muster, moving := c.moving
    fresh := c.fresh, wanted := c.wanted
    scl := startSeq x (e .scl) n.t0, ld := startSeq x (e .ld) n.t0, cmp := startSeq x (e .cmp) n.t0, st := startSeq x (e .st) n.t0
    fold := fold, nodeId := n.id, attempt := BitVec.ofNat 8 n.attempt }

/-- Loads the state of a core: tiles, accumulators, slots and working scratchpad are undefined from now on (05 Table 5-1, log 5). -/
def State.loadCore (s : State) (n : Node) (u : UnitId) (who : Nat) (fold : Dword) : State :=
  let s := { s.wipeSpad u (s.free + 1) with badSpad := s.badSpad.filter (fun x => x / spadSize != u.val) }
  let c := ((s.core u).start n who fold).undefine (s.free + 1)
  { s.setCore u c with free := s.free + 1 + startWords }

/-- The units of a node, each with its rank. -/
def Node.units (n : Node) : List (UnitId × Nat) := n.cores.zipIdx ++ n.sheps.map (fun d => (d.2, 0x80 + d.1))

/-- The start cycles of a node's sequencers on a unit (05 R82). -/
def Node.startsOn (n : Node) (who : Nat) : List Nat := (n.variant.entries.filter (fun e => e.rank == who)).map (fun e => n.t0 + e.offset)

/-- Some sequencer of the node has come to its start cycle (14 R305). -/
def Node.begun (n : Node) (cyc : Nat) : Bool := n.variant.entries.any (fun e => n.t0 + e.offset ≤ cyc)

/-- A unit that is not ready on this start cycle: it is quarantined, in muster or moving, or an alarm came between the arming and the start
(14 R305); one that is to be withdrawn at its node's end is ready (17 R367). On T0 every unit is looked at, later those whose sequencers
start. -/
def State.notReady (s : State) (n : Node) : Option UnitId :=
  (n.units.find? (fun u => (s.cyc == n.t0 || (n.startsOn u.2).contains s.cyc) &&
    ((s.core u.1).unready || s.alarm || n.alarmed || (s.core u.1).node != some n.nd))).map (·.1)

/-- `HEAD` moves past the packet of a launch that stands at it (14 R293, R303, R305). -/
def State.passHead (s : State) (n : Node) : State :=
  s.modQueue n.queue (fun q =>
    if q.head.toNat = n.seq && n.attempt = 0 then { q with started := none, head := q.head + 9 } else q)

/-! ### Muster: units taken at the end of a node (15 R323) -/

/-- A unit begins a muster run of 180 µs; its outcome is not fixed (15 R323, log 6). -/
def State.beginRun (s : State) (u : UnitId) : State :=
  let ok := Config.musterPasses s.free
  let s := s.nextFree
  let s := s.modCore u (fun c => { c with muster := true, owner := none, wanted := false, runStart := s.cyc })
  s.postAt (.ns (s.drone + 180000)) (.musterResult u ok)

/-- The rotation takes a compute core, or the exchange of its die takes a shepherd site, which is released and runs its patterns; the next
of each kind is due (15 R323). -/
def State.takeUnit (s : State) (u : UnitId) : State :=
  if isShep u then
    let d := dieFin u
    let spare := unitOf (32 + 2 * d.val + (if s.active.get d then 0 else 1))
    let s := s.modCore u (fun c => { c with wanted := false })
    let s := if (s.core spare).outOfService then s
      else { s.beginRun u with active := s.active.set d.val (!s.active.get d) d.isLt, shepNext := (d.val + 1) % 4 }
    s.postAt (.ns (s.drone + 2000000)) (.shepherdExchange (d + 1))
  else { (s.beginRun u).postAt (.ns (s.drone + 1000 * s.musterUs)) .musterTake with musterNext := (u.val + 1) % 32 }

/-- A core without its node: nothing of the node's sequencers, copies, requests, sends and handles is left (15 R313, R317). -/
def Core.release (c : Core) : Core :=
  { c with
    node := none, owner := none
    scl := { c.scl with entry := false, wait := none, held := false, branches := [], redirect := none, after := none, marks := [], aligned := false }
    ld := { c.ld with entry := false, wait := none, marks := [], aligned := false }
    cmp := { c.cmp with entry := false, wait := none, marks := [], aligned := false }
    st := { c.st with entry := false, wait := none, marks := [], aligned := false }
    streams := Vector.replicate 4 [], bad := c.bad.filter (fun b => b.1 != 5), mailbox := [], slots := Vector.replicate 64 {}
    handles := Vector.replicate 64 {}, descs := Vector.replicate 64 {}, copies := [], tagPending := Vector.replicate 64 0, reqs := [] }

/-- The cores and shepherds of a node return to the controller; one that the muster wants begins its run (15 R317, R323). -/
def State.freeCores (s : State) (n : Node) : State :=
  (n.cores ++ n.sheps.map (·.2)).foldl (fun s u =>
    if (s.core u).node == some n.nd then
      let s := s.modCore u Core.release
      if (s.core u).wanted && !(s.core u).quarantined then s.takeUnit u else s
    else s) s

/-- The node is no longer known; a retiring image may be free. -/
def State.dropNode (s : State) (n : Node) : State :=
  { s with nodes := s.nodes.filter (fun k => k.nd != n.nd) }.releaseSoon n.image

/-- `LNKST` counters reset on the arm cycle of a fabric node with a shepherd entry, when no other one runs (12 R267). -/
def State.resetLinks (s : State) (n : Node) : State :=
  if n.sheps.isEmpty || some n.part != s.fabric || s.nodes.any (fun k => k.nd != n.nd && k.live && !k.sheps.isEmpty) then s
  else { s with ports := s.ports.map (fun p => { p with late := 0, badCrc := 0, stray := 0 }) }

/-- `NODE_BUDGET_EXPIRY` (14 R306): it bounds the node to its `END` and the waits of its end (15 R319). -/
def execNodeBudgetExpiry (nd attempt : Nat) (s : State) : Res :=
  match s.node? nd with
  | none => .next s
  | some n =>
    if n.attempt = attempt && (n.state == .running || n.state == .ending) then
      let d := match (s.queue n.queue).cfg with | some c => c.drover | none => 0
      .next (s.raiseNode nd (0x28 + d) { code := .deadline })
    else .next s

/-! ### Pre-emption (15 R318) -/

/-- `PREEMPTION_REQUEST` for the waiting node `asker` of a partition (14 R308, 15 R318): it stops the node with rank 7, or is kept for
the queue's next launch where it is masked. -/
def execPreemptionRequest (nd : Nat) (asker : Claimant) (s : State) : Res :=
  match s.node? nd with
  | none => .next s
  | some n =>
    if !n.live then .next s
    else
      let s := s.modQueue n.queue (fun q => { q with kept := some (asker.part, asker.node) })
      if n.state == .running && !n.family.nonidem && !n.family.group then
        .next (s.addCause { node := nd, rank := 7, unit := 0x78, seq := none, r := { code := .overrun } })
      else .next s

/-- A request is withdrawn as soon as the condition that raised it no longer holds: the launch that asked waits no more, its queue has
stopped, or the deficit of its partition has fallen to 10 core-ms (15 R318). -/
def State.withdrawKept (s : State) : State :=
  { s with queues := s.queues.map (fun q =>
    match q.kept with
    | some (p, asker) =>
      if s.nodes.any (fun n => n.nd == asker && n.isWaiting && !(s.queue n.queue).halted) && tenCoreMs < s.deficit p then q
      else { q with kept := none }
    | none => q) }

/-- `HOLD_RELEASE` (15 R317, 16 R343): the node that a failed translation held may be armed again. -/
def execHoldRelease (nd : Nat) (s : State) : Res :=
  match s.node? nd with
  | none => .next s
  | some n =>
    if n.state == .waiting true then
      let s := (s.modNode nd (fun n => { n with state := .waiting false, waitFrom := s.drone })).modQueue n.queue
        (fun q => { q with heldBack := false })
      .next (s.postIn 1 (.variantPlacement nd))
    else .next s

end Sys2Proof.Machine
end

