-- ==== Sys2Proof/Machine/Stop.lean ====
section
/-! DEFINITION. Stopping a node: cancellation, fault records and dispositions; muster, settlement and taint; the node's end, votes and
commit (15 R313 to R325, 16 R344). -/

namespace Sys2Proof.Machine
open Host

/-! ### Codes and causes (15 Tables 15-1, 15-2) -/

/-- The number of a fault code (15 Table 15-1). -/
def codeNum : Code → Nat
  | .illegal => 0x01 | .callDepth => 0x02 | .retEmpty => 0x03 | .window => 0x04 | .alignment => 0x05 | .protection => 0x06
  | .translation => 0x07 | .timing => 0x08 | .deadline => 0x09 | .scaleq => 0x0A | .stream => 0x0B | .trap => 0x0C | .check => 0x0D
  | .waitTimeout => 0x0E | .slip => 0x10 | .link => 0x11 | .group => 0x12 | .uncorrectable => 0x18 | .tainted => 0x19
  | .alarm => 0x1A | .overrun => 0x1B

/-- Order within rank 4 (15 Table 15-2). -/
def subRank (c : Cause) : Nat :=
  if c.rank ≠ 4 then 0
  else match c.r.code with
    | .group => 0 | .link => 1 | .deadline => 2 | _ => 3

/-- The sort key of a cause: rank, order within rank 4, unit, sequencer (15 Table 15-2). -/
def causeKey (c : Cause) : Nat :=
  ((c.rank * 4 + subRank c) * 256 + c.unit) * 8 + (match c.seq with | some (q, _) => seqNum q | none => 4)

/-- The stopping event that is taken: the highest in Table 15-2 (15 R314); of two of one rank and sequencer the one that came first in the cycle
(DEDUCED, log 33). -/
def firstCause : List Cause → Option Cause
  | [] => none
  | c :: cs => match firstCause cs with
    | some d => if causeKey d < causeKey c then some d else some c
    | none => some c

/-- Dispositions (15 Table 15-3). -/
inductive Disp
  | stop | requeue | held | halt | aborted | inDoubt
  deriving DecidableEq, Repr

def dispNum : Disp → Nat
  | .stop => 0 | .requeue => 1 | .held => 2 | .halt => 3 | .aborted => 4 | .inDoubt => 5

/-- The disposition of a stop (15 Table 15-1, R317, R318, R321, R325 to R327): rank 6 is a debug halt, 7 a pre-emption, 8 an abort; an
error that lies in a live page that is not CLEAN or in host memory carries info 1. -/
def dispOf (n : Node) (c : Cause) : Disp :=
  if c.rank = 6 then .halt
  else if c.rank = 7 then .requeue
  else if c.rank = 8 then .aborted
  else
    let again (d : Disp) : Disp := if n.family.nonidem || n.family.group || 15 ≤ n.tries then .stop else d
    match c.r.code with
    | .translation => again .held
    | .uncorrectable => if c.r.info = 1 then .stop else again .requeue
    | .tainted => again .requeue
    | _ => .stop

/-! ### Fault records (15 R315, R316) -/

/-- The 16 bytes of a sequencer slot (15 Table 15-4). -/
def slotBytes (q : Seq) (shown : Bool) : List Byte :=
  if !shown then List.replicate 16 0
  else
    leBytes 8 (q.pc.toNat % 2 ^ 22 + (if q.aligned then 2 ^ 30 + q.seg.toNat * 2 ^ 22 else 0) + 2 ^ 31) ++ leBytes 8 q.issued

/-- A rank or shepherd entry (15 R316). -/
def coreBytes (c : Core) : List Byte :=
  slotBytes c.scl c.scl.entry ++ slotBytes c.ld c.ld.entry ++ slotBytes c.cmp c.cmp.entry ++ slotBytes c.st c.st.entry

/-- The loop counters of a core's sequencers, which a fault record carries after the entries of Table 15-3, in their order (05 R81; their
place is log 31). -/
def loopBytes (c : Core) : List Byte :=
  [c.scl, c.ld, c.cmp, c.st].flatMap (fun q => (q.loops.toList.map (fun l => if q.entry then l.lc.toNat else 0)).flatMap (leBytes 8))

/-- The earlier of two replacements. -/
def firstOf (a b : Option (Nat × Nat)) : Option (Nat × Nat) :=
  match a, b with
  | some x, some y => if y.1 < x.1 then b else a
  | none, b => b
  | a, none => a

/-- The first `MXERR` replacement of the node; of one cycle that of the lowest core (10 R196, 14 Table 14-10). -/
def State.nodeMxerr (s : State) (n : Node) : Nat :=
  match (n.cores.map (fun u => (s.core u).mxerr)).foldl firstOf none with | some r => r.2 | none => 0

/-- The part has freed its cores while it waits for its decision, or commits by it (15 R322). -/
def Node.coreless (n : Node) : Bool := n.state == .inDoubt || n.voteOf.isSome

/-- What a record keeps of a stop on this cycle; a part that has freed its cores keeps the flags of its end; a node that has halted keeps its halt cycle, with the flags of that cycle, of its saved
context, or of the step that it takes (14 Table 14-10, 15 R313, R330, R332). -/
def State.markStop (s : State) (n : Node) : Node :=
  if n.state == .halted then
    if n.stepping.isSome then { n with flagsAt := s.nodeFlags n, mxerrAt := s.nodeMxerr n }
    else if n.saved.isEmpty then n
    else
      { n with
        flagsAt := n.saved.foldl (fun f c => f ||| c.2.flags) 0
        mxerrAt := (match (n.saved.map (fun c => c.2.mxerr)).foldl firstOf none with | some r => r.2 | none => 0) }
  else if n.state == .armed || n.isWaiting then { n with stopAt := s.cyc, stopDrone := s.drone, flagsAt := 0, mxerrAt := 0 }
  else if n.coreless then { n with stopAt := s.cyc, stopDrone := s.drone }
  else { n with stopAt := s.cyc, stopDrone := s.drone, flagsAt := s.nodeFlags n, mxerrAt := s.nodeMxerr n }

/-- The units of a fault record after its head: rank entries, shepherd entries, loop counters; those of a node that is armed show what its
cores would have held at its start, and those of a saved one its context (15 R316, R330, 05 R81). -/
def State.recordUnits (s : State) (n : Node) (f : Core → List Byte) : List Byte :=
  let core (u : UnitId) (who : Nat) : Core :=
    if n.state == .armed then (s.core u).start n who 0
    else match n.saved.find? (fun c => c.1 == u) with
      | some c => if n.stepping.isNone then c.2 else s.core u
      | none => s.core u
  n.cores.zipIdx.flatMap (fun u => f (core u.1 u.2)) ++ (List.range 4).flatMap (fun k => match n.sheps.find? (fun e => e.1 == k) with
    | some e => f (core e.2 (0x80 + k))
    | none => f {})

/-- The fault record of a stop (15 Table 15-3); a part that has freed its cores shows its units as its record in doubt did. DESIGN CHOICE (log 31): a part in doubt holds fault code 0, and it and an abort
unit id 0, for which the manual gives no value. -/
def State.faultRecord (s : State) (n : Node) (c : Cause) (d : Disp) : List Byte :=
  let plain := d == .halt || d == .aborted || d == .inDoubt || c.rank = 7
  let code := if plain then 0 else codeNum c.r.code
  let unit := if c.rank = 7 || c.r.code == .alarm then 0x78 else c.unit
  let seq := match c.seq with | some (q, _) => seqNum q + 4 | none => 0
  let addr := match c.r.code with
    | .window => c.r.addr | .alignment => c.r.addr | .protection => c.r.addr | .translation => c.r.addr | .uncorrectable => c.r.addr
    | _ => 0
  let info := if c.r.code == .trap || c.r.code == .check then c.r.info else 0
  leBytes 8 n.id.toNat ++ leBytes 1 code ++ leBytes 1 unit ++ leBytes 1 (seq + 8 * c.r.orig) ++ leBytes 1 n.attempt ++ leBytes 2 info ++
  leBytes 1 (dispNum d) ++ leBytes 1 n.variant.cores ++ leBytes 8 (n.stopAt - n.t0) ++ leBytes 8 n.stopDrone ++
  leBytes 8 (if plain then 0 else addr) ++ leBytes 4 (match c.seq with | some (_, pc) => pc.toNat | none => 0) ++
  leBytes 2 n.flagsAt.toNat ++ List.replicate 18 (0 : Byte) ++
  (if n.coreless then n.record_.drop 64 else s.recordUnits n coreBytes ++ s.recordUnits n loopBytes)

/-- A completion record of a node, with what it held at its stop (14 Table 14-10). -/
def nodeRecord (n : Node) (status fault unit kind : Nat) : Record :=
  { id := n.id, seq := n.seq, typ := 1, status := status, fault := fault, unit := unit, kind := kind, attempt := n.attempt
    cores := n.variant.cores, detour := n.variant.detour, flags := n.flagsAt, cycles := n.stopAt - n.t0, zeros := n.lossyZeros
    mxerr := n.mxerrAt, after := n.nd }

/-! ### Cancelling and discarding (11 R212, 15 R313, R317, 16 R343) -/

/-- The scratchpad cells that a cancelled copy had not written. -/
def State.unwritten (s : State) (u : UnitId) (serials : List Nat) : List Nat :=
  s.effs.flatMap (fun e => match e.op with
    | .copyWrite k cells _ => if serials.contains k then cells.filterMap (fun c => spadAt u c.1) else []
    | _ => [])

/-- The copies of a core are cancelled: no tag is pending, the counters take the last tickets, and the destination bytes in scratchpad
that were not written are undefined (07 R139, 11 R212, log 5). -/
def State.cancelCopies (s : State) (u : UnitId) : State :=
  let c := s.core u
  let serials := c.copies.map (·.serial)
  let left := s.unwritten u serials
  let s := (s.setSpadCells (left.map (fun a => (a, Config.freeByteAt s.free a)))).nextFree
  let s := { s with effs := s.effs.filter (fun e => match e.op with
    | .copyRead k _ _ => !serials.contains k
    | .copyWrite k _ _ => !serials.contains k
    | _ => true) }
  s.setCore u ({ c with copies := [], tagPending := Vector.replicate 64 0 }).setTimelines

/-- An event of a node that its stop leaves in place: a `GUARD` issued before it still declares its interval (15 R313, 13 R291). -/
def staysDeclared (i : Instr) : Bool :=
  match i with
  | .guardIntervalStart _ _ _ _ _ => true
  | _ => false

/-- Sends and programs of a node that have not left are cancelled, with the steps still to come (15 R313). -/
def State.cancelSends (s : State) (nd : Nat) : State :=
  { s with
    effs := s.effs.filter (fun e => e.node != nd || (match e.op with
      | .send _ => false
      | .head _ => false
      | .exchange _ _ _ _ => false
      | .depart _ _ _ _ _ => false
      | .copyRead _ _ _ => false
      | .copyWrite _ _ _ => false
      | _ => true))
    agenda := s.agenda.filter (fun t => t.node != some nd || staysDeclared t.ev) }

/-- Stores and atomics of a core to window 0x20 that were issued before the stop, and that no branch kills, are performed, but an atomic that
the port does not carry (15 R313, 11 R234). -/
def State.finishHost (s : State) (n : Node) (u : UnitId) : State :=
  ((s.core u).reqs.filter (fun r => r.done.isNone && winOf r.addr == 0x20)).foldl (fun s r =>
    match r.op with
    | .store bs => (s.writeNode n r.addr bs r.id).1
    | .atomic _ fn wide b c =>
      if !s.hostCarries n.pasid fn then s
      else match atomicBytes fn wide (s.hostBytes n.pasid (offOf r.addr) (wideBytes wide)) b c with
      | some bs => (s.writeNode n r.addr bs r.id).1
      | none => s
    | _ => s) s

/-- The shadow pages of a node return to the pool; `S` clears where no other node holds a shadow of the page (16 R342 to R344). -/
def State.dropStaged (s : State) (n : Node) : State :=
  let s := s.modNode n.nd (fun n => { n with staged := [] })
  n.staged.foldl (fun s g =>
    let s := s.freeFrame n.part g.frame (g.size == 2 ^ 25)
    let s := { s with poisoned := s.poisoned.filter (fun l => !(g.frame ≤ 64 * l && 64 * l < g.frame + g.size)) }
    if s.nodes.any (fun k => k.staged.any (fun h => h.leaf == g.leaf)) then s
    else s.setEntry g.leaf (pteSet (s.entryAt g.leaf) 60 false)) s

/-- The node leaves its cores: everything not completed is cancelled, the cores return, the muster may take them (15 R313, R317). -/
def State.vacate (s : State) (n : Node) : State :=
  let us := (n.cores ++ n.sheps.map (·.2)).filter (fun u => (s.core u).node == some n.nd)
  let s := us.foldl State.resolveRest s
  let s := us.foldl (fun s u => s.finishHost n u) s
  let s := us.foldl (fun s u => s.cancelCopies u) s
  (s.cancelSends n.nd).freeCores n

/-- The live leaf of a page still names the frame that a node's commit swapped in (16 R350). -/
def State.stillLive (s : State) (p : PreImage) : Bool := pteV (s.entryAt p.leaf) && pteAddr (s.entryAt p.leaf) == pteAddr p.new

/-- The pre-image of a page is live again, and the node's frame free unless a snapshot holds it (16 R350). -/
def State.putBack (s : State) (part : PartId) (p : PreImage) : State :=
  let s := s.setEntry p.leaf (pteSet (pteSet p.old 60 (pteS (s.entryAt p.leaf))) 59 (pteV p.old && s.frameHeld (pteAddr p.old) p.size))
  let s := s.freeLoose part s.frameHeld (pteAddr p.new) (p.size == 2 ^ 25)
  s.wakeDev (pteAddr p.old) p.size

/-- The pages that a commit has swapped in are live as before it; the frames return to the pool (15 R317, R325). -/
def State.unswap (s : State) (n : Node) : State :=
  if n.state != .committing then s
  else
    let s := s.modNode n.nd (fun n => { n with pre := [] })
    n.pre.reverse.foldl (fun s p => if s.stillLive p then s.putBack n.part p else s) s

/-- The node is discarded (15 R317). -/
def State.discard (s : State) (n : Node) : State := ((s.vacate n).unswap n).dropStaged n

/-- The node returns to the head of its queue, as a new attempt with a number of its own (14 R306, 15 R317); a pre-emption never counts
towards the limit of attempts (15 R318). -/
def State.requeue (s : State) (n : Node) (held counts : Bool) : State :=
  let nd := s.serial
  let s := s.modNode n.nd (fun n =>
    { n with
      nd := nd, state := .waiting held, attempt := min 255 (n.attempt + 1), tries := (if counts then n.tries + 1 else n.tries)
      cores := [], sheps := [], arrived := [], announced := [], votes := [], waitFrom := s.drone
      halt := none, saved := [], savedSpad := [], savedSeeds := [], later := [], stepping := none, pendingStep := none, quiet := false })
  let s := { s with serial := nd + 1 }
  if held then s.modQueue n.queue (fun q => { q with heldBack := true }) else s.postIn 1 (.variantPlacement nd)

/-- A part of a group node that stops for any reason votes abort; the coordinator tells every part (15 R321). -/
def State.voteAbort (s : State) (n : Node) : State :=
  if !n.family.group then s
  else if n.coord == n.rank then s.emit (.decision n.nd false) else s.emit (.vote n.nd false)

/-- A device frame whose error the node consumed, that of a failed line or of a poisoned one, is retired; a live page is remapped: from its
copy where it is CLEAN, else with the failed lines poisoned (16 R351). -/
def State.retireFrame (s : State) (n : Node) (a : Nat) : State :=
  match s.shadowAt n a with
  | some g =>
    { s with retired := s.retired ++ [g.frame] }
  | none => match s.walk n.pasid a with
    | none => s
    | some l =>
      let old := pteAddr l.e
      if !(s.badDev ++ s.poisoned).any (fun x => old ≤ 64 * x && 64 * x < old + l.size) then s
      else match takeFrame (l.size == 2 ^ 25) (s.part n.part).pool with
        | none => { s with retired := s.retired ++ [old] }
        | some (f, pool) =>
          let s := s.modPart n.part (fun p => { p with pool := pool })
          let s := s.copyFrame (pteKey l.e) old f l.size
          let s := if pteC l.e then s.clearPoison f l.size else s
          { s.setEntry l.at_ (pteSet (pteFrame l.e f) 59 false) with retired := s.retired ++ [old] }

/-- The events that stand still while a node is halted (15 R330, R331). -/
def Node.halts (n : Node) (t : Todo) : Bool :=
  match t.ev with
  | .segmentDeadline q _ => n.cores.contains q.unit
  | .waitTimeout q _ => n.cores.contains q.unit
  | .droneInstantReached q _ => n.cores.contains q.unit
  | .alignRelease _ _ _ => t.node == some n.nd
  | .barComplete _ _ => t.node == some n.nd
  | .nodeBudgetExpiry k _ => k == n.nd
  | .nodeArm k => k == n.nd
  | _ => false

/-- The node halts for the debugger on this cycle: nothing is cancelled, and its context is saved once everything has completed
(15 R330). -/
def State.haltNode (s : State) (n : Node) : State :=
  let s := s.modNode n.nd (fun k => { k with
    state := .halted, halt := some s.cyc, stepping := none, quiet := false, saved := [], savedSpad := [], savedSeeds := []
    later := k.later ++ s.agenda.filter n.halts })
  { s with agenda := s.agenda.filter (fun t => !n.halts t) }.postIn 1 (.debugHalt n.nd)

/-- A node stops, its cores standing at their cut points: the record, then the disposition (15 R313 to R317). -/
def State.stopNode (s : State) (n : Node) (c : Cause) : State :=
  let d := dispOf n c
  let n := s.markStop n
  let s := s.modNode n.nd (fun _ => n)
  let rec_ := s.faultRecord n c d
  let s := s.modQueue n.queue (fun q => { q with faultRec := some rec_ })
  let s := if c.r.code == .uncorrectable && c.rank ≠ 7 && winOf (BitVec.ofNat 64 c.r.addr) == 0x10 then s.retireFrame n (offOf (BitVec.ofNat 64 c.r.addr)) else s
  let s := if c.rank = 7 then s.modQueue n.queue (fun q => { q with kept := none }) else s
  let unit := if c.r.code == .alarm then 0x78 else c.unit
  let r := nodeRecord n 0x10 (codeNum c.r.code) unit 0
  match d with
  | .halt => if n.state == .halted then s else s.haltNode n
  | .stop => ((((s.voteAbort n).discard n).passHead n).dropNode n).recordDue n.queue r true
  | .requeue => ((s.voteAbort n).discard n).requeue n false (c.rank ≠ 7)
  | .held => ((s.voteAbort n).discard n).requeue n true true
  | .aborted => (((s.discard n).passHead n).dropNode n).recordDue n.queue { r with status := 0x1A, fault := 0, unit := 0 } false
  | .inDoubt => s

/-! ### Arming (05 R82, R93, 14 R305, R306) -/

/-- The launch fails with SLIP: the record names the unit that was not ready (14 R305, 15 R315). -/
def State.slipNode (s : State) (n : Node) (u : UnitId) : State :=
  s.stopNode n { node := n.nd, rank := 4, unit := u.val, seq := none, r := { code := .slip } }

/-- On T0 every core of a node holds the state of Table 5-1; the later start cycles are looked at as they come (05 R82, 14 R305). -/
def State.loadNode (s : State) (n : Node) : State :=
  let n := { n with
    state := .running
    rank := (if n.family.group then s.group.rank else 0)
    size := (if n.family.group then s.group.members.length else 1)
    arrived := [], votes := [], lossyZeros := 0 }
  let s := s.resetLinks n
  let s := s.modNode n.nd (fun _ => n)
  let s := (n.cores.zipIdx).foldl (fun s u => s.loadCore n u.1 u.2 (n.variant.folds.getD u.2 0)) s
  let s := n.sheps.foldl (fun s d => s.loadCore n d.2 (0x80 + d.1) (shepFold n d.1)) s
  let starts := ((n.variant.entries.map (·.offset)).filter (fun o => o ≠ 0)).eraseDups
  let s := starts.foldl (fun s o => s.postIn o (.nodeArm n.nd)) s
  s.postIn n.family.budget (.nodeBudgetExpiry n.nd n.attempt)

/-- `NODE_ARM` (05 R82, 14 R305, R306): on T0 every core holds the state of Table 5-1, and on each start cycle the units whose sequencers
start are ready, or the launch fails with SLIP. -/
def execNodeArm (nd : Nat) (s : State) : Res :=
  match s.node? nd with
  | none => .next s
  | some n =>
    if n.state == .armed then
      let s := s.passHead n
      match s.notReady n with
      | some u => .next (s.slipNode n u)
      | none => .next (s.loadNode n)
    else if n.state == .running then
      match s.notReady n with
      | some u => .next (s.slipNode n u)
      | none => .next s
    else .next s

/-! ### Settlement and taint (15 R324, R325, 16 R344) -/

/-- Pre-images return to the pool unless a snapshot holds them (16 R344). -/
def State.freePre (s : State) (n : Node) : State :=
  let s := s.modNode n.nd (fun n => { n with pre := [] })
  n.pre.foldl (fun s p => if !pteV p.old then s else s.freeLoose n.part s.frameHeld (pteAddr p.old) (p.size == 2 ^ 25)) s

/-- A committed node settles (15 R324). -/
def State.settle (s : State) (n : Node) : State :=
  ((s.freePre n).dropNode n).recordDue n.queue (nodeRecord n 0 0 0 2) false

/-- The node used a unit: it ran a sequencer of the node (15 R324). -/
def Node.used (n : Node) (u : UnitId) : Bool := n.cores.contains u || n.sheps.any (fun e => e.2 == u)

/-- A part of a group node that has voted commit (15 R321, R325). -/
def Node.pledged (n : Node) : Bool := n.family.group && (n.state == .voted || n.state == .committing || n.state == .inDoubt)

/-- A committed node is tainted by a unit: its record of kind 3, and its queue stops (15 R325, 14 R311). -/
def State.taintNode (s : State) (n : Node) (u : UnitId) : State :=
  (s.modNode n.nd (fun n => { n with state := .tainted })).recordDue n.queue (nodeRecord n 0x11 0x19 u.val 3) true

/-- A unit is removed from service: the committed nodes that used it are tainted, the nodes that run in their queues or have used it stop,
and a part that has voted commit is reported when it commits (15 R325). A node whose sequencers on it have not started fails on their start
cycle (14 R305). -/
def State.quarantine (s : State) (u : UnitId) : State :=
  let wanted := (s.core u).wanted
  let s := s.modCore u (fun c => { c with quarantined := true, passes := 0, muster := false, wanted := false })
  let s := if !wanted then s else if isShep u then s.postAt (.ns (s.drone + 2000000)) (.shepherdExchange (dieFin u + 1)) else s.postIn 1 .musterTake
  let hit := s.nodes.filter (fun n => n.state == .committed && n.used u)
  let s := hit.foldl (fun s n => s.taintNode n u) s
  let s := { s with nodes := s.nodes.map (fun (n : Node) => if n.pledged && n.used u then { n with taint := some u } else n) }
  let queues := hit.map (·.queue)
  let ran (n : Node) : Bool := n.units.any (fun x => x.1 == u && (n.startsOn x.2).any (fun t => t ≤ s.cyc))
  let stops := s.nodes.filter (fun n =>
    ((n.state == .running && n.begun s.cyc) || n.state == .ending || n.state == .committing) && !n.pledged &&
    (queues.contains n.queue || ran n))
  stops.foldl (fun s n => s.raiseNode n.nd u.val { code := .tainted }) s

/-- `MUSTER_RESULT` (15 R323 to R325): a passing run clears the nodes that stopped on the unit before it began. -/
def execMusterResult (unit : UnitId) (ok : Bool) (s : State) : Res :=
  s.unlessFailed <|
  let c := s.core unit
  if !ok then .next (s.quarantine unit)
  else
    let s := s.setCore unit { c with muster := false, passes := c.passes + 1 }
    let s := { s with nodes := s.nodes.map (fun (n : Node) =>
      { n with uncleared := n.uncleared.filter (fun x => !(x.1 == unit && decide (x.2 < c.runStart))) }) }
    .next ((s.nodes.filter (fun n => n.state == .committed && n.uncleared.isEmpty)).foldl (fun s n => s.settle n) s)

/-- The next compute core in ascending order that is not quarantined (15 R323). -/
def State.nextMuster (s : State) : Option UnitId :=
  ((List.range 32).map (fun k => unitOf ((s.musterNext + k) % 32))).find? (fun u => !(s.core u).quarantined)

/-- `MUSTER_TAKE` (15 R323): the next core begins its run, or is taken at the end of the node that runs on it; it is waited for while
another run or a border move goes on. -/
def execMusterTake (s : State) : Res :=
  s.unlessFailed <|
  match s.nextMuster with
  | none => .next (s.postAt (.ns (s.drone + 1000 * s.musterUs)) .musterTake)
  | some u =>
    let c := s.core u
    if c.node.isSome then .next (s.setCore u { c with wanted := true })
    else if c.moving || c.withdrawn || (List.range 32).any (fun k => (s.core (unitOf k)).muster) then .next (s.postIn 1 .musterTake)
    else .next (s.takeUnit u)

/-- `SHEPHERD_EXCHANGE` (15 R323): at the first moment no node uses the active site of the die. -/
def execShepherdExchange (die : Fin 4) (s : State) : Res :=
  s.unlessFailed <|
  let site : UnitId := unitOf (32 + 2 * die.val + (if s.active.get die then 1 else 0))
  if (s.core site).node.isSome then .next (s.modCore site (fun c => { c with wanted := true })) else .next (s.takeUnit site)

/-! ### The node's end (15 R319, R327) -/

/-- Every copy, EXACT send, remote operation and collective handle of the node has completed (15 R319); loads and stores to windows
0x10 and 0x20 as well. -/
def State.quiet (s : State) (n : Node) : Bool :=
  (n.cores ++ n.sheps.map (·.2)).all (fun u =>
    let c := s.core u
    c.copies.isEmpty && c.reqs.isEmpty && c.slots.toList.all (fun t => !t.busy) && c.handles.toList.all (fun h => !h.busy)) &&
  !s.effs.any (fun e => e.node == n.nd && (match e.op with | .send _ => true | .atomic _ _ _ _ _ _ _ _ _ => true | .store _ _ _ => true | .load _ _ _ _ _ => true | _ => false))

/-- The group decision is known at the coordinator: commit votes from every rank (15 R321). -/
def Node.allVoted (n : Node) : Bool := (List.range n.size).all (fun r => n.votes.contains r)

/-- The commit begins; when its first page is swapped, and each after it, is not fixed (15 R320, log 6). -/
def State.beginCommit (s : State) (n : Node) : State :=
  (s.modNode n.nd (fun n => { n with state := .committing })).postFree 1 (.commit n.nd)

/-- A node of the partition is armed and has not come to its T0: a commit that begins waits for it (15 R320). -/
def State.armedIn (s : State) (p : PartId) : Bool := s.nodes.any (fun n => n.part == p && n.state == .armed)

/-- The part votes commit (15 R321, R322). -/
def State.voteCommit (s : State) (n : Node) : State :=
  let s := s.modNode n.nd (fun k => { k with state := .voted })
  let s := s.postAt (.ns (s.drone + 2000000)) (.inDoubt n.nd)
  if n.coord == n.rank then
    let s := s.modNode n.nd (fun n => { n with votes := n.rank :: n.votes })
    match s.node? n.nd with
    | some m => if m.allVoted then s.decide_ m true else s.postAt (.ns (s.drone + 1000000)) (.voteTimeout n.nd)
    | none => s
  else s.emit (.vote n.nd true)

/-- `NODE_END` (15 R319, R327). DESIGN CHOICE (log 31): the fault of R327 names the lowest core whose `MXERR` is set. -/
def execNodeEnd (nd : Nat) (s : State) : Res :=
  match s.node? nd with
  | none => .next s
  | some n =>
    if n.state != .ending then .next s
    else if !s.quiet n then .next (s.postIn 1 (.nodeEnd nd))
    else
    let n := { n with mxerrAt := s.nodeMxerr n }
    let s := s.modNode nd (fun _ => n)
    if n.strict && !n.family.tolerant && (s.nodeFlags n).getLsbD 6 then
      .next (s.raiseNode nd (((n.cores.find? (fun u => (s.core u).flags.getLsbD 6)).getD 0).val) { code := .uncorrectable })
    else if n.family.group then .next (s.voteCommit n)
    else if s.armedIn n.part then .next (s.postIn 1 (.nodeEnd nd))
    else .next (s.beginCommit n)

/-! ### Commit (15 R320, 16 R344) -/

/-- One staged page is swapped in; its entry is valid from then on, also where a ROLL has unmapped the page since (16 R344, R345, R348). -/
def State.swapPage (s : State) (n : Node) (g : Staged) : State :=
  let old := s.entryAt g.leaf
  let other := s.nodes.any (fun k => k.nd != n.nd && k.staged.any (fun h => h.leaf == g.leaf))
  let new := pteSet (pteSet (pteSet (pteFrame old g.frame) 63 true) 60 other) 59 false
  let s := s.setEntry g.leaf new
  let s := s.modNode n.nd (fun n => { n with staged := n.staged.erase g, pre := n.pre ++ [⟨g.leaf, g.va, old, new, g.size⟩] })
  s.wakeDev g.frame g.size

/-- A commit has swapped its last page: the record of kind 1, and of a `COMMIT-VOTE` its own; the cores return; a node that used a unit
which has been quarantined is tainted, one whose units have all cleared settles (15 R320, R322, R324, R325). -/
def State.endCommit (s : State) (n : Node) : State :=
  let units := n.cores ++ n.sheps.map (·.2)
  let left := if n.voteOf.isSome then n.uncleared else units.map (fun u => (u, n.stopAt))
  let s := s.modNode n.nd (fun n => { n with state := .committed, uncleared := left })
  let s := (s.freeCores n).recordDue n.queue (nodeRecord n 0 0 0 1) false
  let s := match n.voteOf with
    | some (q, seq) => s.completeLater q (plainRecord 0 seq 8 0) 4
    | none => s
  match n.taint.orElse (fun _ => units.find? (fun u => (s.core u).quarantined)) with
  | some u => s.taintNode n u
  | none => if left.isEmpty then match s.node? n.nd with | some m => s.settle m | none => s else s

/-- `COMMIT` (15 R320, 16 R344): the staged pages are swapped in one after another, in ascending address, at times that are not fixed;
then the commit ends. -/
def execCommit (nd : Nat) (s : State) : Res :=
  match s.node? nd with
  | none => .next s
  | some n =>
    if n.state != .committing then .next s
    else if (s.armedIn n.part && n.pre.isEmpty) || s.retraining then .next (s.postIn 1 (.commit nd))
    else match sortBy (fun g => g.va) n.staged with
      | [] => .next (s.endCommit n)
      | g :: gs =>
        let s := s.swapPage n g
        if gs.isEmpty then match s.node? nd with | some m => .next (s.endCommit m) | none => .next s
        else .next (s.postFree 1 (.commit nd))

/-! ### Group transactions (15 R321, R322) -/

/-- The part is discarded after an abort: disposition 4 (15 R321); the record's unit id is 0, for which the manual gives no value (log 31).
One that has not been armed has no cycle to count from. -/
def State.abortPart (s : State) (n : Node) : State :=
  let s := if n.isWaiting then s.modNode n.nd (fun n => { n with t0 := s.cyc }) else s
  s.addCause { node := n.nd, rank := 8, unit := 0, seq := none, r := { code := .group } }

/-- `GROUP_VOTE` (15 R321): a vote reaches the coordinator. -/
def execGroupVote (nd rank : Nat) (yes : Bool) (s : State) : Res :=
  match s.node? nd with
  | none => .next s
  | some n =>
    if n.coord != n.rank || !n.family.group then .next s
    else if !yes then .next (s.decide_ n false)
    else
      let n := { n with votes := rank :: n.votes }
      let s := s.modNode nd (fun _ => n)
      .next (if n.allVoted then s.decide_ n true else s)

/-- A decision reaches a part: one that has voted commits or is discarded; an abort stops one that has not, wherever it is
(15 R321, R322). -/
def execGroupDecision (nd : Nat) (yes : Bool) (s : State) : Res :=
  match s.node? nd with
  | none => .next s
  | some n =>
    if n.state == .voted then .next (if yes then s.beginCommit n else s.abortPart n)
    else if !yes && (n.state == .running || n.state == .ending || n.state == .armed || n.isWaiting) then .next (s.abortPart n)
    else .next s

/-- `VOTE_TIMEOUT` (15 R321): 1 ms after the coordinator's own vote. -/
def execVoteTimeout (nd : Nat) (s : State) : Res :=
  match s.node? nd with
  | none => .next s
  | some n => .next (if n.state == .voted && n.coord == n.rank then s.decide_ n false else s)

/-- `IN_DOUBT` (15 R322): no decision; the part keeps its staged pages and frees its cores. Its records count to its end cycle E. -/
def execInDoubt (nd : Nat) (s : State) : Res :=
  match s.node? nd with
  | none => .next s
  | some n =>
    if n.state != .voted then .next s
    else
      let c : Cause := { node := nd, rank := 8, unit := 0, seq := none, r := { code := .group } }
      let rec_ := s.faultRecord n c .inDoubt
      let s := s.modQueue n.queue (fun q => { q with faultRec := some rec_ })
      let units := n.cores ++ n.sheps.map (·.2)
      let s := s.modNode nd (fun n => { n with state := .inDoubt, record_ := rec_, uncleared := units.map (fun u => (u, n.stopAt)) })
      .next ((s.freeCores n).recordDue n.queue (nodeRecord n 0x1B 0 0 0) false)

/-- An abort of a part held in doubt: its fault record takes disposition 4, its pages are discarded, its record is ABORTED (15 R322). -/
def State.abortDoubt (s : State) (n : Node) : State :=
  let s := s.modQueue n.queue (fun q => { q with faultRec := some (n.record_.set 14 4) })
  ((s.dropStaged n).dropNode n).recordDue n.queue (nodeRecord n 0x1A 0 0 0) false

/-- `COMMIT_VOTE` (15 R322): the decision for a node held in doubt; with a commit the record waits for its end. -/
def execCommitVote (q : QueueId) (s : State) : Res :=
  let s := s.startPacket q 8
  match (s.queue q).inHand 8 with
  | some (c, p) =>
    if s.nodes.any (fun n => n.voteOf == some (q, p.seq)) then .next s
    else if !s.fabricQueue c then .next (s.completePacket q (some (plainRecord 0 p.seq 8 0x18)) true 4)
    else match s.nodes.find? (fun n => n.state == .inDoubt && n.id == pkt64 p.words 1) with
      | none => .next (s.badPacket q)
      | some n =>
        if pkt32 p.words 3 = 1 then .next ((s.modNode n.nd (fun n => { n with voteOf := some (q, p.seq) })).beginCommit n)
        else .next ((s.abortDoubt n).completePacket q (some (plainRecord 0 p.seq 8 0)) false 4)
  | none => .next s

end Sys2Proof.Machine
end

