-- ==== Sys2Proof/Machine/Versions.lean ====
section
/-! DEFINITION. Requests to windows 0x10 and 0x20, page tables, pools, snapshots, and the restoring of tainted nodes (11 R210, R211,
R234, 16). -/

namespace Sys2Proof.Machine
open Host

/-! ### Requests (11 R210, R211, 16 R341) -/

/-- The request of a core with this number. -/
def State.reqOf (s : State) (id : Nat) : Option (UnitId × Nat × Req) :=
  (List.finRange 40).findSome? (fun u => ((s.core u).reqs.zipIdx.find? (fun r => r.1.id == id)).map (fun r => (u, r.2, r.1)))

def State.modReq (s : State) (u : UnitId) (id : Nat) (f : Req → Req) : State :=
  s.modCore u (fun c => { c with reqs := c.reqs.map (fun r => if r.id == id then f r else r) })

def State.dropReq (s : State) (u : UnitId) (id : Nat) : State :=
  s.modCore u (fun c => { c with reqs := c.reqs.filter (fun r => r.id != id) })

/-- Requests of copies to windows 0x10 and 0x20 that a unit has outstanding (11 R211). -/
def State.sentLines (s : State) (u : UnitId) : Nat :=
  (s.effs.filter (fun e => e.by_.unit == u && (match e.op with | .copyRead _ _ b => b | .copyWrite _ _ b => b | _ => false))).length

/-- A request waits for an access that comes before it, or for one of the 768 places of the unit (11 R211, R215 to R221). -/
def State.reqHeld (s : State) (u : UnitId) (idx : Nat) (r : Req) : Bool :=
  decide (768 ≤ idx + s.sentLines u) || s.orderHeld ⟨⟨u, r.q⟩, r.iss, r.oc, r.releases⟩

/-- The size in bytes of a request. -/
def ReqOp.size (op : ReqOp) (s : State) (q : SeqId) : Nat :=
  match op with
  | .load _ n _ => n
  | .store bs => bs.length
  | .atomic _ _ wide _ _ => wideBytes wide
  | .waitRead _ => match (s.seq q).wait with
    | some w => match w.what with | .word _ _ _ wide _ _ _ _ _ => wideBytes wide | _ => 4
    | none => 4

/-- A request fails: its instruction's node stops (11 R210, 15 R326). -/
def State.reqFails (s : State) (u : UnitId) (n : Node) (r : Req) (c : Code) (info : Nat) : State :=
  let f : Raise := { code := c, addr := (s.faultAddr n r.addr c).toNat, info := info }
  (s.dropReq u r.id).raiseEff
    { at_ := s.cyc, iss := r.iss, by_ := ⟨u, r.q⟩, pc := r.pc, node := n.nd, sq := r.sq
      commit := (match r.op with | .load _ _ _ => s.cyc | _ => r.commit), fixed := false, dst := r.dest u, op := .late f } f

/-- A request is performed: its value or acknowledgement returns later (11 R211). -/
def State.reqDone (s : State) (u : UnitId) (r : Req) (v : Dword) : State :=
  (s.modReq u r.id (fun r => { r with done := some v })).postFree 1 (.requestReturn r.id)

/-- The leaf of an address in window 0x10 does not let a node write; an atomic is checked before its word is read (11 R234, 16 R340). -/
def State.writeDenied (s : State) (n : Node) (a : Dword) : Bool :=
  winOf a == 0x10 && (match s.shadowAt n (offOf a) with
    | some g => !pteW (s.entryAt g.leaf)
    | none => match s.walk n.pasid (offOf a) with | some l => !pteW l.e | none => false)

/-- The translation of a request completes and the access is performed, or its fault is raised (11 R210, R234, 16 R340, R343). In window 0x20
without CXL.cache a failed read of a wait is followed by the next one 1,024 cycles after its start, or on the next cycle where it has taken
longer (11 R237; DEDUCED, log 16). -/
def State.performReq (s : State) (u : UnitId) (n : Node) (r : Req) : State :=
  let q : SeqId := ⟨u, r.q⟩
  let size := r.op.size s q
  match r.op with
  | .load _ _ sx =>
    match s.readNode n r.addr size r.id with
    | .bad c i => s.reqFails u n r c i
    | .bytes bs =>
      let v := leNat bs
      s.reqDone u r (if sx && 2 ^ (8 * size - 1) ≤ v then BitVec.ofInt 64 ((v : Int) - 2 ^ (8 * size)) else BitVec.ofNat 64 v)
  | .store bs =>
    match s.writeNode n r.addr bs r.id with
    | (s, some c) => s.reqFails u n r c 0
    | (s, none) => s.reqDone u r 0
  | .atomic _ fn wide b c =>
    if winOf r.addr = 0x20 && !s.hostCarries n.pasid fn then s.reqFails u n r .protection 0
    else if s.writeDenied n r.addr then s.reqFails u n r .protection 0
    else match s.readNode n r.addr size r.id with
      | .bad c i => s.reqFails u n r c i
      | .bytes bs =>
        match atomicBytes fn wide bs b c with
        | none => s.reqDone u r (BitVec.ofNat 64 (leNat bs))
        | some out => match s.writeNode n r.addr out r.id with
          | (s, some c) => s.reqFails u n r c 0
          | (s, none) => s.reqDone u r (BitVec.ofNat 64 (leNat bs))
  | .waitRead t0 =>
    match s.readNode n r.addr size r.id with
    | .bad c i => s.reqFails u n r c i
    | .bytes bs =>
      if s.readHolds q t0 bs then s.reqDone u r 0
      else
        let s := (s.dropReq u r.id).readFailed q t0
        if winOf r.addr = 0x20 && !s.cached n.pasid then
          { s with agenda := s.agenda ++ [{ due := .cyc (max (s.cyc + 1) (r.iss + 1024)), ev := .waitaReread q t0, node := some n.nd, iss := s.cyc }] }
        else s

/-- The request must wait on this cycle. -/
def State.reqBlocked (s : State) (u : UnitId) (idx : Nat) (r : Req) : Bool :=
  s.reqHeld u idx r || s.awaits r.addr || decide (s.cyc ≤ r.commit && r.commit != r.iss)

/-- `PAGE_WALK` (16 R341): the walker's translation of a request completes; a request that is held in order is tried again. -/
def execPageWalk (id : Nat) (s : State) : Res :=
  match s.reqOf id with
  | none => .next s
  | some (u, idx, r) =>
    match (s.core u).node.bind s.node? with
    | none => .next s
    | some n =>
      if r.done.isSome then .next s
      else if s.reqBlocked u idx r then
        .next { s with agenda := s.agenda ++ [{ due := .cyc (s.cyc + 1), ev := .pageWalk id, node := some n.nd, iss := r.iss }] }
      else .next (s.performReq u n r)

/-- `REQUEST_RETURN` (11 R211): the value is on its way to its register, and the request leaves its place. -/
def execRequestReturn (id : Nat) (s : State) : Res :=
  match s.reqOf id with
  | none => .next s
  | some (u, _, r) =>
    match r.done with
    | none => .next s
    | some v =>
      let q : SeqId := ⟨u, r.q⟩
      let nd := (s.core u).node.getD 0
      let s := s.dropReq u id
      match r.op with
      | .load xd _ _ => .next (s.returnX q r.pc nd r.iss r.sq xd v)
      | .atomic xd _ _ _ _ => .next (s.returnX q r.pc nd r.iss false xd v)
      | .store _ => .next s
      | .waitRead t0 => .next (s.readMet q t0)

/-! ### Page tables and pools (16 R338, R342, R343) -/

/-- A call of the memory manager that reads or writes device memory waits while an interface re-trains (17 R367). -/
def State.onceTrained (s : State) (call : Instr) (r : Res) : Res := if s.retraining then .next (s.postIn 1 call) else r

/-- A table entry belongs to a page that a running node has staged (16 R342). -/
def State.stagedLeaf (s : State) (a : Nat) : Bool := s.nodes.any (fun n => n.staged.any (fun g => g.leaf == a))

/-- Every page that a running node has staged is mapped in `t` as it is in `s` (16 R342). -/
def State.stagedStands (s t : State) : Bool :=
  s.nodes.all (fun n => n.staged.all (fun g => t.walk n.pasid g.va == s.walk n.pasid g.va && t.entryAt g.leaf == s.entryAt g.leaf))

/-- An entry as the memory manager writes it: `S` is clear, since no node has staged the page, and `H` says whether a snapshot holds the
frame, whole or in part; the hardware alone sets and clears them (16 R339, R342). -/
def State.ownBits (s : State) (v : Dword) : Dword := pteSet (pteSet v 60 false) 59 (pteV v && s.frameHeld (pteAddr v) (if pteG v then 2 ^ 25 else 1))

/-- `PAGE_MAPPING` (16 R338, R339, R342, R353): the memory manager sets the root of a context, 4 KiB aligned, and writes entries; refused
where a page that a running node has staged would change, and while slot 0, under which tables are encrypted, holds no key. -/
def execPageMapping (pasid : Nat) (root : Option Nat) (writes : List (Nat × Dword)) (s : State) : Res :=
  s.unlessFailed <| s.onceTrained (.pageMapping pasid root writes) <|
  let t := match root with | some r => { s with roots := insertKey s.roots pasid r, lost := s.lost.filter (fun p => p != pasid) } | none => s
  let t := writes.foldl (fun t w => t.setEntry w.1 (s.ownBits w.2)) t
  if root.any (fun r => r % 2 ^ 12 != 0) || !s.keys.contains 0 then .next (s.emit (.refusedCall 338))
  else if writes.any (fun w => s.stagedLeaf w.1) || !s.stagedStands t then .next (s.emit (.refusedCall 342))
  else .next t

/-- `VERSION_POOL` (16 R343, R351): frames join a partition's pool or leave it; a retired frame never joins. -/
def execVersionPool (part : PartId) (add : List (Nat × Bool)) (remove : List Nat) (s : State) : Res :=
  s.unlessFailed <| .next (s.modPart part (fun p =>
    { p with pool := (p.pool.filter (fun f => !remove.contains f.1)) ++ add.filter (fun f => !s.retired.contains f.1) }))

/-! ### Snapshots (16 R347 to R349) -/

/-- The leaves of a region, each page once: 64 KiB steps, a 32 MiB leaf whole (16 R347). -/
def State.regionLeaves (s : State) (pasid base len : Nat) : List (Nat × Option Leaf) :=
  (((List.range (len / 2 ^ 16)).map (fun k => base + k * 2 ^ 16)).map (fun a =>
    match s.walk pasid a with
    | some l => (l.va, some l)
    | none => (a, none))).eraseDups

/-- `SNAP` (16 R347): every page's live leaf is recorded, and `H` set on its frame, in every leaf that names it; an unmapped page is
recorded as such. It waits for a commit of its partition, whose exclusion it has. -/
def execSnap (q : QueueId) (s : State) : Res :=
  let s := s.startPacket q 6
  match (s.queue q).inHand 6 with
  | some (c, p) =>
    let base := offOf (pkt64 p.words 1)
    let len := (pkt64 p.words 3).toNat
    let id := pkt32 p.words 5
    let part := s.part c.part
    if base % 2 ^ 16 ≠ 0 || len % 2 ^ 16 ≠ 0 || part.snapshots.any (fun k => k.id == id) || 256 ≤ part.snapshots.length then
      .next (s.badPacket q)
    else if s.launchesOpen q || s.committingIn c.part || s.retraining then .next s
    else
      let ls := s.regionLeaves c.pasid base len
      let snap : Snapshot := { id := id, pasid := c.pasid, base := base, len := len, leaves := ls.map (fun l => (l.1, match l.2 with | some l => pteSet l.e 59 true | none => 0)) }
      let s := (s.modPart c.part (fun v => { v with snapshots := v.snapshots ++ [snap] })).setHeld (ls.filterMap (fun l => l.2.map (·.e)))
      .next (s.completePacket q (some (plainRecord 0 p.seq 6 0)) false 6)
  | none => .next s

/-- A table of 512 entries that are not valid, in a frame of the partition's pool; none when the pool has no frame. Where the memory manager
takes the memory of a table from is not given (log 35). -/
def State.makeTable (s : State) (part : PartId) : Option (State × Nat) :=
  (takeFrame false (s.part part).pool).map (fun r =>
    ((s.modPart part (fun p => { p with pool := r.2 })).blankKey 0 r.1 (2 ^ 16), r.1))

/-- The entry at an address points to a table, after one is made where none stands. -/
def State.pointed (s : State) (part : PartId) (at_ : Nat) : Option State :=
  if ptePointer (s.entryAt at_) then some s
  else (s.makeTable part).map (fun r => r.1.setEntry at_ (BitVec.ofNat 64 (2 ^ 63 + r.2)))

/-- The part of a 32 MiB leaf that its 64 KiB page `k` has, as a leaf of level 3. -/
def ptePart (e : Dword) (k : Nat) : Dword := pteFrame (pteSet e 57 false) (pteAddr e + k * 2 ^ 16)

/-- What nodes hold of the pages of a 32 MiB leaf, shadows and pre-images, page by page of 64 KiB, in a table that takes the leaf's place. -/
def Node.splitUnder (n : Node) (at_ table : Nat) : Node :=
  { n with
    staged := n.staged.flatMap (fun g => if g.leaf != at_ || g.size != 2 ^ 25 then [g] else
      (List.range 512).map (fun k => ⟨g.va + k * 2 ^ 16, 2 ^ 16, g.frame + k * 2 ^ 16, table + 8 * k⟩))
    pre := n.pre.flatMap (fun p => if p.leaf != at_ || p.size != 2 ^ 25 then [p] else
      (List.range 512).map (fun k => ⟨table + 8 * k, p.va + k * 2 ^ 16, ptePart p.old k, ptePart p.new k, 2 ^ 16⟩)) }

/-- A 32 MiB leaf becomes 512 leaves of 64 KiB over the same frame (log 35). -/
def State.splitLeaf (s : State) (part : PartId) (at_ : Nat) : Option State :=
  let e := s.entryAt at_
  (s.makeTable part).map (fun r =>
    let t := (List.range 512).foldl (fun t k => t.setEntry (r.2 + 8 * k) (ptePart e k)) r.1
    let t := t.setEntry at_ (BitVec.ofNat 64 (2 ^ 63 + r.2))
    { t with nodes := t.nodes.map (fun n => n.splitUnder at_ r.2) })

/-- A valid leaf of 32 MiB stands in this entry of level 2. -/
def State.bigLeaf (s : State) (at_ : Nat) : Bool := pteV (s.entryAt at_) && pteG (s.entryAt at_)

/-- The entry of level 2 over an address; none where the tables do not reach it. -/
def State.slot2 (s : State) (pasid a : Nat) : Option Nat :=
  (lookup s.roots pasid).bind (fun root =>
    let e := s.entryAt (root + 8 * bitsOf a 42 34)
    if ptePointer e then some (pteAddr e + 8 * bitsOf a 33 25) else none)

/-- The entry of level 2 over an address, after the tables above it have been made where they are missing. -/
def State.makeSlot2 (s : State) (part : PartId) (pasid a : Nat) : Option (State × Nat) :=
  let s := match lookup s.roots pasid with
    | some _ => some s
    | none => (s.makeTable part).map (fun (r : State × Nat) => { r.1 with roots := insertKey s.roots pasid r.2 })
  (s.bind (fun s => s.pointed part ((lookup s.roots pasid).getD 0 + 8 * bitsOf a 42 34))).bind (fun s => (s.slot2 pasid a).map (fun x => (s, x)))

/-- The entry of level 3 over an address below an entry of level 2, which comes to point to a table. -/
def State.makeSlot3 (s : State) (part : PartId) (slot a : Nat) : Option (State × Nat) :=
  (if s.bigLeaf slot then s.splitLeaf part slot else s.pointed part slot).map (fun s => (s, pteAddr (s.entryAt slot) + 8 * bitsOf a 24 16))

/-- The entry that a page of this size has in a context, tables that are missing made, and a 32 MiB leaf over a page of 64 KiB split; none
when the pool has no frame (16 R348, R349, log 35). -/
def State.slotFor (s : State) (part : PartId) (pasid a : Nat) (big : Bool) : Option (State × Nat) :=
  (s.makeSlot2 part pasid a).bind (fun r => if big then some r else r.1.makeSlot3 part r.2 a)

/-- Nodes hold a shadow or a pre-image of a page of the table. -/
def State.tableUsed (s : State) (table : Nat) : Bool :=
  let inTable (a : Nat) : Bool := decide (table ≤ a) && decide (a < table + 2 ^ 12)
  s.nodes.any (fun n => n.staged.any (fun g => inTable g.leaf) || n.pre.any (fun p => inTable p.leaf))

/-- The frames that an entry maps, with their granules: its own where it is a leaf of the size asked for, those of its table where it points
to one. -/
def State.framesUnder (s : State) (e : Dword) (big : Bool) : List (Nat × Bool) :=
  if !pteV e then []
  else if big && !pteG e then
    if !ptePointer e then []
    else ((List.range 512).map (fun k => s.entryAt (pteAddr e + 8 * k))).filterMap (fun x => if pteV x then some (pteAddr x, false) else none)
  else [(pteAddr e, big)]

/-- One entry of a region is set to what the snapshot has for it, `V` = 0 for a page recorded as unmapped; the frames replaced return to the
pool unless held (16 R348). -/
def State.rollEntry (s : State) (part : PartId) (a : Nat) (rec_ : Dword) : State :=
  let old := s.entryAt a
  let frames := s.framesUnder old (pteG rec_)
  let s := s.setEntry a (if pteV rec_ then pteSet rec_ 60 (pteS old) else pteSet old 63 false)
  let s := if pteV rec_ then s.wakeDev (pteAddr rec_) (pteSize rec_) else s
  let keep (frame size : Nat) : Bool := s.frameHeld frame size || s.isPreImage frame size
  frames.foldl (fun t f => t.freeLoose part keep f.1 f.2) s

/-- One page of a region goes back to its recorded leaf, in the granule of that leaf; where nodes hold versions of 64 KiB pages under a recorded
32 MiB leaf, it goes back page by page. None when a table that this takes has no frame (16 R348, log 35). -/
def State.rollPage (s : State) (part : PartId) (k : Snapshot) (l : Nat × Dword) : Option State :=
  if !pteV l.2 then
    match s.slot2 k.pasid l.1 with
    | none => some s
    | some a =>
      if !s.bigLeaf a && !ptePointer (s.entryAt a) then some s
      else (s.makeSlot3 part a l.1).map (fun r => r.1.rollEntry part r.2 l.2)
  else
    (s.makeSlot2 part k.pasid l.1).bind (fun r =>
      let s := r.1
      let table := pteAddr (s.entryAt r.2)
      if !pteG l.2 then (s.makeSlot3 part r.2 l.1).map (fun r => r.1.rollEntry part r.2 l.2)
      else if ptePointer (s.entryAt r.2) && s.tableUsed table then
        some ((List.range 512).foldl (fun t i => t.rollEntry part (table + 8 * i) (ptePart l.2 i)) s)
      else some (s.rollEntry part r.2 l.2))

/-- Every page of the region of a snapshot goes back (16 R348). -/
def State.rollAll (s : State) (part : PartId) (k : Snapshot) : Option State :=
  k.leaves.foldl (fun t l => t.bind (fun s => s.rollPage part k l)) (some s)

/-- `ROLL` (16 R348): in the context of the snapshot; it waits for a commit of its partition, whose exclusion it has, and while the pool has no
frame for a table that it needs (log 35). -/
def execRoll (q : QueueId) (s : State) : Res :=
  let s := s.startPacket q 7
  match (s.queue q).inHand 7 with
  | some (c, p) =>
    match (s.part c.part).snapshots.find? (fun k => k.id == pkt32 p.words 1) with
    | none => .next (s.badPacket q)
    | some k =>
      if s.launchesOpen q || s.committingIn c.part || s.retraining then .next s
      else match s.rollAll c.part k with
        | none => .next s
        | some s => .next (s.completePacket q (some (plainRecord 0 p.seq 7 0)) false 2)
  | none => .next s

/-- The context of a PASID belongs to a partition: a queue of the partition has it (16 R338, 14 Table 14-1). -/
def State.contextOf (s : State) (part : PartId) (pasid : Nat) : Bool :=
  s.queues.toList.any (fun q => q.cfg.any (fun c => c.part == part && c.pasid == pasid))

/-- The recorded leaves of a snapshot, read-only and held, in the tables of a context; none where the pool has no frame for a table
(16 R349). -/
def State.mapLeaves (s : State) (part : PartId) (pasid : Nat) (k : Snapshot) : Option State :=
  (k.leaves.filter (fun l => pteV l.2)).foldl (fun t l => t.bind (fun s =>
    (s.slotFor part pasid l.1 (pteG l.2)).map (fun r =>
      r.1.setEntry r.2 (pteSet (pteSet (pteSet l.2 62 false) 59 true) 60 false)))) (some s)

/-- `SNAPSHOT_MAP` (16 R342, R349): the recorded leaves appear in a context of the partition, read-only and held; refused where a page that a
running node has staged would change, and where the pool has no frame for a table that is missing (log 35). -/
def execSnapshotMap (part : PartId) (id pasid : Nat) (s : State) : Res :=
  s.unlessFailed <| s.onceTrained (.snapshotMap part id pasid) <|
  match (s.part part).snapshots.find? (fun k => k.id == id) with
  | none => .next (s.emit (.refusedCall 349))
  | some k =>
    if !s.contextOf part pasid then .next (s.emit (.refusedCall 349))
    else match s.mapLeaves part pasid k with
      | none => .next (s.emit (.refusedCall 349))
      | some t => if !s.stagedStands t then .next (s.emit (.refusedCall 342)) else .next t

/-- `SNAPSHOT_RELEASE` (16 R349): frames that no other snapshot holds lose `H`, and are free unless live, a leaf of some context
naming them or a part of them, or pre-images. -/
def execSnapshotRelease (part : PartId) (id : Nat) (s : State) : Res :=
  s.unlessFailed <| s.onceTrained (.snapshotRelease part id) <|
  match (s.part part).snapshots.find? (fun k => k.id == id) with
  | none => .next (s.emit (.refusedCall 349))
  | some k =>
    let s := s.modPart part (fun p => { p with snapshots := p.snapshots.filter (fun x => x.id != id) })
    let s := s.setHeld (k.leaves.map (·.2))
    let live := s.tableLeaves
    let keep (frame size : Nat) : Bool := s.frameHeld frame size || s.isPreImage frame size || live.any (fun l => pteOver l.e frame size)
    .next ((k.leaves.filter (fun l => pteV l.2)).foldl (fun s l => s.freeLoose part keep (pteAddr l.2) (pteG l.2)) s)

/-! ### Tainted nodes (16 R350) -/

/-- `TAINT_RELEASE` (16 R350). -/
def execTaintRelease (nd : Nat) (s : State) : Res :=
  s.unlessFailed <|
  match s.node? nd with
  | none => .next s
  | some n => if n.state == .tainted then .next ((s.freePre n).dropNode n) else .next s

/-- One page of a tainted node: restored where its live leaf still names the node's frame, reported otherwise (16 R350). -/
def State.restorePage (s : State) (n : Node) (r : List Nat) (p : PreImage) : State × List Nat :=
  if s.stillLive p then (s.putBack n.part p, r) else (s, r ++ [p.va])

/-- `TAINT_RESTORE` (16 R350): in descending address; the pages that have changed since are reported and left. -/
def execTaintRestore (nd : Nat) (s : State) : Res :=
  s.unlessFailed <| s.onceTrained (.taintRestore nd) <|
  match s.node? nd with
  | none => .next s
  | some n =>
    if n.state != .tainted then .next s
    else
      let r := (sortBy (fun p => p.va) n.pre).reverse.foldl (fun a p => a.1.restorePage n a.2 p) (s, ([] : List Nat))
      .next ((r.1.modNode nd (fun n => { n with pre := [] })).dropNode n |>.emit (.pages r.2))

end Sys2Proof.Machine
end

