-- ==== Sys2Proof/Machine/Debug.lean ====
section
/-! DEFINITION. Debug halts, saved contexts, resuming and single steps (15 R329 to R332). -/

namespace Sys2Proof.Machine
open Host

/-- `DEBUGGABLE` (15 R329). -/
def execDebuggable (q : QueueId) (on : Bool) (s : State) : Res :=
  s.unlessFailed <| .next (s.modQueue q (fun v => { v with debuggable := on }))

/-- A sequencer's times moved by `d` cycles: its cut point issues as long after the resume as it would have issued after the halt
(15 R331). -/
def Seq.shift (q : Seq) (d : Nat) : Seq :=
  { q with
    base := q.cutAt.getD q.base + d
    cutAt := none
    deadline := q.deadline + d
    wait := q.wait.map (fun w => { w with t0 := w.t0 + d })
    branches := q.branches.map (fun b => { b with at_ := b.at_ + d })
    resolved := none
    flagAt := 0 }

/-- A core's times moved by `d` cycles, those on which its pipes and ports are free with them (15 R331). -/
def Core.shift (c : Core) (d : Nat) : Core :=
  { c with
    scl := c.scl.shift d, ld := c.ld.shift d, cmp := c.cmp.shift d, st := c.st.shift d
    pipeA := c.pipeA + d, pipeB := c.pipeB + d, sfu := c.sfu + d, engine := c.engine + d, lineRead := c.lineRead + d
    lineWrite := c.lineWrite + d, banked := c.banked + d, scalar := c.scalar + d
    engineReads := c.engineReads.map (fun r => { r with cyc := r.cyc + d }) }

/-! ### Edits of a saved context (15 R330) -/

/-- The unit that an edit concerns. -/
def editUnit : DebugEdit → UnitId
  | .x q _ _ => q.unit
  | .p q _ _ => q.unit
  | .pc q _ => q.unit
  | .loop q _ _ _ _ _ _ => q.unit
  | .stack q _ => q.unit
  | .mode q _ _ _ => q.unit
  | .lane u _ _ _ => u
  | .cell u _ _ _ => u
  | .kind u _ _ => u
  | .slot u _ _ _ _ => u
  | .scale u _ _ => u
  | .format u _ _ => u
  | .stream u _ _ => u
  | .shp u _ => u
  | .flags u _ => u
  | .tags u _ => u
  | .timeline u _ _ => u
  | .phase q _ _ => q.unit
  | .spad u _ _ => u

def Core.modSeq (c : Core) (q : SeqName) (f : Seq → Seq) : Core := c.setSeq q (f (c.seq q))

/-- An edit of a saved core; `halt` is the cycle from which a remaining budget counts. -/
def Core.edit (c : Core) (halt : Nat) : DebugEdit → Core
  | .x q r v => c.modSeq q.q (fun s => s.setX r v)
  | .p q r v => c.modSeq q.q (fun s => s.setP r v)
  | .pc q v => c.modSeq q.q (fun s => { s with pc := v })
  | .loop q l on lc count start last => c.modSeq q.q (fun s =>
      { s with loops := s.loops.set l.val { (s.loops.get l) with active := on, lc := lc, count := count, start := start, last := last } l.isLt })
  | .stack q l => c.modSeq q.q (fun s => { s with stack := l.take 8 })
  | .mode q on seg budget => c.modSeq q.q (fun s =>
      { s with aligned := on, seg := (if on then seg else 0), deadline := (if on then halt + budget else s.deadline) })
  | .lane _ code i v => c.setTile code ((c.tile code).set i v)
  | .cell _ k i v => { c with accs := c.accs.set k.val { (c.accs.get k) with cells := (c.accs.get k).cells.set i v } k.isLt }
  | .kind _ k int => { c with accs := c.accs.set k.val { (c.accs.get k) with kind := (if int then .int32 else .fp32) } k.isLt }
  | .slot _ plane n i b =>
    if plane then { c with planes := c.planes.set n.val ((c.planes.get n).set i b) n.isLt }
    else { c with rows := c.rows.set n.val ((c.rows.get n).set i b) n.isLt }
  | .scale _ i data => { c with sq := c.sq.zipIdx.map (fun e => if e.2 = i then { e.1 with data := some data } else e.1) }
  | .format _ n v => { c with ft := c.ft.set n.val v n.isLt }
  | .stream _ n ws => { c with streams := c.streams.set n.val (ws.take 1024) n.isLt }
  | .shp _ v => { c with shp := v }
  | .flags _ v => { c with flags := v &&& 0xFF }
  | .tags _ v => { c with tags := v }
  | .timeline _ n v => { c with tlc := c.tlc.set n.val v n.isLt }
  | .phase q lvl v =>
    if lvl = 0 then c.modSeq q.q (fun s => { s with phase := v })
    else { c with phases := c.phases.set ((lvl - 1) % 4) v (Nat.mod_lt _ (by decide)) }
  | .spad _ _ _ => c

/-- The debugger edits the saved context of a halted node (15 R330); a segment whose mode it sets has its deadline anew. -/
def Node.edit (n : Node) (e : DebugEdit) : Node :=
  let halt := n.halt.getD 0
  let n := { n with saved := n.saved.map (fun c => if c.1 == editUnit e then (c.1, c.2.edit halt e) else c) }
  match e with
  | .mode q on _ budget =>
    let serial := ((n.saved.find? (fun c => c.1 == q.unit)).map (fun c => (c.2.seq q.q).serial)).getD 0
    let rest := n.later.filter (fun t => match t.ev with | .segmentDeadline p _ => p != q | _ => true)
    { n with later := if on then rest ++ [{ due := .cyc (halt + budget), ev := .segmentDeadline q serial, node := some n.nd }] else rest }
  | .spad u a b =>
    let x := u.val * spadSize + a
    if n.cores.contains u && a < spadSize then { n with savedSpad := n.savedSpad.filter (fun c => c.1 != x) ++ [(x, b)] } else n
  | _ => n

/-- An event that moves with a resume (15 R331). -/
def Todo.shift (t : Todo) (d : Nat) : Todo :=
  { t with
    due := (match t.due with | .cyc n => .cyc (n + d) | .ns n => .ns n)
    ev := (match t.ev with
      | .waitTimeout q t0 => .waitTimeout q (t0 + d)
      | .droneInstantReached q t0 => .droneInstantReached q (t0 + d)
      | ev => ev) }

/-- A branch that a single step issued has not resolved and redirected (15 R332). -/
def State.stepBranches (s : State) (n : Node) : Bool :=
  match n.stepping with
  | some q => q.q == .scl && ((s.core q.unit).scl.redirect.isSome ||
      s.agenda.any (fun t => match t.ev with | .branchResolve u _ => u == q.unit | _ => false))
  | none => false

/-- Every result that sets flags has landed, so that a `CHK.F` has had the cycle on which it would have issued (15 R331, R336). -/
def Core.flagsLanded (c : Core) (cyc : Nat) : Bool := allSeqs.all (fun q => (c.seq q).flagAt == 0 || decide ((c.seq q).flagAt < cyc))

/-- Every operation already started has completed (15 R330, R332). -/
def State.drained (s : State) (n : Node) : Bool :=
  !s.effs.any (fun e => e.node == n.nd) && !s.stepBranches n && n.cores.all (fun u => (s.core u).flagsLanded s.cyc) &&
  !s.agenda.any (fun t => match t.ev with | .waitaReread q _ => n.cores.contains q.unit | _ => false) &&
  n.cores.all (fun u =>
    let c := s.core u
    c.copies.isEmpty && c.reqs.isEmpty)

/-- The addresses of a unit's scratchpad. -/
def spadRange (u : UnitId) (a : Nat) : Bool := u.val * spadSize ≤ a && a < (u.val + 1) * spadSize

/-- A branch of the node that is still to resolve: its event goes with the context, and comes after the resume (15 R331; log 28). -/
def Node.branchOf (n : Node) (t : Todo) : Bool :=
  match t.ev with
  | .branchResolve u _ => n.cores.contains u
  | _ => false

/-- Firmware saves the node's context, and the cores return to the controller (15 R330). -/
def State.saveNode (s : State) (n : Node) : State :=
  let cores := n.cores.map (fun u => (u, s.core u))
  let spad := s.spad.filter (fun c => n.cores.any (fun u => spadRange u c.1))
  let seeds := n.cores.map (fun u => (u, s.spadSeed.get (Fin.ofNat 32 u.val)))
  let s := s.modNode n.nd (fun k =>
    { k with saved := cores, savedSpad := spad, savedSeeds := seeds, stepping := none, later := k.later ++ s.agenda.filter n.branchOf })
  { s with agenda := s.agenda.filter (fun t => !n.branchOf t) }.freeCores n

/-- The single step has issued its instruction, or its waiting form has waited 2^20 cycles (15 R332). -/
def State.stepOver (s : State) (n : Node) (q : SeqId) : Bool :=
  match n.saved.find? (fun c => c.1 == q.unit) with
  | none => true
  | some c => !(c.2.seq q.q).stepping (s.seq q) || decide ((n.halt.getD 0) + 2 ^ 20 ≤ s.cyc)

/-- The sequencer of a step whose wait did not end is as it was saved, and has not arrived (15 R332). -/
def State.unstep (s : State) (n : Node) (q : SeqId) : State :=
  match (s.seq q).wait, n.saved.find? (fun c => c.1 == q.unit) with
  | some _, some c =>
    let old := c.2.seq q.q
    let s := s.setSeq q old
    if old.wait.isSome then s
    else s.modNode n.nd (fun k => { k with arrived := k.arrived.filter (fun a => a.who != q || decide (a.at_ < n.halt.getD 0)) })
  | _, _ => s

/-- An event that ends the wait of a sequencer alone: its timeout, or its instant. -/
def Todo.waitOf (t : Todo) (q : SeqId) : Bool :=
  match t.ev with
  | .waitTimeout p _ => p == q
  | .droneInstantReached p _ => p == q
  | _ => false

/-- The completion of a `BAR`, or the release of an `ALIGN`, of which the sequencer is a member: it is one for all of them (05 R87, R95). -/
def Todo.foldOf (t : Todo) (q : SeqId) : Bool :=
  match t.ev with
  | .alignRelease ms _ _ => ms.contains q
  | .barComplete ms _ => ms.contains q
  | _ => false

/-- The deadline of a segment of a sequencer. -/
def Todo.deadlineOf (t : Todo) (q : SeqId) : Bool :=
  match t.ev with
  | .segmentDeadline p _ => p == q
  | _ => false

/-- The context after a step: a wait that did not end leaves no effect and its timeout where it was; the times of the other sequencers stand
still, also where the step has released them with the one that stepped; this one keeps its own, and the deadline of a segment that it has
opened goes with the context (15 R331, R332). -/
def State.endStep (s : State) (n : Node) (q : SeqId) : State :=
  let d := s.cyc - n.halt.getD 0
  let s := s.unstep n q
  let s := { s with agenda := s.agenda.filter (fun t => !t.waitOf q) }
  let v := s.seq q
  let s := n.cores.foldl (fun s u => s.modCore u (fun c => c.shift d)) s
  let s := if v.wait.isSome then s else s.setSeq q { v with base := max v.base s.cyc, cutAt := none, resolved := none, flagAt := 0 }
  let s := s.modNode n.nd (fun k =>
    { k with
      halt := some s.cyc
      later := (k.later.filter (fun t => v.wait.isSome || !t.waitOf q)).map (fun t => Todo.shift t d) ++
        (s.agenda.filter n.halts).map (fun t => if t.deadlineOf q then t else Todo.shift t d) })
  ({ s with agenda := s.agenda.filter (fun t => !n.halts t) }).saveNode n

/-- The cores of a halted node are free (15 R331). -/
def State.coresFree (s : State) (n : Node) : Bool :=
  n.cores.all (fun u =>
    let c := s.core u
    c.node.isNone && !c.outOfService && (c.owner.isNone || c.owner == some n.part))

/-- The cores of a halted node that its partition does not hold now. -/
def State.lacking (s : State) (n : Node) : List UnitId := n.cores.filter (fun u => (s.core u).owner != some n.part)

/-- The cores of a halted node can be had at once: they are free, need no border move, and the partition may hold them (15 R331, 14 R307,
R308, 01 R13). -/
def State.coresReady (s : State) (n : Node) : Bool :=
  let l := s.lacking n
  s.coresFree n && l.all (fun u => (s.core u).atOnce n.part) && decide (l.length ≤ s.room n.part) && !s.alarm

/-- Cores that a halted node waits for are granted to its partition through border moves (14 R308). -/
def State.askCores (s : State) (n : Node) : State :=
  (((s.lacking n).filter (fun u => (s.core u).owner.isNone && !(s.core u).atOnce n.part)).take (s.room n.part)).foldl
    (fun s u => s.postIn 1 (.coreGrant n.part u)) s

/-- How far the times of a halted node move when its resume cycle is the next one (15 R331). -/
def State.resumeShift (s : State) (n : Node) : Nat := s.cyc + 1 - n.halt.getD 0

/-- Restores the context of a halted node on its cores, its times moved to the resume cycle. -/
def State.restoreNode (s : State) (n : Node) : State :=
  let d := s.resumeShift n
  let s := n.saved.foldl (fun s c =>
    let now := s.core c.1
    s.setCore c.1 { c.2.shift d with
      node := some n.nd, owner := some n.part, lastOwner := some n.part, passes := now.passes, runStart := now.runStart
      quarantined := now.quarantined, muster := now.muster, wanted := now.wanted, moving := now.moving, withdrawn := now.withdrawn, fresh := now.fresh }) s
  let s := n.savedSeeds.foldl (fun s c => s.wipeSpad c.1 c.2) s
  n.savedSpad.foldl (fun s c => s.setSpadByte c.1 c.2) s

/-- A `WAITA` that waited at the halt reads its word again on the resume cycle: writes since the halt were not watched (11 R237). -/
def State.rewatch (s : State) (u : UnitId) : State :=
  match (s.core u).scl.wait with
  | some w => match w.what with
    | .word _ _ _ _ _ _ _ _ met =>
      if met then s
      else { s with agenda := s.agenda ++ [{ due := .cyc (s.cyc + 1), ev := .waitaReread ⟨u, .scl⟩ w.t0, node := (s.core u).node, iss := s.cyc }] }
    | _ => s
  | none => s

/-- `DEBUG_RESUME` (15 R330, R331): the saved context as the debugger has edited it, on the same cores, once they are free. -/
def execDebugResume (call : Resumption) (s : State) : Res :=
  let nd := call.nd
  match s.node? nd with
  | none => .next s
  | some n =>
    if n.state != .halted then .next s
    else if n.saved.isEmpty || n.stepping.isSome || n.pendingStep.isSome then .next (s.postIn 1 (.debugResume call))
    else
      let n := call.edits.foldl Node.edit n
      let s := s.modNode nd (fun _ => n)
      if !s.coresReady n then .next ((s.askCores n).postIn 1 (.debugResume ⟨nd, []⟩))
      else
        let d := s.resumeShift n
        let s := s.restoreNode n
        let s := s.modNode nd (fun k => { k with state := .running, halt := none, saved := [], savedSpad := [], savedSeeds := [], later := [] })
        let s := n.cores.foldl State.rewatch s
        .next { s with agenda := s.agenda ++ n.later.map (fun t => t.shift d) }

/-- Branches that would have resolved before the next instruction of a saved sequencer are resolved before it steps (log 28). -/
def Seq.settleBranches (q : Seq) : Seq :=
  (sortBy Branch.at_ q.branches).foldl (fun q b =>
    if q.branches.contains b && decide (b.at_ < q.base) then
      let rest := q.branches.filter (fun x => x.id != b.id)
      if b.taken then { q with pc := b.target, base := b.at_ + 1, held := false, branches := rest.filter (fun x => !x.sq) }
      else { q with branches := rest }
    else q) q

/-- The cut point of one sequencer of a halted node issues, the others held (15 R332); a wait begun before the halt goes on in the step, as
long as it would have from the halt. -/
def State.stepNow (s : State) (n : Node) (q : SeqId) : State :=
  let d := s.resumeShift n
  let s := (s.restoreNode n).modSeq q Seq.settleBranches
  let s := s.modNode n.nd (fun k =>
    { k with
      halt := some (s.cyc + 1), stepping := some q, pendingStep := none
      later := (k.later.filter (fun t => !t.foldOf q)).map (fun t => Todo.shift t d)
      saved := k.saved.map (fun c => (c.1, c.2.shift d)) })
  let s : State := { s with agenda := s.agenda ++ (n.later.filter (fun t => t.waitOf q || t.foldOf q)).map (fun t => t.shift d) }
  (if q.q = .scl then s.rewatch q.unit else s).postIn 1 (.debugHalt n.nd)

/-- A step is taken where the cores can be had, else waited for (15 R331, R332). -/
def State.tryStep (s : State) (n : Node) (q : SeqId) : State :=
  if s.coresReady n then s.stepNow n q
  else ((s.askCores n).modNode n.nd (fun k => { k with pendingStep := some q })).postIn 1 (.debugHalt n.nd)

/-- `SINGLE_STEP` (15 R332): refused when the sequencer is aligned, or has nothing to issue. -/
def execSingleStep (call : StepCall) (s : State) : Res :=
  let q := call.seq
  match s.nodes.find? (fun n => n.state == .halted && n.stepping.isNone && n.pendingStep.isNone && n.saved.any (fun c => c.1 == q.unit)) with
  | none => .next (s.emit (.refusedCall 332))
  | some n =>
    let n := call.edits.foldl Node.edit n
    match n.saved.find? (fun c => c.1 == q.unit) with
    | none => .next s
    | some c =>
      let v := c.2.seq q.q
      if v.aligned || !v.entry || v.ended then .next (s.emit (.refusedCall 332))
      else .next ((s.modNode n.nd (fun _ => n)).tryStep n q)

/-- `DEBUG_HALT` (15 R329, R330, R332): the debugger's request, whose record names unit 0x78 (log 28); or the save that is due once
everything started has completed, a cycle after the last of it, so that each cut point has had its chance to issue (15 R331); and the step
that waits for its cores. -/
def execDebugHalt (nd : Nat) (s : State) : Res :=
  match s.node? nd with
  | none => .next s
  | some n =>
    if n.state == .running then
      if s.canHalt n then .next (s.addCause { node := nd, rank := 6, unit := 0x78, seq := none, r := { code := .trap } })
      else .next (s.emit (.refusedCall 329))
    else if n.state == .halted then
      let again : Res := .next (s.postIn 1 (.debugHalt nd))
      match n.stepping, n.pendingStep with
      | some q, _ =>
        if !s.stepOver n q then again
        else if s.drained n || (s.seq q).wait.isSome then .next (s.endStep n q) else again
      | none, some q => .next (s.tryStep n q)
      | none, none =>
        if !n.saved.isEmpty then .next s
        else if s.drained n && n.quiet then .next (s.saveNode n)
        else .next ((s.modNode nd (fun k => { k with quiet := s.drained n })).postIn 1 (.debugHalt nd))
    else .next s

end Sys2Proof.Machine
end

