-- ==== Sys2Proof/Machine/Device.lean ====
section
/-! DEFINITION. The hub: power-on, host ports, queues created, keys, alarms, servicing and attestation (17, 14 R292, 15 R315, R328, 16
R352, R353). -/

namespace Sys2Proof.Machine
open Host

/-! ### Power-on (17 R354 to R357) -/

/-- The error code of a step that fails (17 Table 17-1). -/
def stepFails (s : State) (code : Nat) : State := { s with err := code, errV := true }

/-- Step 5: every unit is tested; those that fail are quarantined; a die without a passing shepherd site stops bring-up (17 R354). -/
def State.selfTest (s : State) : State × Bool :=
  let s := (List.finRange 40).foldl (fun s u =>
    if Config.selfTestPasses u.val then s else s.modCore u (fun c => { c with quarantined := true })) s
  let good (d b : Nat) : Bool := !(s.core (unitOf (32 + 2 * d + b))).quarantined
  ({ s with active := Vector.ofFn (fun d => !good d.val 0) }, (List.range 4).all (fun d => good d 0 || good d 1))

/-- An image verifies under one of the four vendor keys, each of which has the hash that mask ROM holds (17 R362). -/
def vendorSigned (image sig : List Byte) : Bool :=
  (List.range 4).any (fun k => sha512 (Config.vendorKey k) == Config.vendorKeyHash k && signatureVerifies (Config.vendorKey k) image sig)

/-- Step 3: every image of flash is signed, and none is older than the minimum version of the configuration (17 R354, R362). Table 17-1 names
R363 for these signatures, whose keys R362 gives (log 8). -/
def flashPasses : Bool :=
  ((List.range 8).map (· + 1)).all (fun k =>
    vendorSigned (Config.flashContent k) (Config.flashSignature k) && decide (Config.minVersion ≤ Config.imageVersion (Config.flashContent k)))

/-- The monitor, and no other level, sets the region guards of a firmware core, 16 at most (17 R361, Table 17-4). -/
def State.setGuards (s : State) (caller : FwLevel) (core : Fin 8) (gs : List RegionGuard) : State :=
  if caller != .monitor || 16 < gs.length then s
  else { s with regionGuards := s.regionGuards.filter (fun g => g.1 != core) ++ gs.map (fun g => (core, g)) }

/-- The guards that the monitor sets as it starts (17 R361; log 8). -/
def bootGuards (core : Fin 8) : List RegionGuard := ((Config.regionGuards core.val).take 16).map (fun g => ⟨g.1, g.2.1, g.2.2.1, g.2.2.2.1, g.2.2.2.2⟩)

/-- Step 3: the configuration, the repair maps and the versions of the die firmware are read in, and the monitor sets the guards
(17 R354, R358, R361, R362, R368, 16 R351, R353). -/
def State.readFlash (s : State) : State :=
  let s := { s with
    minVersion := Config.minVersion, eraseMask := (List.range 1024).filter Config.eraseMask, trayCap := Config.trayCap
    cxl := Vector.ofFn (fun p => Config.portRunsCxl p.val), repair := Config.repairFrames, retired := Config.repairFrames
    dieVersion := Vector.ofFn (fun d => Config.imageVersion (Config.flashContent (4 + d.val))) }
  (List.finRange 8).foldl (fun s c => s.setGuards .monitor c (bootGuards c)) s

/-- The longest that a step takes, in cycles of pitch code 250, which are nanoseconds (17 Table 17-1). -/
def stepBound (k : Nat) : Nat := if k = 1 then 20000000 else if k = 2 then 200000000 else if k = 3 then 100000000 else 5000000

/-- READY (17 R354, R357, 15 R323, 13 R276): the package is a group of one at its admissible code, and the rotation begins. -/
def State.becomeReady (s : State) : State :=
  let a := admissible s.limit
  let s := { s with stage := 6, ready := true, window := s.drone }
  let s := (if 250 ≤ a then s.setPitch a else s.throttleSoon).clearSlip
  let s := s.postAt (.ns (s.drone + 1000 * s.musterUs)) .musterTake
  let s := s.postAt (.ns (s.drone + 2000000)) (.shepherdExchange 0)
  s.proposeRaises.heed

/-- The next step begins: it takes 2^19 cycles, or a time that is not fixed within its bound (17 Table 17-1, log 6). -/
def State.nextStep (s : State) : State :=
  let s := { s with stage := s.stage + 1 }
  if s.stage = 4 then s.postIn (2 ^ 19) .powerOn else (s.postIn (1 + Config.delay s.free % stepBound s.stage) .powerOn).nextFree

/-- `POWER_ON` (17 R354): the step in progress ends; a failed step stops the hub until the next reset. -/
def execPowerOn (s : State) : Res :=
  if s.ready || s.errV then .next s
  else
    match s.stage with
    | 3 => .next (if flashPasses then s.readFlash.nextStep else stepFails s 3)
    | 4 => .next { s with spad := [], badSpad := [], spadSeed := Vector.replicate 32 0 }.nextStep
    | 5 =>
      let r := s.selfTest
      .next (if r.2 then r.1.becomeReady else stepFails r.1 5)
    | k => .next (if Config.powerStepPasses k then s.nextStep else stepFails s k)

/-- `CONFIGURATION_REQUEST` (17 R356, R359): retry status until step 3 has passed; after that a write may let a PASID use CXL.cache, or no
longer. -/
def execConfigurationRequest (port : CfgRequest) (s : State) : Res :=
  let retry := decide (s.stage ≤ 3)
  let s := match port.cache with
    | some (pasid, on) =>
      if retry || s.errV then s
      else { s with cacheOn := (s.cacheOn.filter (fun p => p != pasid)) ++ (if on then [pasid] else []) }
    | none => s
  .next (s.emit (.config port.port retry))

/-! ### Queues (14 R292, 17 R359) -/

/-- A power of two from 2^lo to 2^hi. -/
def powerIn (lo hi n : Nat) : Bool := (List.range (hi + 1 - lo)).any (fun k => n == 2 ^ (lo + k))

/-- The context of a queue lies in its ranges (14 Table 14-1). -/
def QueueCfgOk (c : QueueCfg) : Bool :=
  let window (a : Dword) : Bool := winOf a == 0x10 || winOf a == 0x20
  window c.ring && c.ring.toNat % 64 == 0 && powerIn 10 20 c.ringWords && window c.cring && c.cring.toNat % 64 == 0 &&
  powerIn 4 16 c.cringRecs && c.drover < 8 && c.prio < 4 && c.pasid < 2 ^ 20

/-- The plug-in of a partition admits a queue; without one that names queues every queue is admitted (17 R360; log 39). -/
def State.admitted (s : State) (part : PartId) (q : QueueId) : Bool := (s.part part).policy.admits.all (fun l => l.contains q)

/-- `QUEUE_CREATE` (14 R292, R298, 17 R359, R360): a queue is created switched out, or destroyed; its PASID is bound to a port. -/
def execQueueCreate (q : QueueId) (cfg : Option QueueCfg) (s : State) : Res :=
  if !s.ready then .next (s.emit (.refusedCall 292))
  else match cfg with
    | none => .next (s.setQueue q {})
    | some c =>
      if !QueueCfgOk c || (s.queue q).cfg.isSome || !s.admitted c.part q then .next (s.emit (.refusedCall 292))
      else
        let s := if (lookup s.bound c.pasid).isSome then s else { s with bound := insertKey s.bound c.pasid (Config.boundPort c.pasid % 2) }
        .next (s.setQueue q { cfg := some c })

/-- `FAULT_RECORD_READ` (15 R315). -/
def execFaultRecordRead (q : QueueId) (s : State) : Res :=
  match (s.queue q).faultRec with
  | some r => .next (s.emit (.faultRead q r))
  | none => .next (s.emit (.refusedCall 315))

/-! ### Keys and alarms (16 R352, R353, 15 R328, 17 R365, R366) -/

/-- Every table is unreadable, and every version of every context is lost with it, shadows, pre-images and snapshots: every context that has a
table or a queue is to be rebuilt, and the frames come back by the memory manager's pools (16 R352, R353, 17 R366). -/
def State.loseContexts (s : State) : State :=
  { s with
    roots := [], lost := (s.lost ++ s.roots.map (·.1) ++ s.bound.map (·.1)).eraseDups
    parts := s.parts.map (fun p => { p with snapshots := [] })
    nodes := s.nodes.map (fun (n : Node) => { n with staged := [], pre := [] }) }

/-- `KEY_LOAD` (16 R352, 17 R366): a wrapped key. Lines written under another key of the slot read as undefined under the new one; with slot 0
every context is lost with its tables. -/
def execKeyLoad (slot : Nat) (blob : List Byte) (s : State) : Res :=
  s.unlessFailed <|
  if 1024 ≤ slot || !Config.keyUnwraps blob then .next (s.emit (.refusedCall 352))
  else
    let s := if slot = 0 && s.keyOf 0 != blob then s.loseContexts else s
    .next { s with
      keys := (if s.keys.contains slot then s.keys else s.keys ++ [slot])
      erased := s.erased.filter (fun k => k != slot)
      keyBlobs := (slot, blob) :: s.keyBlobs.filter (fun k => k.1 != slot) }

/-- Committed nodes that have not settled lose their versions with slot 0: their records say so, and they are known no more (17 R366). -/
def State.loseVersions (s : State) : State :=
  (s.nodes.filter (fun n => n.state == .committed || n.state == .tainted)).foldl
    (fun s n => (s.dropNode n).recordDue n.queue (nodeRecord n 0x10 (codeNum .alarm) 0x78 0) true) s

/-- `SECURITY_ALARM` (15 R328, 16 R353, 17 R365, R366): a source leaves its range: running nodes stop, slots of the erase mask are erased; with
slot 0 every context is lost, and with it a commit in progress, and what a part that has voted would commit (log 23). A node none of whose
sequencers has started fails at its start (14 R305). A source that is back in its range ends nothing yet. -/
def execSecurityAlarm (src : AlarmReport) (s : State) : Res :=
  s.unlessFailed <|
  if src.back then .next { s with outOfRange := s.outOfRange.filter (fun x => x != src.src), alarmAt := s.drone }
  else
  let s := { s with alarm := true, alarmAt := s.drone, outOfRange := (s.outOfRange ++ [src.src]).eraseDups }
  let lost := s.eraseMask.contains 0
  let early (n : Node) : Bool := n.state == .armed || (n.state == .running && !n.begun s.cyc)
  let s := { s with nodes := s.nodes.map (fun (n : Node) => if early n then { n with alarmed := true } else n) }
  let hit := s.nodes.filter (fun n => (n.state == .running && !early n) || n.state == .ending || (lost && (n.state == .committing || n.state == .voted || n.state == .inDoubt || n.state == .halted)))
  let s := { s with keys := s.keys.filter (fun k => !s.eraseMask.contains k), erased := (s.erased ++ s.eraseMask).eraseDups }
  let s := if lost then s.loseVersions.loseContexts else s
  .next (hit.foldl (fun s n => s.raiseNode n.nd 0x78 { code := .alarm }) s)

/-- `ALARM_CLEAR` (17 R366): after every source has been in its range for 10 ms, and once a commit in progress has ended. -/
def execAlarmClear (s : State) : Res :=
  s.unlessFailed <|
  if s.alarm && s.outOfRange.isEmpty && decide (s.alarmAt + 10000000 ≤ s.drone) && !s.nodes.any (fun n => n.state == .committing) then
    .next { s with alarm := false }
  else .next s

/-- `KEY_SET_LOAD` (17 R363): from a blob signed by the platform owner key. -/
def execKeySetLoad (part : PartId) (keys : List (List Byte)) (reqsig : Bool) (sig : List Byte) (s : State) : Res :=
  s.unlessFailed <|
  let msg := keys.flatten ++ [if reqsig then 1 else 0]
  if 8 < keys.length || !signatureVerifies Config.ownerKey msg sig then .next (s.emit (.refusedCall 363))
  else .next (s.modPart part (fun p => { p with keys := keys, reqSig := reqsig }))

/-! ### Servicing (17 R361, R362, R364, R367) -/

/-- A muster run of a quarantined unit that the scheduler asks for, outside the rotation; it begins where nothing holds the unit and no core is
in muster (17 R367, 15 R323, R325; log 33). -/
def State.tryUnit (s : State) (u : UnitId) : State :=
  let c := s.core u
  if c.quarantined && c.node.isNone && !c.moving && !c.muster && !(List.range 32).any (fun k => (s.core (unitOf k)).muster) then s.beginRun u else s

/-- `UNIT_REINSTATE` (17 R367, 14 R308): after three consecutive passing runs, and its next grant is a border move; before that the call is
refused, and a run of the unit begins. -/
def execUnitReinstate (unit : UnitId) (s : State) : Res :=
  s.unlessFailed <|
  let c := s.core unit
  if c.quarantined && 3 ≤ c.passes then .next (s.setCore unit { c with quarantined := false, fresh := true, passes := 0 })
  else .next ((s.tryUnit unit).emit (.refusedCall 367))

/-- The fabric partition, with every node of it that uses the fabric, runs on a detour map that excludes the die's ports (17 R367). -/
def State.mapsExclude (s : State) (die : Fin 4) : Bool :=
  s.fabric.isNone || (Config.mapExcludes s.detour die.val &&
    s.nodes.all (fun n => some n.part != s.fabric || !n.onFabric || Config.mapExcludes n.variant.detour die.val))

/-- `DIE_FIRMWARE_UPDATE` (17 R362, R367, 16 R351): while the package runs, one die at a time, while the fabric partition runs on a detour map
without its ports; its cores are withdrawn at their node ends, and the call is refused until they are free. Retired frames enter the repair
map. -/
def execDieFirmwareUpdate (die : Fin 4) (version : Nat) (image sig : List Byte) (s : State) : Res :=
  s.unlessFailed <|
  if !s.ready || Config.imageVersion image ≠ version || version < s.minVersion || !vendorSigned image sig then .next (s.emit (.refusedCall 362))
  else
    let us := (List.finRange 40).filter (fun u => dieOf u == die.val)
    if (List.finRange 40).any (fun u => dieOf u != die.val && (s.core u).withdrawn) || !s.mapsExclude die then
      .next (s.emit (.refusedCall 367))
    else if us.any (fun u => (s.core u).node.isSome || (s.core u).muster || (s.core u).moving) then
      .next ((us.foldl (fun s u => s.modCore u (fun c => { c with withdrawn := true })) s).emit (.refusedCall 367))
    else
      let s := us.foldl (fun s u => s.modCore u (fun c => { c with withdrawn := false, owner := none })) s
      .next { s with
        dieVersion := s.dieVersion.set die.val version die.isLt, dieImages := (die.val, image) :: s.dieImages.filter (fun x => x.1 != die.val)
        repair := (s.repair ++ s.retired).eraseDups }

/-- `LINK_RETRAIN` (12 R239, 17 R367): within a guard interval; one that changes the reach is deferred until no node of the fabric partition
runs. -/
def execLinkRetrain (port : PortId) (reach : Nat) (s : State) : Res :=
  s.unlessFailed <|
  let q := s.port port
  if reach = 0 || 255 < reach then .next (s.emit (.refusedCall 367))
  else if reach = q.reach then .next (if inside q.guards s.cyc then s.retrainLink port reach else s.emit (.refusedCall 367))
  else .next (if s.mayChangeReach port then s.retrainLink port reach else s.modPort port (fun q => { q with deferred := some reach }))

/-- `MEMORY_RETRAIN` (17 R367): one interface at a time, at most 2 ms. -/
def execMemoryRetrain (iface cycles : Nat) (s : State) : Res :=
  s.unlessFailed <|
  if 16 ≤ iface || s.retraining || 8 * s.pitch * 1000 < cycles then .next (s.emit (.refusedCall 367))
  else .next { s with retrain := [(iface, s.cyc + cycles)] }

/-- A guard gives the right that an access needs (17 R361). -/
def RegionGuard.gives (g : RegionGuard) : GuardAccess → Bool
  | .rd => g.r
  | .wr => g.w
  | .ex => g.x

/-- A region guard of the firmware core allows the access (17 R361). -/
def State.guardAllows (s : State) (core : Fin 8) (addr : Nat) (access : GuardAccess) : Bool :=
  s.regionGuards.any (fun g => g.1 == core && g.2.base ≤ addr && addr ≤ g.2.limit && g.2.gives access)

/-- `REGION_GUARD_VIOLATION` (17 R361): an access of a plug-in that no guard of its core allows is blocked, the plug-in stopped, which
leaves the partition under the default policy, the event
recorded with the unit id of the firmware core (01 R7). -/
def execRegionGuardViolation (core : Fin 8) (part : PartId) (addr : Nat) (write : GuardAccess) (s : State) : Res :=
  s.unlessFailed <|
  if s.guardAllows core addr write then .next s
  else .next { s.modPart part (fun p => { p with plugin := false, policy := {} }) with guardRecs := s.guardRecs ++ [(0x70 + core.val, addr)] }

/-- What the measurement record covers, in the order of the rule: mask ROM, monitor, scheduler, each die firmware, repair maps,
configuration, and the image key set of every partition (17 R364). -/
def State.measured (s : State) : List (List Byte) :=
  [Config.flashContent 0, Config.flashContent 1, Config.flashContent 2] ++
  (List.range 4).map (fun d => (s.dieImages.find? (fun x => x.1 == d)).elim (Config.flashContent (4 + d)) (·.2)) ++
  [s.repair.flatMap (leBytes 8), Config.flashContent 3] ++ s.parts.toList.map (fun p => p.keys.flatten)

/-- A request of the DOE mailbox of a port that needs the exchange to have come so far, and leaves it at `next` (17 R364, log 39). -/
def State.doeAnswer (s : State) (port : Fin 2) (need next : Nat) (answer : Out) : State :=
  if s.spdm.get port < need then s.emit .doeError else { s with spdm := s.spdm.set port.val next port.isLt }.emit answer

/-- `ATTESTATION` (17 R358, R364): a request of SPDM 1.3 in the DOE mailbox of a port, which configuration space reaches once step 3 has passed: version,
capabilities and algorithms are agreed first (PRESUMED, log 39); then the digest of the certificate chain, the chain, or the measurement
record, which holds a SHA-512 hash of each item and is signed with the identity key over the requester's nonce. -/
def execAttestation (nonce : SpdmRequest) (s : State) : Res :=
  s.unlessFailed <|
  if s.stage ≤ 3 then .next (s.emit .doeError)
  else
  let port := nonce.port
  match nonce.msg with
  | .version => .next (s.doeAnswer port 0 1 (.doe [0x13]))
  | .capabilities => .next (s.doeAnswer port 1 2 (.doe []))
  | .algorithms => .next (s.doeAnswer port 2 3 (.doe []))
  | .digests => .next (s.doeAnswer port 3 3 (.doe (sha512 Config.certificateChain)))
  | .certificate => .next (s.doeAnswer port 3 3 (.doe Config.certificateChain))
  | .measurements n =>
    let h := s.measured.flatMap sha512
    .next (s.doeAnswer port 3 3 (.attested h (Config.identitySign (n ++ h))))

end Sys2Proof.Machine
end

