-- ==== Sys2Proof/Machine/Vector.lean ====
section
/-! DEFINITION. The vector instructions: pipes, last results, lane functions, conversion, shape and streams (08). -/

namespace Sys2Proof.Machine
open Host

/-! ### Pipes and results (08 R150 to R155) -/

/-- A form with these tile operands runs on pipe B (08 R150). -/
def pipeOf (codes : List TileCode) : Bool :=
  !codes.any (fun c => c.toNat ≤ 15) && codes.any (fun c => 16 ≤ c.toNat && c.toNat ≤ 31)

/-- A form on a pipe that is still occupied waits or raises TIMING; else it occupies the pipe for one cycle, or for two above
128 lanes (08 R153). -/
def State.onPipe (s : State) (b : Bool) (act : State → Verdict) : Verdict :=
  let till := if b then s.here.pipeB else s.here.pipeA
  let k := if lanesOf s.here.shp ≤ 128 then 1 else 2
  if s.cyc < till then s.busy till
  else act (s.modHere (fun c => if b then { c with pipeB := s.cyc + k } else { c with pipeA := s.cyc + k }))

/-- The operand file takes one cycle more (08 R154). -/
def landAt (s : State) (vd : TileCode) (lat : Nat) : Nat :=
  s.cyc + lat + (if 32 ≤ vd.toNat && vd.toNat ≤ 35 then 1 else 0)

/-- A tile result and its flags: lanes from 0 on to the destination, and to the last-result register `last` with zero in the
lanes above, both written on the cycle of the latency; the operand file shows it one cycle later (08 R151, R152, R154, 09 R170,
04 R74; log 14). `fl` marks a form that can set a flag (15 R336). -/
def State.result (s : State) (h : Hdr) (vd : TileCode) (lat : Nat) (last : Option Nat) (fl : Bool) (rs : List (Word × Flags)) :
    State :=
  let t := s.cyc + lat
  let lanes := rs.map (·.1)
  let s := s.later h (landAt s vd lat) true true (.setTile s.cur.unit vd.toNat lanes)
  let s := match last with
    | some l => s.later h t true true (.setLast s.cur.unit l (overlay lanes zeroTile))
    | none => s
  if fl then s.laterFlags h t (laneFlags rs) else s

/-- The code of a pipe's last-result register: `la` 36, `lb` 37 (02 Table 2-4). -/
def lastOf (b : Bool) : Nat := if b then 37 else 36

/-- A form on a pipe: sources, destination, guard and latency; `f` gives its result lanes from the number of active lanes, and `skip`
names the source lanes among them that it does not read (08 R151 to R155, 09 R171, R180). -/
def pipeOpBut (skip : List (Nat × Nat)) (h : Hdr) (len : Nat) (vd : TileCode) (srcs : List TileCode) (extra : List Dest) (pg : PReg)
    (lat : Nat) (fl : Bool) (f : State → Nat → List (Word × Flags)) (s : State) : Res :=
  guarded h len pg
    { reads := extra ++ srcs.flatMap s.tileDest, writes := s.tileDest vd, lanes := lanesOf s.here.shp, skip := skip }
    (fun s => s.onPipe (pipeOf (vd :: srcs)) (fun s' =>
      .ok (s'.result h vd lat (some (lastOf (pipeOf (vd :: srcs)))) fl (f s (lanesOf s.here.shp))))) s

/-- A form on a pipe that reads every active lane of its sources. -/
def pipeOp (h : Hdr) (len : Nat) (vd : TileCode) (srcs : List TileCode) (extra : List Dest) (pg : PReg) (lat : Nat)
    (fl : Bool) (f : State → Nat → List (Word × Flags)) (s : State) : Res :=
  pipeOpBut [] h len vd srcs extra pg lat fl f s

/-- A lane function of two tiles. -/
def lanes2 (s : State) (va vb : TileCode) (f : Word → Word → Word × Flags) (n : Nat) : List (Word × Flags) :=
  (List.range n).map (fun j => f (laneAt (s.tile va) j) (laneAt (s.tile vb) j))

/-- A lane function of one tile. -/
def lanes1 (s : State) (va : TileCode) (f : Word → Word × Flags) (n : Nat) : List (Word × Flags) :=
  (List.range n).map (fun j => f (laneAt (s.tile va) j))

/-- A form of two sources. -/
def vec2 (h : Hdr) (vd va vb : TileCode) (pg : PReg) (lat : Nat) (fl : Bool) (f : Word → Word → Word × Flags) (s : State) : Res :=
  pipeOp h 1 vd [va, vb] [] pg lat fl (fun s n => lanes2 s va vb f n) s

/-- A form of one source. -/
def vec1 (h : Hdr) (vd va : TileCode) (pg : PReg) (lat : Nat) (fl : Bool) (f : Word → Word × Flags) (s : State) : Res :=
  pipeOp h 1 vd [va] [] pg lat fl (fun s n => lanes1 s va f n) s

/-- A form of three sources. -/
def vec3 (h : Hdr) (vd va vb vc : TileCode) (pg : PReg) (lat : Nat) (fl : Bool) (f : Word → Word → Word → Word × Flags) (s : State) : Res :=
  pipeOp h 2 vd [va, vb, vc] [] pg lat fl
    (fun s n => (List.range n).map (fun j => f (laneAt (s.tile va) j) (laneAt (s.tile vb) j) (laneAt (s.tile vc) j))) s

/-- A result that raises no flag. -/
def quiet (w : Word) : Word × Flags := (w, 0)

/-! ### Floating-point lane functions (08 R157, R158) -/

/-- An FP32 encoding is a NaN. -/
def isNan32 (w : Word) : Bool := w.toNat % 2 ^ 31 > 0x7F800000

/-- The order of FP32 encodings that are not NaN, -0 below +0 (08 Table 8-4). -/
def order32 (w : Word) : Int := if w.toNat < 2 ^ 31 then (w.toNat : Int) else 2 ^ 31 - 1 - (w.toNat : Int)

/-- `VFMIN` of two lanes. -/
def minLane (a b : Word) : Word := if isNan32 a || isNan32 b then 0x7FC00000 else if order32 b < order32 a then b else a

/-- `VFMAX` of two lanes. -/
def maxLane (a b : Word) : Word := if isNan32 a || isNan32 b then 0x7FC00000 else if order32 a < order32 b then b else a

/-- A mask lane (08 R158). -/
def maskOf (b : Bool) : Word := if b then BitVec.allOnes 32 else 0

/-- `VFADD` (08 Table 8-4). -/
def execVfadd (h : Hdr) (vd va vb : TileCode) (pg : PReg) (s : State) : Res :=
  vec2 h vd va vb pg 3 true (fun a b => fadd (dec32 a) (dec32 b)) s
/-- `VFSUB` (08 Table 8-4). -/
def execVfsub (h : Hdr) (vd va vb : TileCode) (pg : PReg) (s : State) : Res :=
  vec2 h vd va vb pg 3 true (fun a b => fadd (dec32 a) (dec32 b).negate) s
/-- `VFMUL` (08 Table 8-4). -/
def execVfmul (h : Hdr) (vd va vb : TileCode) (pg : PReg) (s : State) : Res :=
  vec2 h vd va vb pg 4 true (fun a b => fmul (dec32 a) (dec32 b)) s
/-- `VFMA` (08 Table 8-4). -/
def execVfma (h : Hdr) (vd va vb : TileCode) (pg : PReg) (vc : TileCode) (s : State) : Res :=
  vec3 h vd va vb vc pg 5 true (fun a b c => ffma (dec32 a) (dec32 b) (dec32 c)) s
/-- `VFMS` (08 Table 8-4). -/
def execVfms (h : Hdr) (vd va vb : TileCode) (pg : PReg) (vc : TileCode) (s : State) : Res :=
  vec3 h vd va vb vc pg 5 true (fun a b c => ffma (dec32 a) (dec32 b) (dec32 c).negate) s
/-- `VFNMA` (08 Table 8-4). -/
def execVfnma (h : Hdr) (vd va vb : TileCode) (pg : PReg) (vc : TileCode) (s : State) : Res :=
  vec3 h vd va vb vc pg 5 true (fun a b c => ffma (dec32 a).negate (dec32 b) (dec32 c)) s
/-- `VFMIN` (08 Table 8-4). -/
def execVfmin (h : Hdr) (vd va vb : TileCode) (pg : PReg) (s : State) : Res :=
  vec2 h vd va vb pg 3 false (fun a b => quiet (minLane a b)) s
/-- `VFMAX` (08 Table 8-4). -/
def execVfmax (h : Hdr) (vd va vb : TileCode) (pg : PReg) (s : State) : Res :=
  vec2 h vd va vb pg 3 false (fun a b => quiet (maxLane a b)) s
/-- `VFABS` (08 Table 8-4). -/
def execVfabs (h : Hdr) (vd va : TileCode) (pg : PReg) (s : State) : Res :=
  vec1 h vd va pg 1 false (fun a => quiet (a &&& 0x7FFFFFFF)) s
/-- `VFNEG` (08 Table 8-4). -/
def execVfneg (h : Hdr) (vd va : TileCode) (pg : PReg) (s : State) : Res :=
  vec1 h vd va pg 1 false (fun a => quiet (a ^^^ 0x80000000)) s
/-- `VFCEQ` (08 R158). -/
def execVfceq (h : Hdr) (vd va vb : TileCode) (pg : PReg) (s : State) : Res :=
  vec2 h vd va vb pg 3 false (fun a b => quiet (maskOf (cmpV (dec32 a) (dec32 b) == some .eq))) s
/-- `VFCLT` (08 R158). -/
def execVfclt (h : Hdr) (vd va vb : TileCode) (pg : PReg) (s : State) : Res :=
  vec2 h vd va vb pg 3 false (fun a b => quiet (maskOf (cmpV (dec32 a) (dec32 b) == some .lt))) s
/-- `VFCLE` (08 R158). -/
def execVfcle (h : Hdr) (vd va vb : TileCode) (pg : PReg) (s : State) : Res :=
  vec2 h vd va vb pg 3 false (fun a b => quiet (maskOf (match cmpV (dec32 a) (dec32 b) with | some o => o != .gt | none => false))) s
/-- `VFCUN` (08 R158). -/
def execVfcun (h : Hdr) (vd va vb : TileCode) (pg : PReg) (s : State) : Res :=
  vec2 h vd va vb pg 3 false (fun a b => quiet (maskOf (isNan32 a || isNan32 b))) s

/-! ### Integer and bitwise lane functions (08 R159) -/

/-- A signed sum clamped to the range of INT32, with `IOVF` (08 Table 8-5). -/
def clampLane (v : Int) : Word × Flags := let r := clampI 6 v; (BitVec.ofNat 32 r.1, r.2)

/-- `VIADD` (08 Table 8-5). -/
def execViadd (h : Hdr) (vd va vb : TileCode) (pg : PReg) (s : State) : Res := vec2 h vd va vb pg 3 false (fun a b => quiet (a + b)) s
/-- `VISUB` (08 Table 8-5). -/
def execVisub (h : Hdr) (vd va vb : TileCode) (pg : PReg) (s : State) : Res := vec2 h vd va vb pg 3 false (fun a b => quiet (a - b)) s
/-- `VIMUL` (08 Table 8-5). -/
def execVimul (h : Hdr) (vd va vb : TileCode) (pg : PReg) (s : State) : Res := vec2 h vd va vb pg 4 false (fun a b => quiet (a * b)) s
/-- `VIMULH` (08 Table 8-5). -/
def execVimulh (h : Hdr) (vd va vb : TileCode) (pg : PReg) (s : State) : Res :=
  vec2 h vd va vb pg 4 false (fun a b => quiet (BitVec.ofInt 32 (a.toInt * b.toInt / 2 ^ 32))) s
/-- `VIMIN` (08 Table 8-5). -/
def execVimin (h : Hdr) (vd va vb : TileCode) (pg : PReg) (s : State) : Res :=
  vec2 h vd va vb pg 3 false (fun a b => quiet (if b.slt a then b else a)) s
/-- `VIMAX` (08 Table 8-5). -/
def execVimax (h : Hdr) (vd va vb : TileCode) (pg : PReg) (s : State) : Res :=
  vec2 h vd va vb pg 3 false (fun a b => quiet (if a.slt b then b else a)) s
/-- `VUMIN` (08 Table 8-5). -/
def execVumin (h : Hdr) (vd va vb : TileCode) (pg : PReg) (s : State) : Res :=
  vec2 h vd va vb pg 3 false (fun a b => quiet (if b.ult a then b else a)) s
/-- `VUMAX` (08 Table 8-5). -/
def execVumax (h : Hdr) (vd va vb : TileCode) (pg : PReg) (s : State) : Res :=
  vec2 h vd va vb pg 3 false (fun a b => quiet (if a.ult b then b else a)) s
/-- `VIADDS` (08 Table 8-5). -/
def execViadds (h : Hdr) (vd va vb : TileCode) (pg : PReg) (s : State) : Res :=
  vec2 h vd va vb pg 3 true (fun a b => clampLane (a.toInt + b.toInt)) s
/-- `VISUBS` (08 Table 8-5). -/
def execVisubs (h : Hdr) (vd va vb : TileCode) (pg : PReg) (s : State) : Res :=
  vec2 h vd va vb pg 3 true (fun a b => clampLane (a.toInt - b.toInt)) s
/-- `VAND` (08 Table 8-5). -/
def execVand (h : Hdr) (vd va vb : TileCode) (pg : PReg) (s : State) : Res := vec2 h vd va vb pg 3 false (fun a b => quiet (a &&& b)) s
/-- `VOR` (08 Table 8-5). -/
def execVor (h : Hdr) (vd va vb : TileCode) (pg : PReg) (s : State) : Res := vec2 h vd va vb pg 3 false (fun a b => quiet (a ||| b)) s
/-- `VXOR` (08 Table 8-5). -/
def execVxor (h : Hdr) (vd va vb : TileCode) (pg : PReg) (s : State) : Res := vec2 h vd va vb pg 3 false (fun a b => quiet (a ^^^ b)) s
/-- `VANDN` (08 Table 8-5). -/
def execVandn (h : Hdr) (vd va vb : TileCode) (pg : PReg) (s : State) : Res :=
  vec2 h vd va vb pg 3 false (fun a b => quiet (a &&& ~~~b)) s
/-- `VSHL` (08 Table 8-5). -/
def execVshl (h : Hdr) (vd va vb : TileCode) (pg : PReg) (s : State) : Res :=
  vec2 h vd va vb pg 3 false (fun a b => quiet (a <<< (b.toNat % 32))) s
/-- `VSHR` (08 Table 8-5). -/
def execVshr (h : Hdr) (vd va vb : TileCode) (pg : PReg) (s : State) : Res :=
  vec2 h vd va vb pg 3 false (fun a b => quiet (a >>> (b.toNat % 32))) s
/-- `VSAR` (08 Table 8-5). -/
def execVsar (h : Hdr) (vd va vb : TileCode) (pg : PReg) (s : State) : Res :=
  vec2 h vd va vb pg 3 false (fun a b => quiet (a.sshiftRight (b.toNat % 32))) s
/-- `VICEQ` (08 Table 8-5). -/
def execViceq (h : Hdr) (vd va vb : TileCode) (pg : PReg) (s : State) : Res :=
  vec2 h vd va vb pg 3 false (fun a b => quiet (maskOf (a == b))) s
/-- `VICLT` (08 Table 8-5). -/
def execViclt (h : Hdr) (vd va vb : TileCode) (pg : PReg) (s : State) : Res :=
  vec2 h vd va vb pg 3 false (fun a b => quiet (maskOf (a.slt b))) s
/-- `VUCLT` (08 Table 8-5). -/
def execVuclt (h : Hdr) (vd va vb : TileCode) (pg : PReg) (s : State) : Res :=
  vec2 h vd va vb pg 3 false (fun a b => quiet (maskOf (a.ult b))) s

/-! ### Moves, selection, conversion, shape (08 R160 to R165) -/

/-- `VMOV` (08 R160). -/
def execVmov (h : Hdr) (vd va : TileCode) (pg : PReg) (s : State) : Res := vec1 h vd va pg 1 false quiet s

/-- `VXM` (08 R160): the pipe of the source, no last result. -/
def execVxm (h : Hdr) (vd va : TileCode) (pg : PReg) (s : State) : Res :=
  guarded h 1 pg
    { reads := s.tileDest va, writes := s.tileDest vd, lanes := lanesOf s.here.shp }
    (fun s => s.onPipe (pipeOf [va]) (fun s' => .ok (s'.result h vd 2 none false (lanes1 s va quiet (lanesOf s.here.shp))))) s

/-- `VSEL` (08 R161). -/
def execVsel (h : Hdr) (vd va vb : TileCode) (pg : PReg) (vc : TileCode) (s : State) : Res :=
  vec3 h vd va vb vc pg 1 false (fun a b c => quiet (if c = 0 then b else a)) s

/-- `VBCAST` (08 R162). -/
def execVbcast (h : Hdr) (vd : TileCode) (xa : XReg) (pg : PReg) (s : State) : Res :=
  pipeOp h 1 vd [] [s.xDest xa] pg 1 false (fun s n => List.replicate n (quiet ((s.xr xa).setWidth 32))) s

/-- `VGET` (08 R163). -/
def execVget (h : Hdr) (xd : XReg) (va : TileCode) (lane : BitVec 8) (s : State) : Res :=
  issue h 1 { reads := s.tileDest va, writes := [s.xDest xd], firstLane := lane.toNat, lanes := 1 }
    (fun s => .ok (s.laterX h xd 2 (zx64 (laneAt (s.tile va) lane.toNat)))) s

/-- A lane's conversion (08 R164). -/
def convertLane (src dst : BitVec 4) (sat : Bool) (a : Word) : Word × Flags :=
  let r := convertV (a.toNat % 2 ^ formatWidth src) src dst sat
  (BitVec.ofNat 32 r.1, r.2)

/-- `VCVT` (08 R164). -/
def execVcvt (h : Hdr) (vd va : TileCode) (src dst : BitVec 4) (sat : BitVec 1) (s : State) : Res :=
  vec1 h vd va 0 3 true (convertLane src dst (sat == 1)) s

/-- `SHAPE` (08 R165). -/
def execShape (h : Hdr) (rows cols : BitVec 4) (s : State) : Res :=
  issue h 1 {}
    (fun s => .ok (s.later h (s.cyc + 2) true true (.setShp s.cur.unit (cols ++ rows)))) s

/-! ### Conditional streams (08 R166 to R169) -/

/-- Elements pushed to a stream buffer and not yet appended (08 R167). -/
def State.pendingPush (s : State) (q : BitVec 2) : Nat :=
  s.effs.foldl (fun n e => match e.op with
    | .push u k ws => if u == s.cur.unit && k == q then n + ws.length else n
    | _ => n) 0

/-- The lanes that a push selects (08 R167). -/
def selectLanes (va vm : Tile) (n : Nat) : List Word :=
  ((List.range n).filter (fun j => laneAt vm j != 0)).map (laneAt va)

/-- `VPUSH` (08 R167). -/
def execVpush (h : Hdr) (q : BitVec 2) (va vm : TileCode) (pg : PReg) (s : State) : Res :=
  guarded h 1 pg
    { reads := (s.tileDest va ++ s.tileDest vm), lanes := lanesOf s.here.shp }
    (fun s =>
      let sel := selectLanes (s.tile va) (s.tile vm) (lanesOf s.here.shp)
      if (s.here.streams.get q.toFin).length + s.pendingPush q + sel.length > 1024 then .fault { code := .stream }
      else .ok (s.later h (s.cyc + 2) true true (.push s.cur.unit q sel))) s

/-- In free mode a form waits until every earlier push to the buffer has appended (08 R168, R169). -/
def State.afterPushes (s : State) (q : BitVec 2) (act : State → Verdict) : Verdict :=
  if !s.me.aligned && s.effs.any (fun e => match e.op with
      | .push u k _ => u == s.cur.unit && k == q
      | _ => false) then .stall (s.cyc + 1)
  else act s

/-- One of the first elements of a stream buffer has an uncorrectable error (15 R326). -/
def Core.streamBad (k : Core) (q : BitVec 2) (c : Nat) : Bool := k.bad.any (fun b => b.1 == 5 && b.2 / 4096 == q.toNat && b.2 % 4096 < c)

/-- A stream buffer loses its first elements; errors of the others move with them. -/
def Core.popStream (k : Core) (q : BitVec 2) (c : Nat) : Core :=
  { k with
    streams := k.streams.set q.toNat ((k.streams.get q.toFin).drop c) q.isLt
    bad := k.bad.map (fun b => if b.1 == 5 && b.2 / 4096 == q.toNat then (5, b.2 - c) else b) }

/-- `VPOP` (08 R168, 15 R326). -/
def execVpop (h : Hdr) (q : BitVec 2) (vd : TileCode) (xd : XReg) (s : State) : Res :=
  issue h 1 { writes := s.xDest xd :: s.tileDest vd } (fun s => s.afterPushes q (fun s =>
    let buf := s.here.streams.get q.toFin
    let c := min buf.length 256
    if s.here.streamBad q c then .fault { code := .uncorrectable }
    else
    let s := s.modHere (fun k => k.popStream q c)
    let s := s.later h (landAt s vd 4) true true (.setTile s.cur.unit vd.toNat (overlay (buf.take c) zeroTile))
    .ok (s.laterX h xd 2 (BitVec.ofNat 64 c)))) s

/-- `VQCNT` (08 R169). -/
def execVqcnt (h : Hdr) (xd : XReg) (q : BitVec 2) (s : State) : Res :=
  issue h 1 { writes := [s.xDest xd] } (fun s => s.afterPushes q (fun s =>
    .ok (s.laterX h xd 1 (BitVec.ofNat 64 (s.here.streams.get q.toFin).length)))) s

end Sys2Proof.Machine
end

