-- ==== Sys2Proof/Machine/Matrix.lean ====
section
/-! DEFINITION. The matrix instructions: operands, rates, accumulation, and the accumulator and format-table forms (10). -/

namespace Sys2Proof.Machine
open Host

/-! ### Formats and rates (10 R185 to R188) -/

/-- A format whose elements take a block scale (10 R187). -/
def scaledFmt (f : BitVec 4) : Bool := 3 ≤ f.toNat && f.toNat ≤ 5

/-- Exponent bits of a floating-point matrix format (10 Table 10-1). -/
def exponentWidth (f : BitVec 4) : Nat := (fmtOf f).e

/-- The mantissa planes that a planes field declares (02 R31, 10 R198). -/
def planesOf (fa planes : BitVec 4) : Nat := if planes = 15 then mantissaWidth fa else planes.toNat

/-- Plane rows that an instruction reads (10 R185). -/
def planeRows (fa : BitVec 4) (p : Nat) : Nat :=
  if matrixInt fa then formatWidth fa else 1 + exponentWidth fa + p

/-- The least power of two from 2 to 16 that is at least n (10 R188). -/
def upTo2 (n : Nat) : Nat := if n ≤ 2 then 2 else if n ≤ 4 then 4 else if n ≤ 8 then 8 else 16

/-- Cycles of a K-block (10 Table 10-2). -/
def blockCycles (fa : BitVec 4) (p : Nat) (sparse : Bool) : Nat :=
  let s := if matrixInt fa then formatWidth fa else 1 + p
  upTo2 s * (if sparse then 2 else 4)

/-- Bytes of the stored rows of a K-block (10 R186). -/
def blockBytes (fb : BitVec 4) (sparse : Bool) : Nat := (if sparse then 16 else 32) * (16 * formatWidth fb)

/-- The row slots that hold the stored rows of K-block b, in order (10 R186). -/
def rowSlots (fb : BitVec 4) (sparse : Bool) (pb b : Nat) : List Nat :=
  let o := b * blockBytes fb sparse
  let lo := o / 4096
  let hi := (o + blockBytes fb sparse - 1) / 4096
  (List.range (hi + 1 - lo)).map (fun i => (pb + lo + i) % 8)

/-! ### Operands (10 R187, R196, R200) -/

/-- The encoding of A's element (k, m) from the plane rows that are read (10 R185, 07 R143). -/
def encA (w rows : Nat) (plane : Array Byte) (k m : Nat) : Nat :=
  (List.range rows).foldl (fun v r =>
    let byte := plane.getD (768 * r + 128 * (m / 32) + 4 * k + m % 32 / 8) 0
    if byte.getLsbD (m % 8) then v + 2 ^ (w - 1 - r) else v) 0

/-- A plane-row word with an uncorrectable error holds a bit of the element (10 R196). -/
def badA (rows : Nat) (bad : List Nat) (k m : Nat) : Bool :=
  (List.range rows).any (fun r =>
    let a := 768 * r + 128 * (m / 32) + 4 * k + m % 32 / 8
    bad.any (fun x => x ≤ a && a < x + 8))

/-- The byte of a row of 128 elements that holds element i (10 R186). -/
def elemByte (w i : Nat) : Nat := if w = 4 then i / 2 else i * w / 8

/-- The encoding of B's element i of stored row s of a K-block (10 R186). -/
def encB (w : Nat) (rows : Array Byte) (off s i : Nat) : Nat :=
  let a := off + s * (16 * w) + elemByte w i
  let b0 := (rows.getD a 0).toNat
  if w = 4 then b0 / 2 ^ (4 * (i % 2)) % 16
  else if w = 8 then b0
  else b0 + 256 * (rows.getD (a + 1) 0).toNat

/-- A row-slot word with an uncorrectable error holds the element (10 R196). -/
def badB (w : Nat) (bad : List Nat) (off s i : Nat) : Bool :=
  let a := off + s * (16 * w) + elemByte w i
  bad.any (fun x => x ≤ a && a < x + 8)

/-- An E8M0 scale applied to a decoded value (04 R64, 10 R187). -/
def scaled (v : FVal) (scale : Nat) : FVal := if scale = 0xFF then .nan else v.scale ((scale : Int) - 127)

/-- `DecodeA` for floating-point formats (10 R187). -/
def decodeA (fa : BitVec 4) (enc : Nat) (scale extra : Nat) : FVal :=
  if fa = 5 then decodeX enc scale extra
  else if scaledFmt fa then scaled (decodeF (fmtOf fa) enc) scale
  else decodeF (fmtOf fa) enc

/-- `DecodeB` for integer formats (10 R187). -/
def decodeBI (fb : BitVec 4) (enc : Nat) : Int :=
  let v := decodeI fb enc
  if v = (intRange fb).1 then v + 1 else v

/-- A decoded operand: a float value or an integer. -/
inductive Operand
  | f (v : FVal)
  | i (v : Int)
  deriving DecidableEq, Repr

/-- The operand that a replaced element takes part as (10 R196). -/
def zeroOperand (integer : Bool) : Operand := if integer then .i 0 else .f (.fin false 0 0)

/-- The fields of a matrix instruction that its operands depend on. -/
structure Shape where
  fa : BitVec 4
  fb : BitVec 4
  p : Nat
  sparse : Bool

/-- A byte of a scale entry, and whether its word has an uncorrectable error (07 Table 7-10, 10 R196). -/
def scaleByte (e : List Byte × List Nat) (a : Nat) : Nat × Bool :=
  ((e.1.getD a 0).toNat, e.2.any (fun x => x ≤ a && a < x + 8))

/-- A's element (k, m) of a K-block, and whether it was replaced (10 R187, R196). -/
def operandA (sh : Shape) (blk : KBlock) (plane : Array Byte) (sc : List Byte × List Nat) (k m : Nat) : Operand × Bool :=
  let w := formatWidth sh.fa
  let rows := planeRows sh.fa sh.p
  let e := encA w rows plane k m
  let a := scaleByte sc m
  let x := scaleByte sc (0xC0 + m)
  let bad := badA rows blk.badPlane k m || (scaledFmt sh.fa && a.2) || (sh.fa = 5 && x.2)
  if bad then (zeroOperand (matrixInt sh.fa), true)
  else if matrixInt sh.fa then (.i (signmag w e), false)
  else (.f (decodeA sh.fa e a.1 x.1), false)

/-- B's element i of stored row s of a K-block, and whether it was replaced (10 R187, R196). -/
def operandB (sh : Shape) (blk : KBlock) (rows : Array Byte) (sc : List Byte × List Nat) (s i : Nat) : Operand × Bool :=
  let w := formatWidth sh.fb
  let e := encB w rows blk.off s i
  let b := scaleByte sc (0x180 + i)
  let bad := badB w blk.badRows blk.off s i || (scaledFmt sh.fb && b.2)
  if bad then (zeroOperand (matrixInt sh.fb), true)
  else if matrixInt sh.fb then (.i (decodeBI sh.fb e), false)
  else (.f (decodeA sh.fb e b.1 0x80), false)

/-- The four dense positions of group g of a K-block at column i; of two stored elements with one index the second stands, and a
replacement of either is one (10 R196, R198, R200). -/
def denseB (sh : Shape) (b : Nat) (blk : KBlock) (rows index : Array Byte) (sc : List Byte × List Nat) (g i : Nat) :
    List (Operand × Bool) :=
  if !sh.sparse then (List.range 4).map (fun j => operandB sh blk rows sc (4 * g + j) i)
  else
    let a := 512 * b + 64 * g + i / 2
    let nib := (index.getD a 0).toNat / 2 ^ (4 * (i % 2)) % 16
    let z := (zeroOperand (matrixInt sh.fb), false)
    if blk.badIndex.any (fun x => x ≤ a && a < x + 8) then
      List.replicate 4 (zeroOperand (matrixInt sh.fb), true)
    else
      let x := operandB sh blk rows sc (2 * g) i
      let y := operandB sh blk rows sc (2 * g + 1) i
      ((List.replicate 4 z).set (nib % 4) x).set (nib / 4) (y.1, y.2 || (nib % 4 == nib / 4 && x.2))

/-- One group summed into an accumulator element (04 R75). -/
def addGroup (acc : Word) (as bs : List Operand) : Word × Flags :=
  let is := (as.zip bs).filterMap (fun p => match p with | (.i a, .i b) => some (a * b) | _ => none)
  if is.length = 4 then accAddI acc (is.foldl (· + ·) 0)
  else
    let fs := (as.zip bs).filterMap (fun p => match p with | (.f a, .f b) => some (a, b) | _ => none)
    let r := groupSum fs
    let u := accAdd acc r.1
    (u.1, u.2 ||| r.2)

/-- A K-block decoded: A by column, each of 32 elements; B by column, each of 8 groups of four. -/
structure Decoded where
  a : Array (Array (Operand × Bool))
  b : Array (Array (List (Operand × Bool)))

/-- All the operands of a K-block (10 R198, R200). -/
def decodeBlock (sh : Shape) (b : Nat) (blk : KBlock) (sc : List Byte × List Nat) : Decoded :=
  let plane := blk.plane.toArray
  let rows := blk.rows.toArray
  let index := blk.index.toArray
  { a := Array.ofFn (n := 192) (fun m => Array.ofFn (n := 32) (fun k => operandA sh blk plane sc k.val m.val))
    b := Array.ofFn (n := 128) (fun i => Array.ofFn (n := 8) (fun g => denseB sh b blk rows index sc g.val i.val)) }

/-- One K-block added into accumulator element (i, m), group after group (04 R75). -/
def addBlock (d : Decoded) (i m : Nat) (acc : Word × Flags) : Word × Flags :=
  (List.range 8).foldl (fun acc g =>
    let as := (List.range 4).map (fun j => ((d.a.getD m #[]).getD (4 * g + j) (.i 0, false)).1)
    let bs := (((d.b.getD i #[]).getD g []).map (·.1))
    let r := addGroup acc.1 as bs
    (r.1, acc.2 ||| r.2)) acc

/-- The result of an accumulating instruction: elements row after row, with their flags (10 R198). -/
def accumulate (ds : List Decoded) (old : List Word) : List (Word × Flags) :=
  (old.zip (List.range old.length)).map (fun p => ds.foldl (fun acc d => addBlock d (p.2 / 192) (p.2 % 192) acc) (p.1, 0))

/-- The record of a replaced element (14 Table 14-10, offset 0x30). -/
def mxRecord (c : Nat) (side : Bool) (k col unit : Nat) : Nat :=
  c + (if side then 4 else 0) + 8 + 16 * k + 2 ^ 13 * col + 2 ^ 21 * unit

/-- The first replaced element of one K-block: A before B, then by K index, then by column (log 15). -/
def firstInBlock (d : Decoded) (b c unit : Nat) : Option Nat :=
  let fromA := (List.range 32).findSome? (fun k => (List.range 192).findSome? (fun m =>
    if ((d.a.getD m #[]).getD k (.i 0, false)).2 then some (mxRecord c false (32 * b + k) m unit) else none))
  match fromA with
  | some r => some r
  | none => (List.range 32).findSome? (fun k => (List.range 128).findSome? (fun i =>
      if (((d.b.getD i #[]).getD (k / 4) []).getD (k % 4) (.i 0, false)).2
      then some (mxRecord c true (32 * b + k) i unit) else none))

/-- The first replaced element of an instruction, K-block by K-block in the order of their reads (10 R196, R198, log 15). -/
def firstReplaced (ds : List Decoded) (c unit : Nat) : Option Nat :=
  ds.zipIdx.findSome? (fun d => firstInBlock d.1 d.2 c unit)

/-! ### The engine (10 R189 to R192) -/

/-- A full slot of a core, from its list of bytes. -/
def Core.planeSlot (c : Core) (n : Nat) : List Byte := c.planes.toList.getD n []
def Core.rowSlot (c : Core) (n : Nat) : List Byte := c.rows.toList.getD n []

/-- The words of a slot whose error is uncorrectable, by byte address within it. -/
def Core.badIn (c : Core) (kind n size : Nat) : List Nat :=
  (c.bad.filter (fun e => e.1 == kind && e.2 / size == n)).map (fun e => e.2 % size)

/-- K-block b as the engine reads it now (10 R189, R200). -/
def Core.readBlock (c : Core) (pa : Nat) (rows : List Nat) (off : Nat) (pm : Option Nat) : KBlock :=
  { plane := c.planeSlot pa
    rows := rows.flatMap c.rowSlot
    off := off
    index := (match pm with | some m => c.rowSlot m | none => [])
    badPlane := c.badIn 0 pa 12288
    badRows := (rows.zip (List.range rows.length)).flatMap (fun r => (c.badIn 1 r.1 4096).map (· + 4096 * r.2))
    badIndex := (match pm with | some m => c.badIn 1 m 4096 | none => []) }

/-- Present and outstanding entries of the scale queue (07 R147). -/
def Core.present (c : Core) : Nat := (c.sq.takeWhile (fun e => e.data.isSome)).length
def Core.outstanding (c : Core) : Nat := c.sq.length - c.present

/-- The three cases of a pop of n entries (10 R192, R204). -/
def State.scaleCase (s : State) (n : Nat) (act : State → Verdict) : Verdict :=
  if n ≤ s.here.present then act s
  else if s.here.sq.length < n then .fault { code := .scaleq }
  else if s.me.aligned then .fault { code := .timing } else .stall (s.cyc + 1)

/-- An engine instruction issued while the engine is occupied waits or raises TIMING (10 R189). -/
def State.onEngine (s : State) (d : Nat) (act : State → Verdict) : Verdict :=
  if s.cyc < s.here.engine then s.busy s.here.engine
  else act (s.modHere (fun c => { c with engine := s.cyc + d }))

/-- The formats and planes of an instruction, from its word or from the format table (10 R194, R198). -/
def State.matrixShape (s : State) (fsrc : BitVec 1) (lvl : BitVec 2) (planes fa fb : BitVec 4) : BitVec 4 × BitVec 4 × BitVec 4 :=
  if fsrc = 0 then (fa, fb, planes)
  else
    let e := s.here.ft.get (Fin.ofNat 16 (s.me.loops.get lvl.toFin).lc.toNat)
    (e.extractLsb' 0 4, e.extractLsb' 4 4, e.extractLsb' 8 4)

/-- The formats, planes or row slots are not allowed (10 R190, R194, R198, Table 10-6). -/
def State.matrixIllegal (s : State) (fsrc : BitVec 1) (lvl : BitVec 2) (planes fa fb : BitVec 4) (sparse : Bool) (kblk : BitVec 3) :
    Bool :=
  let f := s.matrixShape fsrc lvl planes fa fb
  !matrixTriple f.2.2 f.1 f.2.1 || !rowSlotsFit sparse f.2.1 kblk

/-- `MMA` and `MMAS` (10 R198 to R200). -/
def matrixOp (h : Hdr) (c : BitVec 2) (pa pb : BitVec 3) (fsrc : BitVec 1) (lvl : BitVec 2) (planes fa0 fb0 : BitVec 4)
    (zero : BitVec 1) (kblk : BitVec 3) (pm : Option (BitVec 3)) (s : State) : Res :=
  let f := s.matrixShape fsrc lvl planes fa0 fb0
  let fa := f.1
  let fb := f.2.1
  let sparse := pm.isSome
  if s.matrixIllegal fsrc lvl planes fa0 fb0 sparse kblk then issue h 2 { illegal := true } (fun _ => .fault { code := .illegal }) s
  else
    let p := planesOf fa f.2.2
    let kb := kblk.toNat + 1
    let cb := blockCycles fa p sparse
    let d := kb * cb
    let meta_ := pm.map (·.toNat)
    let slots (b : Nat) : List Nat := rowSlots fb sparse pb.toNat b
    let reads := (List.range kb).flatMap (fun b =>
      Dest.plane s.cur.unit ((pa.toNat + b) % 8) :: (slots b ++ meta_.toList).map (Dest.row s.cur.unit))
    let scaled := scaledFmt fa || scaledFmt fb
    issue h 2 { reads := reads.eraseDups } (fun s =>
      s.onEngine d (fun s' => s'.scaleCase (if scaled then kb else 0) (fun s =>
        let u := s.cur.unit
        let id := s.serial
        let popped := if scaled then s.here.sq.take kb else []
        let scales := popped.map (fun e => (e.data.getD [], s.here.badIn 2 e.id 512))
        let er := (List.range kb).map (fun b =>
          { cyc := s.cyc + b * cb, plane := (pa.toNat + b) % 8, rows := slots b ++ meta_.toList : EngineRead })
        let first := s.here.readBlock (pa.toNat % 8) (slots 0) 0 meta_
        let s := s.modHere (fun k =>
          { k with
            sq := k.sq.drop popped.length
            engineReads := k.engineReads.filter (fun e => decide (s.cyc < e.cyc)) ++ er })
        let s := { s with serial := s.serial + 1 }
        let s := s.later h (s.cyc + d + 6) true true
          (.matrix u id c fa fb p kb (zero == 1) sparse pb.toNat (meta_.getD 0) scales [first])
        let s := (List.range kb).foldl (fun s b =>
          if b = 0 then s else s.later h (s.cyc + b * cb) true true (.gather u id b ((pa.toNat + b) % 8) (slots b))) s
        .ok (s.setMe { s.me with flagAt := max s.me.flagAt (s.cyc + d + 6) })))) s

/-- `MMA` (10 R198, R199). -/
def execMma (h : Hdr) (c : BitVec 2) (pa pb : BitVec 3) (fsrc : BitVec 1) (lvl : BitVec 2) (planes fa fb : BitVec 4)
    (zero : BitVec 1) (kblk : BitVec 3) (s : State) : Res :=
  matrixOp h c pa pb fsrc lvl planes fa fb zero kblk none s

/-- `MMAS` (10 R200). -/
def execMmas (h : Hdr) (c : BitVec 2) (pa pb : BitVec 3) (fsrc : BitVec 1) (lvl : BitVec 2) (planes : BitVec 4) (pm : BitVec 3)
    (fa fb : BitVec 4) (zero : BitVec 1) (kblk : BitVec 3) (s : State) : Res :=
  matrixOp h c pa pb fsrc lvl planes fa fb zero kblk (some pm) s

/-- `MCLR` (10 R201). -/
def execMclr (h : Hdr) (c : BitVec 2) (s : State) : Res :=
  issue h 1 {} (fun s => s.onEngine 1 (fun s => .ok (s.later h (s.cyc + 7) true true (.clearAcc s.cur.unit c)))) s

/-! ### Accumulator windows (10 R202) -/

/-- The accumulator positions of the active lanes (10 R202). -/
def windowOf (shp : BitVec 8) (row0 : BitVec 7) (col0 : BitVec 8) (tr : BitVec 1) : List (Nat × Nat) :=
  (List.range (lanesOf shp)).map (fun j =>
    let r := j / shpCols shp
    let k := j % shpCols shp
    if tr = 0 then (row0.toNat + r, col0.toNat + k) else (row0.toNat + k, col0.toNat + r))

/-- The index of an accumulator position, where it has one. -/
def cellIndex (p : Nat × Nat) : Option Nat := if p.1 > 127 || p.2 > 191 then none else some (192 * p.1 + p.2)

/-- An accumulator element as `ACCMV` reads it: zero, with `MXERR`, where its word has an uncorrectable error (10 R196). -/
def Core.accCell (k : Core) (c : BitVec 2) (i : Nat) : Word × Flags :=
  if k.bad.any (fun e => e.1 == 3 && e.2 / 2 == (c.toNat * 24576 + i) / 2) then (0, fMXERR)
  else ((k.accs.get c.toFin).cells.getD i 0, 0)

/-- The code of an accumulator's kind (02 Table 2-5, 10 R195). -/
def kindCode (k : AccKind) : BitVec 4 := match k with | .fp32 => 0 | .int32 => 6

/-- `ACCMV` (10 R202). -/
def execAccmv (h : Hdr) (vt : TileCode) (c : BitVec 2) (row0 : BitVec 7) (pg : PReg) (col0 : BitVec 8) (fmt : BitVec 4)
    (sat tr : BitVec 1) (s : State) : Res :=
  guarded h 2 pg { reads := [.acc s.cur.unit c], writes := s.tileDest vt } (fun s =>
    let kind := kindCode (s.here.accs.get c.toFin).kind
    let rs := (windowOf s.here.shp row0 col0 tr).map (fun p =>
      let x := match cellIndex p with | some i => s.here.accCell c i | none => (0, 0)
      if fmt = kind then x
      else
        let r := convertV x.1.toNat kind fmt (sat == 1)
        (BitVec.ofNat 32 r.1, x.2 ||| r.2))
    .ok (s.result h vt 4 none true rs)) s

/-- `ACCIN` (10 R202). -/
def execAccin (h : Hdr) (vt : TileCode) (c : BitVec 2) (row0 : BitVec 7) (pg : PReg) (col0 : BitVec 8) (fmt : BitVec 4)
    (_sat tr : BitVec 1) (s : State) : Res :=
  guarded h 2 pg
    { reads := s.tileDest vt, lanes := lanesOf s.here.shp }
    (fun s => s.onEngine 1 (fun s =>
      let ps := windowOf s.here.shp row0 col0 tr
      let cells := (ps.zip (List.range ps.length)).filterMap
        (fun p => (cellIndex p.1).map (fun i => (i, laneAt (s.tile vt) p.2)))
      .ok (s.later h (s.cyc + 7) true true
        (.setAcc s.cur.unit c cells (some (if fmt = 6 then .int32 else .fp32)))))) s

/-! ### Format table and scale queue (10 R203, R204) -/

/-- `FTSET` (10 R203). -/
def execFtset (h : Hdr) (ft : BitVec 4) (xa : XReg) (s : State) : Res :=
  issue h 1 { reads := [s.xDest xa] }
    (fun s => .ok (s.later h (s.cyc + 1) true true (.setFt s.cur.unit ft ((s.xr xa).setWidth 12)))) s

/-- `FTGET` (10 R203). -/
def execFtget (h : Hdr) (xd : XReg) (ft : BitVec 4) (s : State) : Res :=
  issue h 1 { writes := [s.xDest xd] } (fun s => .ok (s.laterX h xd 1 (zx64 (s.here.ft.get ft.toFin)))) s

/-- `SQCNT` (10 R204). -/
def execSqcnt (h : Hdr) (xd : XReg) (s : State) : Res :=
  issue h 1 { writes := [s.xDest xd] }
    (fun s => .ok (s.laterX h xd 1 (BitVec.ofNat 64 (s.here.present + 256 * s.here.outstanding)))) s

/-- `SQDROP` (10 R204). -/
def execSqdrop (h : Hdr) (xa : XReg) (s : State) : Res :=
  issue h 1 { reads := [s.xDest xa] } (fun s => s.scaleCase (s.xr xa).toNat (fun s =>
    .ok (s.modHere (fun c => { c with sq := c.sq.drop (s.xr xa).toNat })))) s

end Sys2Proof.Machine
end

