-- ==== Sys2Proof/Machine/Special.lean ====
section
/-! DEFINITION. Square root, reciprocals, division, powers and logarithms, each rounded once (09 R174, R175). -/

namespace Sys2Proof.Machine

/-- The integer square root, from bit `k` down: the greatest r with r² ≤ n, given that `r` holds its higher bits. -/
def isqrtFrom : Nat → Nat → Nat → Nat
  | 0, n, r => if (r + 1) * (r + 1) ≤ n then r + 1 else r
  | k + 1, n, r => isqrtFrom k n (if (r + 2 ^ (k + 1)) * (r + 2 ^ (k + 1)) ≤ n then r + 2 ^ (k + 1) else r)

/-- The integer square root. -/
def isqrt (n : Nat) : Nat := isqrtFrom (Nat.log2 n / 2 + 1) n 0

/-- A magnitude known to lie at m × 2^e, or strictly between that and (m + 1) × 2^e: half a unit more stands for the part that
is not known. It rounds as the exact value does as long as m holds two bits more than the target. -/
def withSticky (neg : Bool) (m : Nat) (e : Int) (exact : Bool) : FVal :=
  if exact then .fin neg m e else .fin neg (2 * m + 1) (e - 1)

/-- √(m × 2^e). -/
def sqrtV (m : Nat) (e : Int) : FVal :=
  let odd := (e % 2).toNat
  let n := m * 2 ^ (odd + 64)
  let r := isqrt n
  withSticky false r ((e - odd - 64) / 2) (r * r == n)

/-- 1 / √(m × 2^e), for m > 0. -/
def rsqrtV (m : Nat) (e : Int) : FVal :=
  let odd := (e % 2).toNat
  let m' := m * 2 ^ odd
  let r := isqrt (2 ^ 160 / m')
  withSticky false r (-(e - odd) / 2 - 80) (r * r * m' == 2 ^ 160)

/-- The quotient of two magnitudes, the divisor not zero. -/
def divV (neg : Bool) (m : Nat) (e : Int) (n : Nat) (g : Int) : FVal :=
  let t := m * 2 ^ 80
  withSticky neg (t / n) (e - g - 80) (t % n == 0)

/-- How many fraction bits `EXP2` and `LOG2` carry (log 12). -/
def fracBits : Nat := 160

/-- The product of 2^(2^-i) over the set bits i of a fraction, from bit `i` on: `f` holds the rest of the fraction's bits,
`root` is 2^(2^-i), both with `fracBits` bits. -/
def exp2Frac : Nat → Nat → Nat → Nat → Nat
  | 0, _, _, acc => acc
  | fuel + 1, f, root, acc =>
    let root' := isqrt (root * 2 ^ fracBits)
    let f' := 2 * f
    if f' ≥ 2 ^ fracBits then exp2Frac fuel (f' - 2 ^ fracBits) root' (acc * root' / 2 ^ fracBits)
    else exp2Frac fuel f' root' acc

/-- 2^x for finite x ≠ 0 (09 R174). -/
def exp2V (neg : Bool) (m : Nat) (e : Int) : FVal :=
  let big := (Nat.log2 m : Int) + e ≥ 10
  if big then .fin false 1 (if neg then -1000 else 1000)
  else
    -- x × 2^fracBits, exact: no FP32 number has a fraction bit below 2^-149
    let t := signedAt neg m e (-fracBits)
    let n := t / 2 ^ fracBits
    let f := (t % 2 ^ fracBits).toNat
    if f = 0 then .fin false 1 n
    else withSticky false (exp2Frac fracBits f (2 * 2 ^ fracBits) (2 ^ fracBits)) (n - fracBits) false

/-- The bits of log₂ y for 1 ≤ y < 2, `y` with 400 fraction bits. -/
def log2Bits : Nat → Nat → Nat → Nat
  | 0, _, acc => acc
  | fuel + 1, y, acc =>
    let y' := y * y / 2 ^ 400
    if y' ≥ 2 ^ 401 then log2Bits fuel (y' / 2) (2 * acc + 1) else log2Bits fuel y' (2 * acc)

/-- log₂ (m × 2^e) for m > 0 (09 R174). -/
def log2V (m : Nat) (e : Int) : FVal :=
  let l := Nat.log2 m
  let k : Int := l + e
  if m = 2 ^ l then .fin (decide (k < 0)) k.natAbs 0
  else
    let b := log2Bits fracBits (m * 2 ^ 400 / 2 ^ l) 0
    -- the logarithm lies strictly between k + b and k + b + 1, in units of 2^-fracBits
    let t : Int := k * 2 ^ fracBits + b
    if t ≥ 0 then withSticky false t.toNat (-fracBits) false
    else withSticky true (-t - 1).toNat (-fracBits) false

/-- `EXP2` of a lane (09 Table 9-4). -/
def exp2Lane (w : Word) : Word × Flags :=
  match dec32 w with
  | .nan => (0x7FC00000, 0)
  | .inf neg => (if neg then 0 else 0x7F800000, 0)
  | .fin neg m e => if m = 0 then (0x3F800000, 0) else round32 (exp2V neg m e)

/-- `LOG2` of a lane (09 Table 9-4). -/
def log2Lane (w : Word) : Word × Flags :=
  match dec32 w with
  | .nan => (0x7FC00000, 0)
  | .inf neg => if neg then (0x7FC00000, fNV) else (0x7F800000, 0)
  | .fin neg m e =>
    if m = 0 then (0xFF800000, fDZ) else if neg then (0x7FC00000, fNV) else round32 (log2V m e)

/-- `RCP` of a lane (09 Table 9-4). -/
def rcpLane (w : Word) : Word × Flags :=
  match dec32 w with
  | .nan => (0x7FC00000, 0)
  | .inf neg => (if neg then 0x80000000 else 0, 0)
  | .fin neg m e =>
    if m = 0 then (if neg then 0xFF800000 else 0x7F800000, fDZ) else round32 (divV neg 1 0 m e)

/-- `RSQ` of a lane (09 Table 9-4). -/
def rsqLane (w : Word) : Word × Flags :=
  match dec32 w with
  | .nan => (0x7FC00000, 0)
  | .inf neg => if neg then (0x7FC00000, fNV) else (0, 0)
  | .fin neg m e =>
    if m = 0 then (if neg then 0xFF800000 else 0x7F800000, fDZ)
    else if neg then (0x7FC00000, fNV) else round32 (rsqrtV m e)

/-- `SQRT` of a lane (09 Table 9-4). -/
def sqrtLane (w : Word) : Word × Flags :=
  match dec32 w with
  | .nan => (0x7FC00000, 0)
  | .inf neg => if neg then (0x7FC00000, fNV) else (0x7F800000, 0)
  | .fin neg m e =>
    if m = 0 then (w, 0) else if neg then (0x7FC00000, fNV) else round32 (sqrtV m e)

/-- `DIV` of two lanes (09 R175). -/
def divLane (a b : Word) : Word × Flags :=
  match dec32 a, dec32 b with
  | .nan, _ => (0x7FC00000, 0)
  | _, .nan => (0x7FC00000, 0)
  | .inf _, .inf _ => (0x7FC00000, fNV)
  | .inf x, .fin y _ _ => (if x != y then 0xFF800000 else 0x7F800000, 0)
  | .fin x _ _, .inf y => (if x != y then 0x80000000 else 0, 0)
  | .fin x m e, .fin y n g =>
    if n = 0 then
      if m = 0 then (0x7FC00000, fNV) else (if x != y then 0xFF800000 else 0x7F800000, fDZ)
    else if m = 0 then (if x != y then 0x80000000 else 0, 0)
    else round32 (divV (x != y) m e n g)

end Sys2Proof.Machine
end

