-- ==== Sys2Proof/Machine/Reduce.lean ====
section
/-! DEFINITION. The special functions, the reductions and the lossy forms (09). -/

namespace Sys2Proof.Machine
open Host

/-! ### The special-function unit (09 R170, R174, R175) -/

/-- A form on the special-function unit: it occupies the unit for one cycle for each 32 lanes begun, and lands all its lanes
together (09 R170). -/
def sfuOp (h : Hdr) (vd : TileCode) (srcs : List TileCode) (pg : PReg) (lat : Nat)
    (f : State → Nat → List (Word × Flags)) (s : State) : Res :=
  guarded h 1 pg
    { reads := srcs.flatMap s.tileDest, writes := s.tileDest vd, lanes := lanesOf s.here.shp }
    (fun s =>
      let n := lanesOf s.here.shp
      let k := (n + 31) / 32
      if s.cyc < s.here.sfu then s.busy s.here.sfu
      else .ok ((s.modHere (fun c => { c with sfu := s.cyc + k })).result h vd (lat + k - 1) (some 38) true (f s n))) s

/-- `EXP2` (09 Table 9-4). -/
def execExp2 (h : Hdr) (vd va : TileCode) (pg : PReg) (s : State) : Res :=
  sfuOp h vd [va] pg 8 (fun s n => lanes1 s va exp2Lane n) s
/-- `LOG2` (09 Table 9-4). -/
def execLog2 (h : Hdr) (vd va : TileCode) (pg : PReg) (s : State) : Res :=
  sfuOp h vd [va] pg 8 (fun s n => lanes1 s va log2Lane n) s
/-- `RCP` (09 Table 9-4). -/
def execRcp (h : Hdr) (vd va : TileCode) (pg : PReg) (s : State) : Res :=
  sfuOp h vd [va] pg 10 (fun s n => lanes1 s va rcpLane n) s
/-- `RSQ` (09 Table 9-4). -/
def execRsq (h : Hdr) (vd va : TileCode) (pg : PReg) (s : State) : Res :=
  sfuOp h vd [va] pg 10 (fun s n => lanes1 s va rsqLane n) s
/-- `SQRT` (09 Table 9-4). -/
def execSqrt (h : Hdr) (vd va : TileCode) (pg : PReg) (s : State) : Res :=
  sfuOp h vd [va] pg 14 (fun s n => lanes1 s va sqrtLane n) s
/-- `DIV` (09 R175). -/
def execDiv (h : Hdr) (vd va vb : TileCode) (pg : PReg) (s : State) : Res :=
  sfuOp h vd [va, vb] pg 14 (fun s n => lanes2 s va vb divLane n) s

/-! ### Reductions (09 R176 to R178) -/

/-- The number of inputs of a tree sum over n lanes (09 R177). -/
def treeWidth (n : Nat) : Nat := max 2 (2 ^ (if n ≤ 1 then 1 else Nat.log2 (n - 1) + 1))

/-- `TreeSum` of lanes padded with +0 (09 R177). -/
def paddedSum (xs : List Word) : Word × Flags :=
  treeSum 8 (xs ++ List.replicate (treeWidth xs.length - xs.length) 0)

/-- The n first lanes of a tile. -/
def firstLanes (s : State) (v : TileCode) (n : Nat) : List Word := (List.range n).map (laneAt (s.tile v))

/-- `VRSUM` (09 R177). -/
def execVrsum (h : Hdr) (vd va : TileCode) (pg : PReg) (s : State) : Res :=
  pipeOp h 1 vd [va] [] pg 6 true (fun s n => [paddedSum (firstLanes s va n)]) s

/-- `VRISUM` (09 R177). -/
def execVrisum (h : Hdr) (vd va : TileCode) (pg : PReg) (s : State) : Res :=
  pipeOp h 1 vd [va] [] pg 6 true (fun s n => [clampLane ((firstLanes s va n).foldl (fun t w => t + w.toInt) 0)]) s

/-- The lane that an index-carrying form returns: the lowest among those of extreme rank (09 R178). -/
def extreme (less : Word → Word → Bool) : List (Word × Nat) → Option (Word × Nat)
  | [] => none
  | x :: xs => some (xs.foldl (fun best y => if less best.1 y.1 then y else best) x)

/-- The two lanes that an index-carrying form writes (09 R178). -/
def indexLanes (less : Word → Word → Bool) (ws : List Word) : List (Word × Flags) :=
  match extreme less (ws.zip (List.range ws.length)) with
  | some (w, j) => [quiet w, quiet (BitVec.ofNat 32 j)]
  | none => []

/-- `VRMAX` (09 R178). -/
def execVrmax (h : Hdr) (vd va : TileCode) (nan : BitVec 1) (pg : PReg) (s : State) : Res :=
  pipeOp h 1 vd [va] [] pg 6 false
    (fun s n => indexLanes (fun a b => rankLt (nan == 1) (dec32 a) (dec32 b)) (firstLanes s va n)) s

/-- `VRMIN` (09 R178). -/
def execVrmin (h : Hdr) (vd va : TileCode) (nan : BitVec 1) (pg : PReg) (s : State) : Res :=
  pipeOp h 1 vd [va] [] pg 6 false
    (fun s n => indexLanes (fun a b => rankLt (nan == 1) (dec32 b) (dec32 a)) (firstLanes s va n)) s

/-- `VRIMAX` (09 R178). -/
def execVrimax (h : Hdr) (vd va : TileCode) (pg : PReg) (s : State) : Res :=
  pipeOp h 1 vd [va] [] pg 6 false (fun s n => indexLanes (fun a b => a.slt b) (firstLanes s va n)) s

/-- `VRIMIN` (09 R178). -/
def execVrimin (h : Hdr) (vd va : TileCode) (pg : PReg) (s : State) : Res :=
  pipeOp h 1 vd [va] [] pg 6 false (fun s n => indexLanes (fun a b => b.slt a) (firstLanes s va n)) s

/-- `VRDOT` (09 R177). -/
def execVrdot (h : Hdr) (vd va vb : TileCode) (pg : PReg) (s : State) : Res :=
  pipeOp h 1 vd [va, vb] [] pg 8 true (fun s n =>
    let ps := lanes2 s va vb (fun a b => fmul (dec32 a) (dec32 b)) n
    let t := paddedSum (ps.map (·.1))
    [(t.1, t.2 ||| laneFlags ps)]) s

/-! ### Lossy contributions (09 R179 to R183) -/

/-- One lane of `VRLSUM`: running sum, contribution, validity (09 R180). -/
def lossySum (d a b : Word) : Word × Flags := if b = 0 then quiet d else fadd (dec32 d) (dec32 a)

/-- The lanes of the contribution that a zero validity lane leaves unread (09 R180). -/
def State.unreadLanes (s : State) (vd va vb : TileCode) : List (Nat × Nat) :=
  if va = vd || va = vb then []
  else ((List.range (lanesOf s.here.shp)).filter (fun j => laneAt (s.tile vb) j == 0)).map (fun j => (va.toNat, j))

/-- `VRLSUM` (09 R180). -/
def execVrlsum (h : Hdr) (vd va vb : TileCode) (pg : PReg) (s : State) : Res :=
  pipeOpBut (s.unreadLanes vd va vb) h 1 vd [vd, va, vb] [] pg 3 true
    (fun s n => (List.range n).map (fun j => lossySum (laneAt (s.tile vd) j) (laneAt (s.tile va) j) (laneAt (s.tile vb) j))) s

/-- One lane of `VMCNT`: count tile and validity (09 R181). -/
def countLane (d a : Word) : Word × Flags :=
  let c := d.toNat % 256
  let m := d.toNat / 256 % 256
  if m = 255 then (BitVec.ofNat 32 (d.toNat % 65536), fIOVF)
  else quiet (BitVec.ofNat 32 ((m + 1) * 256 + (if a = 0 then c else (c + 1) % 256)))

/-- `VMCNT` (09 R181); it reads va in every active lane (DEDUCED, log 21). -/
def execVmcnt (h : Hdr) (vd va : TileCode) (pg : PReg) (s : State) : Res :=
  pipeOp h 1 vd [vd, va] [] pg 3 true (fun s n => lanes2 s vd va countLane n) s

/-- One lane of `VRSCL`: sum and count (09 R182). -/
def rescaleLane (a b : Word) : Word × Flags :=
  let c := b.toNat % 256
  let N := b.toNat / 256 % 256
  if c = 0 then (0, fVOID)
  else fmul (dec32 a) (dec32 (if N = 0 then 0 else (round32 (divV false N 0 c 0)).1))

/-- `VRSCL` (09 R182); it reads va in every active lane (DEDUCED, log 21). -/
def execVrscl (h : Hdr) (vd va vb : TileCode) (pg : PReg) (s : State) : Res :=
  pipeOp h 1 vd [va, vb] [] pg 6 true (fun s n => lanes2 s va vb rescaleLane n) s

end Sys2Proof.Machine
end

