-- ==== Sys2Proof/Machine/Land.lean ====
section
/-! DEFINITION. Operations in flight act: the order of reads and writes of one cycle, service-port lines, claims at the target, copies
line by line, and register landings (05 R85, 06 R119, 07 R132 to R141, 10 R198, 11 R209). -/

namespace Sys2Proof.Machine
open Host

/-! ### Which operations act on a cycle, and in which order -/

/-- The operation acts on this cycle: its cycle has come, and an effect held behind a branch has committed; a load reads before it
commits (06 R119). -/
def Eff.due (e : Eff) (c : Nat) : Bool :=
  decide (e.at_ ≤ c) && (match e.op with
    | .load _ _ _ _ _ => true
    | _ => decide (e.commit ≤ c))

/-- The order of port ranks (07 R133). -/
def PortRank.num : PortRank → Nat
  | .copy => 2
  | .service _ => 3
  | .ring => 4
  | .scalar => 5
  | .banked => 6
  | .line => 7

/-- The source unit of a service-port access, in ascending order (07 R133). -/
def PortRank.sub : PortRank → Nat
  | .service u => u.val
  | _ => 0

/-- The place of an operation among those of its cycle: descriptors that open and departures, reads, writes by port, landings on registers with `XSET` over an
own write and flags set over flags cleared, then what reads what has landed (05 R85, 07 R133). -/
def Eff.rank (e : Eff) : Nat :=
  match e.op with
  | .depart _ _ _ _ _ => 0
  | .gone _ _ _ _ => 0
  | .load [] _ (.record _ _) _ _ => 0
  | .load [] _ _ _ _ => 8
  | .load _ _ _ _ _ => 1
  | .send p => if p.read then 11 else 1
  | .head _ => 1
  | .exchange _ _ _ _ => 1
  | .copyRead _ _ _ => 1
  | .copyWrite _ _ _ => 2
  | .store r _ _ => r.num
  | .atomic r _ _ _ _ _ _ _ _ => r.num
  | .deliver _ _ _ _ _ _ _ => 3
  | .exact _ _ _ _ => 3
  | .combine _ _ _ _ _ _ _ _ => 3
  | .perform _ => 3
  | .setX _ _ _ true => 9
  | .setP _ _ _ true => 9
  | .setX _ _ _ false => 8
  | .setP _ _ _ false => 8
  | .setTile _ _ _ => 8
  | .setLast _ _ _ => 8
  | .setShp _ _ => 8
  | .setFt _ _ _ => 8
  | .push _ _ _ => 8
  | .setSlot _ _ _ _ => 8
  | .setScale _ _ _ => 8
  | .setAcc _ _ _ _ => 8
  | .clearAcc _ _ => 8
  | .clearFlags _ _ => 8
  | .setFlags _ _ => 10
  | .gather _ _ _ _ _ => 11
  | .matrix _ _ _ _ _ _ _ _ _ _ _ _ _ => 11
  | .postStep _ _ => 11
  | .takeStep _ => 11
  | .answer _ => 11
  | .ringCheck _ _ => 11
  | .clearTags _ _ => 11
  | .tokensDone _ _ _ => 11
  | .closed _ _ => 11
  | .fault _ => 11
  | .late _ => 11

/-- The order within a rank: departures by the cycle on which they became ready and the arrival port, local sends last; service
accesses and posts by source unit; landings by issue cycle, and for one issue cycle CMP before ST last, so
that the write that stands comes last (12 R240, R266, 07 R133, R141). -/
def Eff.sub (e : Eff) : Nat :=
  match e.op with
  | .store r _ _ => r.sub
  | .atomic r _ _ _ _ _ _ _ _ => r.sub
  | .deliver _ _ _ _ _ _ _ => e.by_.unit.val
  | .exact _ _ _ _ => e.by_.unit.val
  | .combine _ _ _ _ _ _ _ _ => e.by_.unit.val
  | .perform _ => e.by_.unit.val
  | .postStep _ _ => e.by_.unit.val
  | .depart _ _ _ ready src => 13 * ready + src
  | _ => 4 * e.iss + (3 - seqNum e.by_.q)

/-- The operations of a cycle in the order in which they act. -/
def inTurn (l : List Eff) : List Eff := sortBy Eff.rank (sortBy Eff.sub l)

/-! ### Accesses to arrays (07 R132 to R137) -/

/-- The package offsets that an access touches on this cycle; none where it is no access by an instruction. The writes of a shepherd's
descriptors are not instructions' accesses of window 0x01 (log 13). -/
def Eff.touches (e : Eff) : List Nat :=
  match e.op with
  | .load _ _ (.record _ _) _ _ => []
  | .load addrs _ _ _ _ => addrs.take 1024
  | .store _ cells _ => if e.node = 0 then [] else cells.map (·.1)
  | .atomic _ a _ wide _ _ _ _ _ => span a (wideBytes wide)
  | _ => []

/-- A `RROT` arrival has a port of its own. -/
def Eff.isRing (e : Eff) : Bool :=
  match e.op with
  | .store .ring _ _ => true
  | _ => false

/-- The package offsets by which an operation takes service ports: that of an access, of a record, of a send's template and source, and of
the list of an exchange (07 R136, 12 R245; log 13). -/
def Eff.starts (e : Eff) : List Nat :=
  match e.op with
  | .send p => if p.read then [] else (p.tmpl :: p.source.toList).map offOf
  | .exchange _ list _ listed => if listed then [] else [offOf list]
  | .load as _ (.record _ _) _ _ => as.take 1
  | _ => e.touches.take 1

/-- The target core and the source die of an access to another core through window 0x01: its line at the service port (07 R136). A send
whose template and source lie in two cores takes a place in two lines. -/
def Eff.lines (e : Eff) : List (Nat × Nat) :=
  if e.isRing then []
  else (((e.starts.map (fun a => (coreOf a).val)).filter (fun c => c != e.by_.unit.val)).eraseDups).map (fun c => (c, dieOf e.by_.unit))

/-- The array cycle that the tables give an operation, which a wait does not move (07 R136, 12 Table 12-3). -/
def Eff.planned (e : Eff) : Nat :=
  match e.op with
  | .send p => e.iss + (if p.far e.by_.unit then 48 else 20)
  | .exchange _ list _ _ => e.iss + (if dieOf (coreOf (offOf list)) != dieOf e.by_.unit then 48 else 20)
  | _ => e.tbl

/-- The lines in which an access stands on this cycle: it has one place, which its first beat takes, so that the next access of the line acts
one cycle later whatever its number of beats (07 R136). -/
def Eff.joins (e : Eff) : List (Nat × Nat) :=
  match e.op with
  | .load _ got _ _ _ => if got.isEmpty then e.lines else []
  | _ => e.lines

/-- Sorts the accesses of a cycle into those served and those that wait: each line serves one, that which has waited longest, and of one
table cycle that of the lowest unit, of one unit in the order LD, SCL, CMP, ST of issue (07 R136; log 13). A send is one access, which reads
its template and its source together (12 Table 12-3). `taken` holds the lines that have served. -/
def serve : List Eff → List (Nat × Nat) → List Eff × List Eff
  | [], _ => ([], [])
  | e :: l, taken =>
    if e.joins.any taken.contains then let r := serve l taken; (r.1, e :: r.2)
    else let r := serve l (e.joins ++ taken); (e :: r.1, r.2)

/-- The service lines of a cycle. -/
def serveAll (l : List Eff) : List Eff × List Eff :=
  serve (sortBy Eff.planned (sortBy (fun e => e.by_.unit.val) l)) []

/-- Some of the bytes lie in a line claimed by a copy in flight (07 R137, R139). -/
def State.claimedAny (s : State) (as : List Nat) : Bool :=
  s.cores.toList.any (fun c => c.copies.any (fun k =>
    decide (k.iss < s.cyc) && k.claims.any (fun r => as.any (fun a => r.1 ≤ a && a < r.2))))

/-- What the claim check of an access looks at: all of it on its array cycle, and nothing at the later beats of a load (07 R137). -/
def Eff.whole (e : Eff) : List Nat :=
  match e.op with
  | .load _ _ (.record _ _) _ _ => []
  | .load as got _ _ _ => if got.isEmpty then as else []
  | _ => e.touches

/-- The claim check of an access on its array cycle: at another core, at the receiver of a `RROT`, and for the reads of a `WAITA`
(07 R137, R149, 11 R237). -/
def State.claimStops (s : State) (e : Eff) : Bool :=
  (!e.lines.isEmpty || e.isRing || (match e.op with | .load _ _ (.wait _) _ _ => true | _ => false)) && s.claimedAny e.whole

/-- An access of an instruction must wait for one that comes before it, its own class first (07 R135, 11 R215 to R221). -/
def State.heldBack (s : State) (e : Eff) : Bool :=
  match e.oc with
  | none => false
  | some oc =>
    let rel := isAcq e.ord && (match e.op with | .load _ _ _ _ _ => false | _ => true)
    s.orderHeld ⟨e.by_, e.iss, oc, rel⟩

/-- The cores whose service ports an operation takes on its array cycle: by an access of another core through window 0x01, or by the
arrival of a `RROT` (07 R136). -/
def Eff.takesPorts (e : Eff) : List Nat :=
  if e.isRing then (e.touches.take 1).map (fun a => (coreOf a).val) else e.lines.map (·.1)

/-- The line of a copy that an operation reads or writes. -/
def Eff.copyLine (e : Eff) : Option Dword :=
  match e.op with
  | .copyRead _ as _ => as.head?
  | .copyWrite _ cells _ => cells.head?.map (·.1)
  | _ => none

/-- A line of a copy gives way on this cycle: window-0x01 and `RROT` traffic takes the service port of its core (07 R136). -/
def Eff.givesWay (ports : List Nat) (e : Eff) : Bool :=
  match e.copyLine.bind (spadAt e.by_.unit) with
  | some off => ports.contains (coreOf off).val
  | none => false

/-- Requests to windows 0x10 and 0x20 that a unit has outstanding (11 R211). -/
def State.outstanding (s : State) (u : UnitId) : Nat := (s.core u).reqs.length + s.sentLines u

/-- A line of a copy must wait: device memory re-trains (17 R367), or its request finds 768 outstanding (11 R211). -/
def State.lineWaits (s : State) (u : UnitId) (a : Dword) (sent : Bool) : Bool :=
  s.awaits a || ((spadAt u a).isNone && !sent && decide (768 ≤ s.outstanding u))

/-- The copy that an operation serves waits for an access that comes before it, or its request, which stays outstanding, for device
memory (11 R211, R215 to R218, 17 R367). -/
def State.copyWaits (s : State) (e : Eff) : Bool :=
  let held (serial : Nat) : Bool :=
    match (s.core e.by_.unit).copies.find? (fun k => k.serial == serial) with
    | some k => s.copyHeld e.by_.unit k
    | none => false
  match e.op with
  | .copyRead serial as sent => held serial || (sent && s.lineWaits e.by_.unit (as.headD 0) true)
  | .copyWrite serial cells sent => held serial || (sent && s.lineWaits e.by_.unit ((cells.map (·.1)).headD 0) true)
  | _ => false

/-- An access that a claim or the service port moves: issued in aligned mode it has no effect and raises TIMING, a load when its data
would have landed; issued in free mode it acts one cycle later (07 R136, R137). -/
def State.postpone (s : State) (e : Eff) : State :=
  let fault (t : Nat) : State :=
    { s with effs := s.effs ++ [{ e with at_ := t, oc := none, dst := e.dest, op := .late { code := .timing } }] }
  if e.timed && e.copyLine.isNone then
    match e.op with
    | .load _ _ _ land _ => fault land
    | .atomic _ _ _ _ _ _ _ land _ => fault land
    | _ => s.raiseEff e { code := .timing }
  else
    match e.op with
    | .load as got dest land t =>
      { s with effs := s.effs ++ [{ e with at_ := s.cyc + 1, commit := land + 1, op := .load as got dest (land + 1) t }] }
    | .atomic r a fn w b c xd land t =>
      { s with effs := s.effs ++ [{ e with at_ := s.cyc + 1, op := .atomic r a fn w b c xd (land + 1) t }] }
    | .send p => { s with effs := s.effs ++ [{ e with at_ := s.cyc + 1, op := .send { p with first := p.first + 1 } }] }
    | _ => { s with effs := s.effs ++ [{ e with at_ := s.cyc + 1 }] }

/-- The effective address of an access for its fault record; of a banked one that of the element that holds byte `k` of what it touches, in
the window of its base (15 Table 15-3). -/
def Eff.faultAt (e : Eff) (as : List Nat) (k : Nat) : Nat :=
  if e.esz = 0 then e.ea.toNat
  else
    let off := as.getD (k / e.esz * e.esz) 0
    if winOf e.ea = 0 then off % spadSize else 2 ^ 56 + off

/-- The first byte of those that an instruction reads whose scratchpad word has an uncorrectable error (15 R326). -/
def State.badBytes (s : State) (as : List Nat) : Option Nat :=
  (as.zipIdx.find? (fun a => s.badSpad.any (fun x => x ≤ a.1 && a.1 < x + 8))).map (·.2)

/-- A load reads on its array cycle, at most 1,024 bytes a cycle; read whole, it lands later, goes to a neighbour, or is looked at by
its wait at once (07 R132, R148, 11 R237). -/
def State.arrayRead (s : State) (e : Eff) (as : List Nat) (got : List Byte) (dest : LoadTo) (land tbl : Nat) : State :=
  let now := as.take 1024
  match s.badBytes now with
  | some k => s.raiseEff e { code := .uncorrectable, addr := e.faultAt as k }
  | none =>
    let got := got ++ now.map s.spadByte
    let rest := as.drop 1024
    let put (at_ : Nat) (oc : Option (BitVec 4)) (op : EffOp) : State := { s with effs := s.effs ++ [{ e with at_ := at_, oc := oc, op := op }] }
    if !rest.isEmpty then put (s.cyc + 1) e.oc (.load rest got dest land tbl)
    else match dest with
      | .ring target => { s with effs := s.effs ++ [{ e with at_ := land, commit := land, oc := none, op := .store .ring (cellsAt target got) land }] }
      | .wait t0 => if s.readHolds e.by_ t0 got then put land none (.load [] got dest land tbl) else s.readFailed e.by_ t0
      | _ => put land none (.load [] got dest land tbl)

/-- A tile register takes lanes from lane 0 on; errors of the lanes written are gone (08 R151, 15 R326). Where two land on one cycle, lanes
that the later-issued write has not are the earlier one's (DEDUCED, log 14). -/
def State.landTile (s : State) (u : UnitId) (code : Nat) (lanes : Tile) : State :=
  s.modCore u (fun c =>
    { c.setTile code (overlay lanes (c.tile code)) with
      bad := c.bad.filter (fun b => !(b.1 == 4 && b.2 / 256 == code && b.2 % 256 < lanes.length)) })

/-- A slot takes its new content whole (07 R144). -/
def Core.landSlot (c : Core) (plane : Bool) (n : Nat) (data : List Byte) : Core :=
  if plane then
    { c with
      planes := c.planes.set (n % 8) data (Nat.mod_lt _ (by decide))
      bad := c.bad.filter (fun b => !(b.1 == 0 && b.2 / 12288 == n)) }
  else
    { c with
      rows := c.rows.set (n % 8) data (Nat.mod_lt _ (by decide))
      bad := c.bad.filter (fun b => !(b.1 == 1 && b.2 / 4096 == n)) }

/-- The value of a scalar load (06 R126). -/
def loadValue (bs : List Byte) (sx : Bool) : Dword :=
  let v := leNat bs
  if sx && 2 ^ (8 * bs.length - 1) ≤ v then BitVec.ofInt 64 ((v : Int) - 2 ^ (8 * bs.length)) else BitVec.ofNat 64 v

/-- A load that has read its bytes lands (06 R126, 07 R141 to R147, 11 R237, 12 R249). -/
def State.loadLands (s : State) (e : Eff) (got : List Byte) (dest : LoadTo) : State :=
  let u := e.by_.unit
  match dest with
  | .x r sx => s.modSeq e.by_ (fun q => q.setX r (loadValue got sx))
  | .tile code => s.landTile u code (bytesWords got)
  | .lanes code => s.landTile u code (bytesWords got)
  | .plane n _ => s.modCore u (fun c => c.landSlot true n (got ++ List.replicate (12288 - got.length) 0))
  | .row n => s.modCore u (fun c => c.landSlot false n got)
  | .scale id => s.modCore u (fun c => { c with sq := c.sq.map (fun x => if x.id == id then { x with data := some got } else x) })
  | .wait t0 => s.readMet e.by_ t0
  | .ring _ => s
  | .record rx serial => s.recordLands e rx serial got

/-- An atomic on its array cycle: it reads, modifies and writes at once; the old value lands later (11 R235, R236). -/
def State.atomicLands (s : State) (e : Eff) (a : Nat) (fn : BitVec 3) (wide : Bool) (b c : Dword) (xd : Option XReg) (land : Nat) : State :=
  match s.badBytes (span a (wideBytes wide)) with
  | some _ => s.raiseEff e { code := .uncorrectable, addr := e.ea.toNat }
  | none =>
    let old := s.spadBytes a (wideBytes wide)
    let s := match atomicBytes fn wide old b c with
      | some bs => s.writeSpad (cellsAt a bs)
      | none => s
    match xd with
    | none => s
    | some r => { s with effs := s.effs ++ [{ e with at_ := land, commit := land, sq := false, oc := none, op := .setX e.by_ r (BitVec.ofNat 64 (leNat old)) false }] }

/-! ### Copies (11 R209, R210) -/

/-- A fault of a copy: it stops the node, and names the copy engine of the die that served it, which is not fixed (11 R205, R210, 15
Table 15-2 rank 4; that it is the engine's id and not the core's is log 13). -/
def State.copyFails (s : State) (u : UnitId) (n : Node) (serial : Nat) (c : Code) (a : Dword) (info : Nat) : State :=
  s.raiseNode n.nd (0x30 + 16 * dieOf u + Config.copyEngine serial % 16) { code := c, addr := (s.faultAddr n a c).toNat, info := info }

/-- The operation again on the next cycle. -/
def State.again (s : State) (e : Eff) : State := { s with effs := s.effs ++ [{ e with at_ := s.cyc + 1 }] }

/-- The request of a line of a copy is dispatched: it acts at a time that is not fixed (11 R211, log 6). -/
def State.sendLine (s : State) (e : Eff) (op : EffOp) : State :=
  ({ s with effs := s.effs ++ [{ e with at_ := s.cyc + 1 + Config.delay s.free, op := op }] }).nextFree

/-- The bytes that a copy finds at one address. -/
def State.copyByte (s : State) (u : UnitId) (n : Node) (a : Dword) : Found :=
  match spadAt u a with
  | some off => if s.spadBad off 1 then .bad .uncorrectable 0 else .bytes [s.spadByte off]
  | none => s.readNode n a 1 s.free

/-- The bytes of a source line that a copy reads at one instant, or the first fault among them. -/
def State.copyBytes (s : State) (u : UnitId) (n : Node) : List Dword → Found
  | [] => .bytes []
  | a :: as =>
    match s.copyByte u n a, State.copyBytes s u n as with
    | .bad c i, _ => .bad c i
    | _, .bad c i => .bad c i
    | .bytes x, .bytes y => .bytes (x ++ y)

/-- A source line of a copy is read (11 R209). -/
def State.copyReads (s : State) (e : Eff) (serial : Nat) (as : List Dword) (sent : Bool) : State :=
  let u := e.by_.unit
  match (s.core u).copies.find? (fun k => k.serial == serial), s.node? e.node, as with
  | some _, some n, a :: _ =>
    if s.lineWaits u a sent then s.again e
    else if (spadAt u a).isNone && !sent then s.sendLine e (.copyRead serial as true)
    else match s.copyBytes u n as with
      | .bad c i => s.copyFails u n serial c a i
      | .bytes bs =>
        let got := (as.map (·.toNat)).zip bs
        s.nextFree.modCore u (fun c => { c with copies := c.copies.map (fun k =>
          if k.serial == serial then { k with buf := k.buf ++ got, unread := k.unread - 1 } else k) })
  | _, _, _ => s

/-- A source byte that a copy has read. -/
def Copy.byteAt (k : Copy) (a : Nat) : Option Byte := (k.buf.find? (fun b => b.1 == a)).map (·.2)

/-- The image of a `CPT` that an address lies in, and its offset there (11 R228). -/
def Copy.imageOf (k : Copy) (a : Dword) : Nat × Nat :=
  match (k.rows.zipIdx).find? (fun r => (a - r.1.dst).toNat < r.1.len) with
  | some r => (r.2, (a - r.1.dst).toNat)
  | none => (0, 0)

/-- The byte that a copy writes at a destination address, once its source is read. -/
def Copy.value (k : Copy) (dst : Dword) (src : Option Dword) (b : Byte) : Option Byte :=
  match k.kind with
  | .fill _ => some b
  | .move => src.bind (fun a => k.byteAt a.toNat)
  | .planes fmt n kk base stride =>
    let p := k.imageOf dst
    some (imageByte fmt n kk base stride (fun a => (k.byteAt a).getD 0) p.1 p.2)

/-- A destination line has been written; with the last one the copy completes on the next cycle (11 R206). -/
def State.lineWritten (s : State) (e : Eff) (serial left : Nat) : State :=
  let s := s.modCore e.by_.unit (fun c => { c with copies := c.copies.map (fun k => if k.serial == serial then { k with unwritten := left } else k) })
  if left ≠ 0 then s
  else { s with agenda := s.agenda ++
    [{ due := .cyc (s.cyc + 1), ev := .copyComplete e.by_.unit serial, node := some e.node, iss := e.iss }] }

/-- Bytes to be written, as ranges of consecutive addresses. -/
def rangesOf : List (Dword × Byte) → List (Dword × List Byte)
  | [] => []
  | (a, b) :: t =>
    match rangesOf t with
    | [] => [(a, [b])]
    | (c, bs) :: r => if c = a + 1 then (a, b :: bs) :: r else (a, [b]) :: (c, bs) :: r

/-- Ranges of a line written for a node at one instant, or the first fault. -/
def State.writeRanges (s : State) (n : Node) (id : Nat) : List (Dword × List Byte) → State × Option Code
  | [] => (s, none)
  | r :: rs =>
    match s.writeNode n r.1 r.2 id with
    | (s, some c) => (s, some c)
    | (s, none) => State.writeRanges s ((s.node? n.nd).getD n) id rs

/-- A destination line of a copy is written at one instant; undefined bytes are free values (11 R209, log 7). -/
def State.copyWrites (s : State) (e : Eff) (serial : Nat) (cells : List (Dword × Option Dword × Byte × Nat)) (sent : Bool) : State :=
  let u := e.by_.unit
  match (s.core u).copies.find? (fun k => k.serial == serial), s.node? e.node, cells with
  | some k, some n, (a, _, _, _) :: _ =>
    let vals := cells.map (fun c => (k.value c.1 c.2.1 c.2.2.1).map (fun b => if c.2.2.2 = 0 then b else Config.freeByteAt c.2.2.2 c.1.toNat))
    let planes := match k.kind with | .planes _ _ _ _ _ => true | _ => false
    if s.lineWaits u a sent || (planes && k.unread ≠ 0) || vals.any (·.isNone) then s.again e
    else if (spadAt u a).isNone && !sent then s.sendLine e (.copyWrite serial cells true)
    else
      let bs := (cells.map (·.1)).zip (vals.map (·.getD 0))
      match spadAt u a with
      | some _ => (s.writeSpad (bs.filterMap (fun c => (spadAt u c.1).map (fun o => (o, c.2))))).lineWritten e serial (k.unwritten - 1)
      | none =>
        match s.writeRanges n s.free (rangesOf (sortBy (fun c => c.1.toNat) bs)) with
        | (s, some c) => s.copyFails u n serial c a 0
        | (s, none) => s.nextFree.lineWritten e serial (k.unwritten - 1)
  | _, _, _ => s

/-! ### The matrix engine (10 R189, R196, R198) -/

/-- A later K-block of an instruction is read from the slots (10 R189). -/
def State.gatherBlock (s : State) (u : UnitId) (id b pa : Nat) (rows : List Nat) : State :=
  { s with effs := s.effs.map (fun e =>
      match e.op with
      | .matrix v k c fa fb p kb zero sparse pb pm scales blocks =>
        if v == u && k == id then
          let off := b * blockBytes fb sparse % 4096
          let blk := (s.core u).readBlock pa rows off (if sparse then some pm else none)
          { e with op := .matrix v k c fa fb p kb zero sparse pb pm scales (blocks ++ [blk]) }
        else e
      | _ => e) }

/-- Accumulator cells whose word has an uncorrectable error. -/
def Core.badCells (k : Core) (c : Nat) : List Nat := (k.bad.filter (fun e => e.1 == 3 && e.2 / 24576 == c)).map (fun e => e.2 % 24576)

/-- The elements that an accumulating instruction starts from: zero bits where its word is uncorrectable, or all of them with the zero
bit (10 R196, R198). -/
def Core.oldCells (k : Core) (c : BitVec 2) (zero : Bool) : List Word :=
  if zero then List.replicate 24576 0
  else
    let bad := k.badCells c.toNat
    let cells := (k.accs.get c.toFin).cells
    if bad.isEmpty then cells else cells.zipIdx.map (fun x => if bad.any (fun b => b / 2 == x.2 / 2) then 0 else x.1)

/-- An `MMA` or `MMAS` writes its result, its flags and its log (10 R195, R196, R198, log 15). -/
def State.matrixLands (s : State) (e : Eff) (u : UnitId) (c : BitVec 2) (fa fb : BitVec 4) (p : Nat) (zero sparse : Bool)
    (scales : List (List Byte × List Nat)) (blocks : List KBlock) : State :=
  let k := s.core u
  let sh : Shape := { fa := fa, fb := fb, p := p, sparse := sparse }
  let ds := blocks.zipIdx.map (fun b => decodeBlock sh b.2 b.1 (scales.getD b.2 ([], [])))
  let rs := accumulate ds (k.oldCells c zero)
  let first := firstReplaced ds c.toNat u.val
  let accBad := !zero && !(k.badCells c.toNat).isEmpty
  let flags := laneFlags rs ||| (if first.isSome || accBad then fMXERR else 0)
  let k := { k with
    accs := k.accs.set c.toNat ⟨rs.map (·.1), if matrixInt fa then .int32 else .fp32⟩ c.isLt
    bad := k.bad.filter (fun b => !(b.1 == 3 && b.2 / 24576 == c.toNat))
    mxerr := (match k.mxerr with | some m => some m | none => first.map (fun v => (s.cyc, v))) }
  let s := s.setCore u k
  if flags = 0 then s else { s with effs := s.effs ++ [{ e with at_ := s.cyc + 1, commit := s.cyc + 1, op := .setFlags u flags }] }

/-- A window of an accumulator is written, or all of it cleared (10 R201, R202); a word of which one element is written is no longer in error
(DEDUCED, log 21). -/
def Core.landAcc (k : Core) (c : BitVec 2) (cells : List (Nat × Word)) (kind : Option AccKind) : Core :=
  let a := k.accs.get c.toFin
  let arr := cells.foldl (fun (m : List Word) x => m.set x.1 x.2) a.cells
  { k with
    accs := k.accs.set c.toNat ⟨arr, kind.getD a.kind⟩ c.isLt
    bad := k.bad.filter (fun b => !(b.1 == 3 && b.2 / 24576 == c.toNat && cells.any (fun x => x.1 / 2 == b.2 % 24576 / 2))) }

def Core.zeroAcc (k : Core) (c : BitVec 2) : Core :=
  { k with
    accs := k.accs.set c.toNat ⟨List.replicate 24576 0, (k.accs.get c.toFin).kind⟩ c.isLt
    bad := k.bad.filter (fun b => !(b.1 == 3 && b.2 / 24576 == c.toNat)) }

/-! ### The ring (07 R149) -/

/-- Every member of the ring issued `RROT` on the same cycle in the same direction. -/
def ringWhole (now : List Eff) (iss : Nat) (prev : Bool) (ring : List UnitId) : Bool :=
  ring.all (fun u => now.any (fun e => e.by_.unit == u && e.iss == iss && (match e.op with | .ringCheck p _ => p == prev | _ => false)))

/-- The check of a ring on t + 2: where it fails, TIMING, and the write does not take place (07 R149). -/
def State.ringChecked (s : State) (now : List Eff) (e : Eff) (prev : Bool) (ring : List UnitId) : State :=
  if ringWhole now e.iss prev ring then s
  else
    let mine (x : Eff) : Bool := x.by_ == e.by_ && x.iss == e.iss && (match x.op with | .load _ _ (.ring _) _ _ => true | _ => false)
    ({ s with effs := s.effs.filter (fun x => !mine x) }).raiseAt e.by_ e.pc e.node { code := .timing }

/-! ### One cycle's landings -/

/-- One operation acts; `now` are the operations of its cycle. -/
def State.landOne (now : List Eff) (s : State) (e : Eff) : State :=
  match e.op with
  | .setX q r v _ => s.modSeq q (fun x => x.setX r v)
  | .setP q r v _ => s.modSeq q (fun x => x.setP r v)
  | .setTile u code lanes => s.landTile u code lanes
  | .setLast u code lanes => s.landTile u code lanes
  | .setFlags u f => s.modCore u (fun c => { c with flags := c.flags ||| f })
  | .clearFlags u f => s.modCore u (fun c => { c with flags := c.flags &&& ~~~f })
  | .setShp u v => s.modCore u (fun c => { c with shp := v })
  | .setFt u n v => s.modCore u (fun c => { c with ft := c.ft.set n.toNat v n.isLt })
  | .push u q ws => s.modCore u (fun c => { c with streams := c.streams.set q.toNat (c.streams.get q.toFin ++ ws) q.isLt })
  | .setSlot u plane n data => s.modCore u (fun c => c.landSlot plane n data)
  | .setScale u id data => s.modCore u (fun c => { c with sq := c.sq.map (fun x => if x.id == id then { x with data := some data } else x) })
  | .setAcc u c cells kind => s.modCore u (fun k => k.landAcc c cells kind)
  | .clearAcc u c => s.modCore u (fun k => k.zeroAcc c)
  | .gather u id b pa rows => s.gatherBlock u id b pa rows
  | .matrix u _ c fa fb p _ zero sparse _ _ scales blocks => s.matrixLands e u c fa fb p zero sparse scales blocks
  | .load [] got dest _ _ => s.loadLands e got dest
  | .load (a :: as) got dest land tbl => s.arrayRead e (a :: as) got dest land tbl
  | .store _ cells _ => s.writeSpad cells
  | .atomic _ a fn wide b c xd land _ => s.atomicLands e a fn wide b c xd land
  | .copyRead serial as sent => s.copyReads e serial as sent
  | .copyWrite serial cells sent => s.copyWrites e serial cells sent
  | .postStep dest v => s.postLands e dest v
  | .takeStep _ => s
  | .ringCheck prev ring => s.ringChecked now e prev ring
  | .clearTags u m => s.modCore u (fun c => { c with tags := c.tags &&& ~~~(if c.tagsAt = s.cyc then m &&& ~~~c.tagsSet else m) })
  | .send p => if p.read then s.landSend e p else s.readSend e p
  | .deliver port rx serial blk cnt off data => s.blockLands e port rx serial blk cnt off data
  | .exact rx off data done => s.exactLands e rx off data done
  | .combine port key j rx serial blk off op => s.combineLands e port key j rx serial blk off op
  | .depart key port chan ready src => s.tryDepart e key port chan ready src
  | .gone key port chan first => s.packetGone key port chan first
  | .answer a => s.answerLands a
  | .perform id => s.performHeld e id
  | .head hd => s.readHead e hd
  | .exchange hd list count listed => s.readExchange e hd list count listed
  | .tokensDone hd relay n => s.tokensEnd e.by_.unit hd relay n
  | .closed rx serial => s.descClosed e.by_.unit rx serial
  | .fault r => s.raiseAt e.by_ e.pc e.node r
  | .late r => s.raiseEff e r

/-- Sends whose template landed on this cycle are tried on it, after the packets that were ready before (12 R240, Table 12-3). -/
def State.departNow (s : State) : State :=
  let isNow (e : Eff) : Bool := decide (e.at_ ≤ s.cyc) && (match e.op with | .depart _ _ _ _ _ => true | _ => false)
  (inTurn (s.effs.filter isNow)).foldl (State.landOne []) { s with effs := s.effs.filter (fun e => !isNow e) }

/-- Every operation of this cycle acts; accesses that a claim, the service port or an order stops are moved, and lines of copies give way
to other traffic of the service port (07 R135 to R137, 11 R215). -/
def State.landAll (s : State) : State :=
  let now := s.effs.filter (fun e => e.due s.cyc)
  let s0 := { s with effs := s.effs.filter (fun e => !e.due s.cyc) }
  let stopped (e : Eff) : Bool := s.claimStops e || s.heldBack e || s.copyWaits e
  let free := now.filter (fun e => !stopped e)
  let r := serveAll free
  let ports := r.1.flatMap Eff.takesPorts
  let s1 := (now.filter stopped ++ r.2 ++ r.1.filter (Eff.givesWay ports)).foldl State.postpone s0
  ((inTurn (r.1.filter (fun e => !e.givesWay ports))).foldl (State.landOne now) s1).departNow

end Sys2Proof.Machine
end

