-- ==== Sys2Proof/Machine/Cycle.lean ====
section
/-! DEFINITION. One cycle: due events, fetching an instruction, who issues, the close of a cycle with its stops and redirects, the front
end's slots, and the clock (05 R83, 14 R298, 15 R313, R314, 13 R268 to R273). -/

namespace Sys2Proof.Machine
open Host

/-! ### Events that are due -/

/-- The event is due on this cycle (13 R277). -/
def State.isDue (s : State) (t : Todo) : Bool :=
  match t.due with
  | .cyc n => decide (n ≤ s.cyc)
  | .ns n => decide (n ≤ s.drone)

/-- The order of the events of one cycle: announcements, notices, and everything else before `GROUP`, and the timeouts of waits last
(05 R88, 13 R282, 11 R230). -/
def eventRank (i : Instr) : Nat :=
  match i with
  | .groupAnnouncement _ _ _ _ => 0
  | .noticeApply _ => 1
  | .groupFault => 3
  | .waitTimeout _ _ => 4
  | _ => 2

/-- Whether an event acts before the landings of its cycle: the resolution of a branch, whose kill acts before every landing (06 R119),
and the completion of a copy, whose claims an access that acts on that cycle no longer meets (07 R139). -/
def isResolve (i : Instr) : Bool :=
  match i with
  | .branchResolve _ _ => true
  | .copyComplete _ _ => true
  | _ => false

/-- The first event of least rank among those of a list that `p` selects. -/
def firstEvent (p : Todo → Bool) : List Todo → Option Todo
  | [] => none
  | t :: l =>
    match firstEvent p l with
    | none => if p t then some t else none
    | some u => if p t && eventRank t.ev ≤ eventRank u.ev then some t else some u

/-- The next branch that resolves, or copy that completes, on this cycle. -/
def State.nextResolve (s : State) : Option Todo := firstEvent (fun t => s.isDue t && isResolve t.ev) s.agenda

/-- The next event of this cycle. -/
def State.nextEvent (s : State) : Option Todo := firstEvent s.isDue s.agenda

/-- The agenda without one event, which is at hand. -/
def State.takeEvent (s : State) (t : Todo) : State := { s with agenda := s.agenda.erase t, evIss := t.iss }

/-- As `takeEvent`; before the timeouts of waits the handles that have completed are idle (12 R264). -/
def State.beforeEvent (s : State) (t : Todo) : State := if eventRank t.ev = 4 then (s.takeEvent t).endHandles else s.takeEvent t

/-! ### Fetch and issue (02 R16 to R22, R40, R41, 05 R83) -/

/-- The bit of a first word that marks it squashable (02 Table 2-1). -/
def wordSq (w : Word) : Bool := w.getLsbD 28

/-- The address lies in the code ranges pinned for the node's image, and is one of a word (02 R21, 03 R56). -/
def State.inCode (s : State) (n : Node) (sh : Bool) (pc : Dword) : Bool :=
  decide (pc.toNat % 4 = 0) && decide (pc.toNat < 2 ^ 22) &&
  s.images.any (fun i => i.handle == n.image && i.ranges.any (fun r => r.1 == sh && r.2.1 ≤ pc.toNat && pc.toNat + 4 ≤ r.2.1 + r.2.2))

/-- The word at an address; none outside the pinned code. -/
def State.fetchWord (s : State) (n : Node) (sh : Bool) (pc : Dword) : Option Word :=
  if s.inCode n sh pc then some (s.codeWord sh pc.toNat) else none

/-- The instruction at the program counter of a sequencer; none where the fetch or the decoding fails (02 R21, R40). DESIGN CHOICE
(log 37): where the second word of a wide form lies outside the pinned code, the record holds the address of the first. -/
def State.fetch (s : State) (n : Node) (q : SeqId) : Option Instr :=
  let sh := isShep q.unit
  let pc := (s.seq q).pc
  match s.fetchWord n sh pc with
  | none => none
  | some w0 =>
    match decode q.q sh w0 ((s.fetchWord n sh (pc + 4)).getD 0) with
    | none => none
    | some i => if i.len = 2 && (s.fetchWord n sh (pc + 4)).isNone then none else some i

/-- How a sequencer takes its turn (05 R82, 15 R330 to R332, R334): it issues where its node runs, or halted it steps this sequencer until
its instruction has issued; while what a halted node has started completes, it is only looked at for the cycle on which its cut point would
have issued. -/
inductive Turn
  | none_ | issues | looks
  deriving DecidableEq, Repr

def State.turnOf (s : State) (n : Node) (q : SeqId) : Turn :=
  let v := s.seq q
  if !v.entry || v.ended then .none_
  else match n.state with
    | .running => .issues
    | .halted =>
      match n.stepping with
      | some p =>
        if p == q && (match n.saved.find? (fun c => c.1 == q.unit) with | some c => (c.2.seq q.q).stepping v | none => false) then .issues
        else .none_
      | none => if n.saved.isEmpty && v.wait.isNone && v.cutAt.isNone then .looks else .none_
    | _ => .none_

/-- The instruction at the program counter of a sequencer of the node on its core. -/
def State.fetchOf (s : State) (q : SeqId) : Option Instr := ((s.core q.unit).node.bind s.node?).bind (fun n => s.fetch n q)

/-- What a sequencer does at its turn on this cycle. -/
inductive Visit
  /-- nothing: it may not issue, or its cycle has not come -/
  | idle
  /-- its word raises ILLEGAL; held in a branch's shadow where it is squashable (02 R40, R41) -/
  | illegal (nd : Nat)
  /-- its instruction issues -/
  | run (i : Instr)
  /-- its instruction is only tried -/
  | probe (i : Instr)
  deriving DecidableEq

/-- An instruction that decodes is illegal as the state stands, so that its `IDLE` is not consumed: a waiting form or a budget of 0 in
aligned mode, and matrix operands that the format table or the slots do not allow (02 R39, R40, Table 2-2, 10 R190). DEDUCED (log 19): the
`IDLE` of an instruction that serialises SCL with `SQ` = 0 is consumed, because 06 R121 judges it at its issue. -/
def State.illegalNow (s : State) (i : Instr) : Bool :=
  match i with
  | .waitany _ _ _ => s.me.aligned
  | .waitall _ _ _ => s.me.aligned
  | .waittl _ _ _ _ => s.me.aligned
  | .waita _ _ _ _ _ _ _ _ => s.me.aligned
  | .bar _ _ _ => s.me.aligned
  | .pitchw _ _ _ => s.me.aligned
  | .dronew _ _ _ => s.me.aligned
  | .collw _ _ _ => s.me.aligned
  | .ldb _ _ _ _ _ budget _ _ => s.zeroBudget budget
  | .stb _ _ _ _ _ budget _ _ => s.zeroBudget budget
  | .mma _ _ _ _ fsrc lvl planes fa fb _ kblk => s.matrixIllegal fsrc lvl planes fa fb false kblk
  | .mmas _ _ _ _ fsrc lvl planes _ fa fb _ kblk => s.matrixIllegal fsrc lvl planes fa fb true kblk
  | _ => false

/-- The turn of a sequencer: an illegal word acts on the base cycle, an instruction `IDLE` cycles later (02 R40, 05 R83). -/
def State.visit (s : State) (q : SeqId) : Visit :=
  match (s.core q.unit).node.bind s.node? with
  | none => .idle
  | some n =>
    let v := s.seq q
    let t := s.turnOf n q
    if t = .none_ || s.cyc < v.base then .idle
    else match s.fetch n q with
      | some i =>
        if s.cyc < v.base + i.hdr.idle.toNat && !({ s with cur := q }).illegalNow i then .idle
        else if t = .issues then .run i else .probe i
      | none => if t = .issues then .illegal n.nd else .idle

/-- The cut point of a halted node's sequencer would have issued on this cycle, as `t` shows: from then on its cycle is known, less its
`IDLE` (15 R331); one that a branch's shadow holds issues for R83 when it is let go (06 R121). -/
def State.noteCut (s : State) (q : SeqId) (i : Instr) (t : State) : State :=
  if (t.seq q).held then s
  else if (t.seq q).issued ≠ (s.seq q).issued || (t.seq q).wait.isSome || (s.seq q).held || t.causes.length ≠ s.causes.length then
    s.modSeq q (fun v => { v with cutAt := some (s.cyc - i.hdr.idle.toNat) })
  else s

/-- An illegal word on its base cycle: squashable in a branch's shadow it is held, and killed with the branch (02 R41).
DESIGN CHOICE (log 37): of a fetch outside the pinned code, bit 28 of what the code store holds there says whether it is. -/
def State.illegalWord (s : State) (nd : Nat) : State :=
  let sq := s.cur.q == .scl && wordSq (s.codeWord (isShep s.cur.unit) s.me.pc.toNat)
  if sq && (s.unresolved.isSome || s.killing) then s else s.raiseAt s.cur s.me.pc nd { code := .illegal }

/-- Every sequencer, by unit and then LD, SCL, CMP, ST: a copy that LD issues on the cycle of a completion is seen by what the others issue
on it (11 R207; log 1). -/
def allSeqIds : List SeqId := (List.range 40).flatMap (fun u => [SeqName.ld, .scl, .cmp, .st].map (fun q => ⟨unitOf u, q⟩))

/-- The sequencers whose cycle may have come. -/
def State.ready_ (s : State) : List SeqId :=
  allSeqIds.filter (fun q => (s.core q.unit).node.isSome && (s.seq q).entry && !(s.seq q).ended && decide ((s.seq q).base ≤ s.cyc))

/-- The issue phase begins: what it may have to undo is kept. -/
def State.beginIssue (s : State) : State :=
  { s with
    phase := .issue
    turn := s.ready_
    before := some { cores := s.cores, nodes := s.nodes, agenda := s.agenda, effs := s.effs, sent := s.outbox.length } }

/-! ### Stops (15 R313, R314) -/

/-- The node may be stopped. -/
def stoppable (n : Node) : Bool :=
  match n.state with
  | .waiting _ => true
  | .armed => true
  | .running => true
  | .ending => true
  | .voted => true
  | .committing => true
  | .inDoubt => true
  | .halted => true
  | _ => false

/-- A core as it was before the issue phase; a sequencer that issued has its cut point on this cycle (15 R313, R331). -/
def State.undoCore (s : State) (u : UnitId) (old : Core) : State :=
  let now := s.core u
  let cut (q : SeqName) (v : Seq) : Seq :=
    if (now.seq q).issued = v.issued then v
    else { v with cutAt := some (s.cyc - (match (s.setCore u old).fetchOf ⟨u, q⟩ with | some i => i.hdr.idle.toNat | none => 0)) }
  s.setCore u { old with scl := cut .scl old.scl, ld := cut .ld old.ld, cmp := cut .cmp old.cmp, st := cut .st old.st }

/-- What the sequencers of a node issued on this cycle is undone: no instruction that issues on F takes effect (15 R313). -/
def State.undo (s : State) (b : Before) (n : Node) : State :=
  let units := (n.cores ++ n.sheps.map (·.2)).filter (fun u => (b.cores.get u).node == some n.nd)
  let s := units.foldl (fun s u => s.undoCore u (b.cores.get u)) s
  let s := match b.nodes.find? (fun k => k.nd == n.nd) with
    | some old => s.modNode n.nd (fun _ => old)
    | none => s
  let isAnnounce (o : Out) : Bool := match o with | .announce _ _ _ => true | _ => false
  { s with
    agenda := s.agenda.filter (fun t => t.node != some n.nd || b.agenda.contains t)
    effs := s.effs.filter (fun e => e.node != n.nd || b.effs.contains e)
    outbox := if n.family.group then s.outbox.take b.sent ++ (s.outbox.drop b.sent).filter (fun o => !isAnnounce o) else s.outbox }

/-- `BRK` halts with the cut point after it: it has issued (15 R335). -/
def State.afterBrk (s : State) (cs : List Cause) : State :=
  cs.foldl (fun s c =>
    match c.seq with
    | some (q, _) => s.modSeq ⟨unitOf c.unit, q⟩ (fun v => { v.advance 1 0 s.cyc with cutAt := none, issued := v.issued, held := v.held })
    | none => s) s

/-- A `BRK` counts as issued after its halt: the record shows what issued before it (15 Table 15-4). -/
def State.countBrk (s : State) (cs : List Cause) : State :=
  cs.foldl (fun s c =>
    match c.seq with
    | some (q, _) => s.modSeq ⟨unitOf c.unit, q⟩ (fun v => { v with issued := v.counted, held := false })
    | none => s) s

/-- A branch of a halted node that resolves before the context is saved redirects after the resume (15 R331; log 28). -/
def State.heldRedirect (s : State) (n : Node) : State :=
  n.cores.foldl (fun s u =>
    match (s.core u).scl.redirect with
    | none => s
    | some t =>
      let b : Branch := { id := s.serial, at_ := s.cyc, taken := true, target := t, sq := false }
      let s := { s.modSeq ⟨u, .scl⟩ (fun q => { q with redirect := none, branches := q.branches ++ [b] }) with serial := s.serial + 1 }
      s.modNode n.nd (fun k => { k with later := k.later ++ [{ due := .cyc s.cyc, ev := .branchResolve u b.id, node := some n.nd }] })) s

/-- The redirects of halted nodes that do not step are put off. -/
def State.holdRedirects (s : State) : State :=
  (s.nodes.filter (fun n => n.state == .halted && n.stepping.isNone && n.saved.isEmpty)).foldl State.heldRedirect s

/-- The stopping events of one node on this cycle: the highest is taken; a halt or a pre-emption loses to the node's last `END`
(15 R314, Table 15-2). -/
def State.stopOne (s : State) (cs : List Cause) (n : Node) : State :=
  let mine := cs.filter (fun c => c.node == n.nd)
  let ended := n.state == .ending && decide (n.stopAt = s.cyc)
  match firstCause (mine.filter (fun c => !(ended && (c.rank = 6 || c.rank = 7)))) with
  | none => s
  | some c =>
    if !stoppable n then s
    else
      let s := match s.before with | some b => s.undo b n | none => s
      let brks := if c.rank = 6 then mine.filter (fun x => x.rank = 6) else []
      let s := s.afterBrk brks
      match s.node? n.nd with
      | none => s
      | some n => (s.stopNode n c).countBrk brks

/-- Every node with a stopping event stops. -/
def State.stops (s : State) : State :=
  let cs := s.causes
  { s.nodes.foldl (fun t n => t.stopOne cs n) s with causes := [], before := none }

/-- Taken branches redirect the fetch at the end of their resolution cycle; where an instruction that is not squashable waits, once its
wait has ended (06 R118, R119). -/
def State.redirects (s : State) : State :=
  { s with cores := s.cores.map (fun c =>
      match c.scl.redirect with
      | some t =>
        if c.scl.wait.isSome then { c with scl := { c.scl with after := some t, redirect := none } }
        else { c with scl := { c.scl with pc := t, base := s.cyc + 1, redirect := none, held := false } }
      | none => c) }

/-! ### Drovers: slots and decoding (14 R298) -/

/-- The queue has something for a slot: unread words, a packet in hand, or a launch waiting at its head. -/
def State.wantsSlot (s : State) (q : QueueId) : Bool :=
  let u := s.queue q
  u.cfg.isSome && !(u.state == .parked || u.state == .stopped || u.state == .overrun) &&
  (u.unread != 0 || u.captured.isSome || u.started.isSome || (s.headNode q).isSome)

/-- A resident queue with nothing left is switched out. -/
def State.releaseSlots (s : State) : State :=
  (List.finRange 256).foldl (fun s q =>
    if (s.queue q).cfg.isSome && !(s.queue q).out && !s.wantsSlot q then
      s.modQueue q (fun u => { u with out := true, state := (if u.state == .run then .idle else u.state) })
    else s) s

/-- The priority of a queue: that of its creation, or the one that its partition's plug-in gives it (14 R298, 17 R360; log 39). -/
def State.prioOf (s : State) (q : QueueId) (c : QueueCfg) : Nat :=
  (((s.part c.part).policy.order.find? (fun x => x.1 == q)).map (fun x => x.2 % 4)).getD c.prio

/-- The queues of a drover, by priority, 3 first, and number. -/
def State.queuesOf (s : State) (d : Nat) : List QueueId :=
  sortBy (fun q => match (s.queue q).cfg with | some c => 4 - s.prioOf q c | none => 5)
    ((List.finRange 256).filter (fun q => match (s.queue q).cfg with | some c => c.drover == d | none => false))

/-- Free slots of a drover are taken; a tail captured while the queue was switched out is applied (14 R296, R298). -/
def State.takeSlots (s : State) (d : Nat) : State :=
  (s.queuesOf d).foldl (fun s q =>
    let used := ((s.queuesOf d).filter (fun k => !(s.queue k).out)).length
    let u := s.queue q
    if u.out && s.wantsSlot q && used < 32 then
      let s := s.setQueue q { u with out := false, state := .run, captured := none }
      match u.captured with
      | some v => s.applyTail q v
      | none => s
    else s) s

/-- The meaning of a packet, by its type (14 Table 14-5). -/
def packetExec (q : QueueId) (typ : Nat) (s : State) : Res :=
  match typ with
  | 0 => execNopPacket q s
  | 1 => execLaunch q s
  | 2 => execSemwait q s
  | 3 => execSemsig q s
  | 4 => execMark q s
  | 5 => execFencePacket q s
  | 6 => execSnap q s
  | 7 => execRoll q s
  | 8 => execCommitVote q s
  | 9 => execGjoin q s
  | 10 => execGleave q s
  | 11 => execPin q s
  | 12 => execUnpin q s
  | _ => execReservedTypePacket q s

/-- The packet that a resident queue would decode now: the type of the one in hand, or of the header at `HEAD`. -/
def State.headType (s : State) (q : QueueId) : Option Nat :=
  let u := s.queue q
  match u.cfg, u.started with
  | none, _ => none
  | some _, some p => some p.typ
  | some c, none => if u.unread = 0 then none else some (hdrType (s.ringWord c u.head))

/-- A drover decodes one packet: its resident queues in round robin from the last one served (14 R298). -/
def State.decodeOne (s : State) (d : Nat) : State :=
  let last := s.rr.toList.getD d 0
  let order := sortBy (fun (q : QueueId) => if last < q.val then q.val else q.val + 256) ((s.queuesOf d).filter (fun q => !(s.queue q).out))
  match order.find? (fun q => (s.headType q).isSome && (s.queue q).state == .run) with
  | none => s
  | some q =>
    let s := { s with rr := s.rr.set (d % 8) q.val (Nat.mod_lt _ (by decide)) }
    match packetExec q ((s.headType q).getD 0) s with
    | .next t => t
    | _ => s

/-- The front end on this cycle: a packet of each drover on every thirty-second; then the queues that have nothing left give up their slots,
and free slots are taken. -/
def State.drovers (s : State) : State :=
  if !s.ready || !s.queues.toList.any (fun q => q.cfg.isSome) then s
  else
    let s := if s.cyc % 32 = 0 then (List.range 8).foldl State.decodeOne s else s
    (List.range 8).foldl State.takeSlots s.releaseSlots

/-! ### The clock, service words, usage -/

/-- Usage of the granted cores over a time, by partition (14 R307). -/
def State.charge (s : State) (ns : Nat) : State :=
  if ns = 0 then s
  else { s with parts := Vector.ofFn (fun p =>
    let q := s.parts.get p
    { q with usage := q.usage + ns * s.held p }) }

/-- A new 100 ms window begins (14 R307). -/
def State.newWindow (s : State) : State :=
  if s.window + 100000000 ≤ s.drone then
    { s with window := s.window + 100000000, parts := s.parts.map (fun p => { p with usage := 0 }) }
  else s

/-- The lowest limit code that a beacon carries: the group's downward from the bellwether, else that of the package's subtree, to which its
parent does not belong (13 R279). -/
def State.summary (s : State) : Nat :=
  (s.group.limits.filter (fun l => s.group.bell || lookup s.group.tree l.1 != some s.group.parent)).foldl (fun m l => min m l.2) s.limit

/-- The ports to the parent and the children (13 R279). -/
def Group.ports (g : Group) : List Nat :=
  ((if g.bell || g.parent == 0xFF then [] else [g.parent]) ++ g.tree.map (·.2)).eraseDups

/-- Beacons every 50 µs and the stamps of the exchanges every 1 ms of drone time; a joiner and a bellwether that is still alone send their stamps
too (13 R269, R278, R279). -/
def State.serviceWords (s : State) : State :=
  if !s.group.member && s.group.joining.isNone then s
  else
    let s := if s.inGroup && s.served / 50000 < s.drone / 50000 then
        s.emit (.beacon s.group.ports s.group.rank s.limit s.slip s.summary s.group.silent)
      else s
    if s.served / 1000000 < s.drone / 1000000 then s.emit (.stamp s.drone) else s

/-- Catch-up ends on the cycle on which every cycle lost has been made up for (13 R273). -/
def State.endCatchUp (s : State) : State :=
  if s.catchUp && s.n65 ≤ 65 * s.cyc && !s.agenda.any (fun t => t.ev == .catchUpEnd) then s.postIn 0 .catchUpEnd else s

/-- What follows drone time: usage, windows, beacons, stamps and the limit codes that fall due. -/
def State.serve (s : State) : State :=
  let s := ((s.charge (s.drone - s.served)).newWindow.serviceWords).meetForecasts
  { s with served := s.drone }

/-- The clock moves on by one cycle (13 R268, R272, R273). -/
def State.tick (s : State) : State :=
  let s := s.addDrone (cycleUnits s.catchUp)
  let s := { s with cyc := s.cyc + 1, n65 := s.n65 + (if s.catchUp then 64 else 65), phase := .resolve, turn := [] }
  s.serve.recentre.withdrawKept.retrainDeferred.endCatchUp

/-- The close of a cycle. -/
def State.closeCycle (s : State) : State := s.stops.holdRedirects.redirects.drovers.tick

/-! ### Placing an instruction where it issues next (log 17) -/

/-- A node that runs, for an instruction placed from outside. -/
def placedNode (nd : Nat) (sh : Bool) : Node :=
  { nd := nd, id := 0, queue := 0, seq := 0, part := 0, pasid := 0, image := 0
    family := { id := 0, nonidem := false, tolerant := false, group := false, budget := 0, variants := [] }
    variant := noVariant, args := 0, fresh := false, strict := false, coord := 0, tag := 0, mask := 0, record := false, attempt := 0
    cores := if sh then [] else [0], sheps := if sh then [(0, 32)] else [], t0 := 0, rank := 0, size := 1, state := .running, waitFrom := 0
    arrived := [], announced := [], staged := [], pre := [], uncleared := [], lossyZeros := 0, votes := [], stopAt := 0, halt := none
    saved := [], savedSpad := [], savedSeeds := [], later := [], stepping := none }

/-- The image that holds two words at the start of one code store. -/
def placedImage (handle : Nat) (sh : Bool) : Image :=
  { handle := handle, part := 0, ranges := [(sh, 0, 8)], families := [] }

/-- A sequencer about to issue the instruction at address 0, by a node of its own: words and image, node, core, and the turn,
on a cycle that leaves room for the instruction's `IDLE`. -/
def State.placeWords (s : State) (q : SeqName) (sh : Bool) (bytes : List Byte) : State :=
  let u : UnitId := if sh then 32 else 0
  let nd := s.serial
  let who : SeqId := ⟨u, q⟩
  let idle := bitsOf (leNat bytes) 30 29
  let s := { s.setCodeBytes sh 0 bytes with cyc := max s.cyc idle, n65 := s.n65 + 65 * (idle - s.cyc) }
  let s := { s with
    images := placedImage nd sh :: s.images
    nodes := { placedNode nd sh with image := nd } :: s.nodes
    phase := .issue, turn := [who], cur := who, serial := nd + 1 }
  let s := s.modCore u (fun c => { c with node := some nd })
  s.modSeq who (fun v => { v with pc := 0, entry := true, ended := false, base := 0, wait := none, branches := [], redirect := none, resolved := none })

end Sys2Proof.Machine
end

