-- ==== Sys2Proof/Machine/Dispatch.lean ====
section
/-! DEFINITION. One arm for each constructor of Instr. -/

namespace Sys2Proof.Machine
open Host

def exec (i : Instr) (s : State) : Host.Outcome State Fault Refusal :=
  match i with
  | .nop h => Sys2Proof.Machine.execNop h s
  | .wait h n => Sys2Proof.Machine.execWait h n s
  | .j h off => Sys2Proof.Machine.execJ h off s
  | .call h off => Sys2Proof.Machine.execCall h off s
  | .ret h => Sys2Proof.Machine.execRet h s
  | .loop h lvl xa len => Sys2Proof.Machine.execLoop h lvl xa len s
  | .loopi h lvl len count => Sys2Proof.Machine.execLoopi h lvl len count s
  | .align h lvl seg xa budget => Sys2Proof.Machine.execAlign h lvl seg xa budget s
  | .relax h => Sys2Proof.Machine.execRelax h s
  | .bar h lvl xt => Sys2Proof.Machine.execBar h lvl xt s
  | .movi h xd imm => Sys2Proof.Machine.execMovi h xd imm s
  | .movw h xd imm => Sys2Proof.Machine.execMovw h xd imm s
  | .movh h xd imm => Sys2Proof.Machine.execMovh h xd imm s
  | .addi h xd xa imm => Sys2Proof.Machine.execAddi h xd xa imm s
  | .add h xd xa xb pg => Sys2Proof.Machine.execAdd h xd xa xb pg s
  | .sub h xd xa xb pg => Sys2Proof.Machine.execSub h xd xa xb pg s
  | .and_ h xd xa xb pg => Sys2Proof.Machine.execAnd h xd xa xb pg s
  | .or_ h xd xa xb pg => Sys2Proof.Machine.execOr h xd xa xb pg s
  | .xor_ h xd xa xb pg => Sys2Proof.Machine.execXor h xd xa xb pg s
  | .shl h xd xa xb pg => Sys2Proof.Machine.execShl h xd xa xb pg s
  | .shr h xd xa xb pg => Sys2Proof.Machine.execShr h xd xa xb pg s
  | .sar h xd xa xb pg => Sys2Proof.Machine.execSar h xd xa xb pg s
  | .andi h xd xa imm => Sys2Proof.Machine.execAndi h xd xa imm s
  | .ori h xd xa imm => Sys2Proof.Machine.execOri h xd xa imm s
  | .xori h xd xa imm => Sys2Proof.Machine.execXori h xd xa imm s
  | .shli h xd xa imm => Sys2Proof.Machine.execShli h xd xa imm s
  | .shri h xd xa imm => Sys2Proof.Machine.execShri h xd xa imm s
  | .sari h xd xa imm => Sys2Proof.Machine.execSari h xd xa imm s
  | .pcmp h pd xa xb cond => Sys2Proof.Machine.execPcmp h pd xa xb cond s
  | .pcmpi h pd xa cond imm => Sys2Proof.Machine.execPcmpi h pd xa cond imm s
  | .pand h pd pa pb => Sys2Proof.Machine.execPand h pd pa pb s
  | .por h pd pa pb => Sys2Proof.Machine.execPor h pd pa pb s
  | .pxor h pd pa pb => Sys2Proof.Machine.execPxor h pd pa pb s
  | .pandn h pd pa pb => Sys2Proof.Machine.execPandn h pd pa pb s
  | .sel h xd xa xb pg => Sys2Proof.Machine.execSel h xd xa xb pg s
  | .mfs h xd sreg => Sys2Proof.Machine.execMfs h xd sreg s
  | .mts h xa sreg => Sys2Proof.Machine.execMts h xa sreg s
  | .fence h mask scope => Sys2Proof.Machine.execFence h mask scope s
  | .drain h mask scope => Sys2Proof.Machine.execDrain h mask scope s
  | .waitany h xa xt => Sys2Proof.Machine.execWaitany h xa xt s
  | .waitall h xa xt => Sys2Proof.Machine.execWaitall h xa xt s
  | .ffrdy h pd xa => Sys2Proof.Machine.execFfrdy h pd xa s
  | .waittl h ctx xa xt => Sys2Proof.Machine.execWaittl h ctx xa xt s
  | .tlrdy h pd ctx xa => Sys2Proof.Machine.execTlrdy h pd ctx xa s
  | .end_ h => Sys2Proof.Machine.execEnd h s
  | .trap h n => Sys2Proof.Machine.execTrap h n s
  | .brk h n => Sys2Proof.Machine.execBrk h n s
  | .chkP h p neg => Sys2Proof.Machine.execChkP h p neg s
  | .chkF h mask => Sys2Proof.Machine.execChkF h mask s
  | .mul h xd xa xb pg => Sys2Proof.Machine.execMul h xd xa xb pg s
  | .mulhs h xd xa xb pg => Sys2Proof.Machine.execMulhs h xd xa xb pg s
  | .mulhu h xd xa xb pg => Sys2Proof.Machine.execMulhu h xd xa xb pg s
  | .idiv h xd xa xb pg => Sys2Proof.Machine.execIdiv h xd xa xb pg s
  | .idivu h xd xa xb pg => Sys2Proof.Machine.execIdivu h xd xa xb pg s
  | .irem h xd xa xb pg => Sys2Proof.Machine.execIrem h xd xa xb pg s
  | .iremu h xd xa xb pg => Sys2Proof.Machine.execIremu h xd xa xb pg s
  | .min h xd xa xb pg => Sys2Proof.Machine.execMin h xd xa xb pg s
  | .max h xd xa xb pg => Sys2Proof.Machine.execMax h xd xa xb pg s
  | .minu h xd xa xb pg => Sys2Proof.Machine.execMinu h xd xa xb pg s
  | .maxu h xd xa xb pg => Sys2Proof.Machine.execMaxu h xd xa xb pg s
  | .andn h xd xa xb pg => Sys2Proof.Machine.execAndn h xd xa xb pg s
  | .orn h xd xa xb pg => Sys2Proof.Machine.execOrn h xd xa xb pg s
  | .xnor h xd xa xb pg => Sys2Proof.Machine.execXnor h xd xa xb pg s
  | .rol h xd xa xb pg => Sys2Proof.Machine.execRol h xd xa xb pg s
  | .ror h xd xa xb pg => Sys2Proof.Machine.execRor h xd xa xb pg s
  | .clz h xd xa pg => Sys2Proof.Machine.execClz h xd xa pg s
  | .ctz h xd xa pg => Sys2Proof.Machine.execCtz h xd xa pg s
  | .popc h xd xa pg => Sys2Proof.Machine.execPopc h xd xa pg s
  | .brev h xd xa pg => Sys2Proof.Machine.execBrev h xd xa pg s
  | .bswap h xd xa pg => Sys2Proof.Machine.execBswap h xd xa pg s
  | .setc h xd xa xb pg cond => Sys2Proof.Machine.execSetc h xd xa xb pg cond s
  | .br h p neg off => Sys2Proof.Machine.execBr h p neg off s
  | .beqz h xa off => Sys2Proof.Machine.execBeqz h xa off s
  | .bnez h xa off => Sys2Proof.Machine.execBnez h xa off s
  | .bltz h xa off => Sys2Proof.Machine.execBltz h xa off s
  | .bgez h xa off => Sys2Proof.Machine.execBgez h xa off s
  | .jx h xa => Sys2Proof.Machine.execJx h xa s
  | .callx h xa => Sys2Proof.Machine.execCallx h xa s
  | .xset h seq xd xa => Sys2Proof.Machine.execXset h seq xd xa s
  | .xsetp h seq pd ps => Sys2Proof.Machine.execXsetp h seq pd ps s
  | .sld h xd xa oc ord size sx => Sys2Proof.Machine.execSld h xd xa oc ord size sx s
  | .sst h xd xa oc ord size sx => Sys2Proof.Machine.execSst h xd xa oc ord size sx s
  | .sldDisp h xd xa oc ord size sx disp => Sys2Proof.Machine.execSldDisp h xd xa oc ord size sx disp s
  | .sstDisp h xd xa oc ord size sx disp => Sys2Proof.Machine.execSstDisp h xd xa oc ord size sx disp s
  | .satm h xd xa xb fn size oc ord xc => Sys2Proof.Machine.execSatm h xd xa xb fn size oc ord xc s
  | .waita h xa xb cond xt size oc ord => Sys2Proof.Machine.execWaita h xa xb cond xt size oc ord s
  | .rdt h xd => Sys2Proof.Machine.execRdt h xd s
  | .rdc h xd => Sys2Proof.Machine.execRdc h xd s
  | .rdslip h xd => Sys2Proof.Machine.execRdslip h xd s
  | .pitchq h xd => Sys2Proof.Machine.execPitchq h xd s
  | .pitchw h xa xt => Sys2Proof.Machine.execPitchw h xa xt s
  | .dronew h xa xt => Sys2Proof.Machine.execDronew h xa xt s
  | .droneck h pd xa => Sys2Proof.Machine.execDroneck h pd xa s
  | .flgrd h xd => Sys2Proof.Machine.execFlgrd h xd s
  | .flgclr h mask => Sys2Proof.Machine.execFlgclr h mask s
  | .flgtst h pd mask => Sys2Proof.Machine.execFlgtst h pd mask s
  | .stepreq h xa xt => Sys2Proof.Machine.execStepreq h xa xt s
  | .stepget h xd => Sys2Proof.Machine.execStepget h xd s
  | .lnkst h xd port => Sys2Proof.Machine.execLnkst h xd port s
  | .ld h vt xa oc ord => Sys2Proof.Machine.execLd h vt xa oc ord s
  | .ldDisp h vt xa oc ord disp => Sys2Proof.Machine.execLdDisp h vt xa oc ord disp s
  | .ldb h vt vi xa oc budget size ord => Sys2Proof.Machine.execLdb h vt vi xa oc budget size ord s
  | .pld h slot xa oc planes => Sys2Proof.Machine.execPld h slot xa oc planes s
  | .pldDisp h slot xa oc planes disp => Sys2Proof.Machine.execPldDisp h slot xa oc planes disp s
  | .rld h slot xa oc => Sys2Proof.Machine.execRld h slot xa oc s
  | .rldDisp h slot xa oc disp => Sys2Proof.Machine.execRldDisp h slot xa oc disp s
  | .sqld h xa oc => Sys2Proof.Machine.execSqld h xa oc s
  | .sqldDisp h xa oc disp => Sys2Proof.Machine.execSqldDisp h xa oc disp s
  | .rrot h xa xb dir oc => Sys2Proof.Machine.execRrot h xa xb dir oc s
  | .cpy h xd xa xb tag ctx oc ord => Sys2Proof.Machine.execCpy h xd xa xb tag ctx oc ord s
  | .cpy2 h xd xa xb tag ctx oc ord xr xs xt => Sys2Proof.Machine.execCpy2 h xd xa xb tag ctx oc ord xr xs xt s
  | .cfill h xd xa xb tag ctx oc ord => Sys2Proof.Machine.execCfill h xd xa xb tag ctx oc ord s
  | .cpt h xd xa xb tag ctx oc ord xr xs xt fmt => Sys2Proof.Machine.execCpt h xd xa xb tag ctx oc ord xr xs xt fmt s
  | .tagclr h xa => Sys2Proof.Machine.execTagclr h xa s
  | .rxarm h xa rx => Sys2Proof.Machine.execRxarm h xa rx s
  | .rxchk h pd rx => Sys2Proof.Machine.execRxchk h pd rx s
  | .rxmsk h xd rx => Sys2Proof.Machine.execRxmsk h xd rx s
  | .vfadd h vd va vb pg => Sys2Proof.Machine.execVfadd h vd va vb pg s
  | .vfsub h vd va vb pg => Sys2Proof.Machine.execVfsub h vd va vb pg s
  | .vfmul h vd va vb pg => Sys2Proof.Machine.execVfmul h vd va vb pg s
  | .vfma h vd va vb pg vc => Sys2Proof.Machine.execVfma h vd va vb pg vc s
  | .vfms h vd va vb pg vc => Sys2Proof.Machine.execVfms h vd va vb pg vc s
  | .vfnma h vd va vb pg vc => Sys2Proof.Machine.execVfnma h vd va vb pg vc s
  | .vfmin h vd va vb pg => Sys2Proof.Machine.execVfmin h vd va vb pg s
  | .vfmax h vd va vb pg => Sys2Proof.Machine.execVfmax h vd va vb pg s
  | .vfabs h vd va pg => Sys2Proof.Machine.execVfabs h vd va pg s
  | .vfneg h vd va pg => Sys2Proof.Machine.execVfneg h vd va pg s
  | .vfceq h vd va vb pg => Sys2Proof.Machine.execVfceq h vd va vb pg s
  | .vfclt h vd va vb pg => Sys2Proof.Machine.execVfclt h vd va vb pg s
  | .vfcle h vd va vb pg => Sys2Proof.Machine.execVfcle h vd va vb pg s
  | .vfcun h vd va vb pg => Sys2Proof.Machine.execVfcun h vd va vb pg s
  | .viadd h vd va vb pg => Sys2Proof.Machine.execViadd h vd va vb pg s
  | .visub h vd va vb pg => Sys2Proof.Machine.execVisub h vd va vb pg s
  | .vimul h vd va vb pg => Sys2Proof.Machine.execVimul h vd va vb pg s
  | .vimulh h vd va vb pg => Sys2Proof.Machine.execVimulh h vd va vb pg s
  | .vimin h vd va vb pg => Sys2Proof.Machine.execVimin h vd va vb pg s
  | .vimax h vd va vb pg => Sys2Proof.Machine.execVimax h vd va vb pg s
  | .vumin h vd va vb pg => Sys2Proof.Machine.execVumin h vd va vb pg s
  | .vumax h vd va vb pg => Sys2Proof.Machine.execVumax h vd va vb pg s
  | .viadds h vd va vb pg => Sys2Proof.Machine.execViadds h vd va vb pg s
  | .visubs h vd va vb pg => Sys2Proof.Machine.execVisubs h vd va vb pg s
  | .vand h vd va vb pg => Sys2Proof.Machine.execVand h vd va vb pg s
  | .vor h vd va vb pg => Sys2Proof.Machine.execVor h vd va vb pg s
  | .vxor h vd va vb pg => Sys2Proof.Machine.execVxor h vd va vb pg s
  | .vandn h vd va vb pg => Sys2Proof.Machine.execVandn h vd va vb pg s
  | .vshl h vd va vb pg => Sys2Proof.Machine.execVshl h vd va vb pg s
  | .vshr h vd va vb pg => Sys2Proof.Machine.execVshr h vd va vb pg s
  | .vsar h vd va vb pg => Sys2Proof.Machine.execVsar h vd va vb pg s
  | .viceq h vd va vb pg => Sys2Proof.Machine.execViceq h vd va vb pg s
  | .viclt h vd va vb pg => Sys2Proof.Machine.execViclt h vd va vb pg s
  | .vuclt h vd va vb pg => Sys2Proof.Machine.execVuclt h vd va vb pg s
  | .vmov h vd va pg => Sys2Proof.Machine.execVmov h vd va pg s
  | .vxm h vd va pg => Sys2Proof.Machine.execVxm h vd va pg s
  | .vsel h vd va vb pg vc => Sys2Proof.Machine.execVsel h vd va vb pg vc s
  | .vbcast h vd xa pg => Sys2Proof.Machine.execVbcast h vd xa pg s
  | .vget h xd va lane => Sys2Proof.Machine.execVget h xd va lane s
  | .vcvt h vd va src dst sat => Sys2Proof.Machine.execVcvt h vd va src dst sat s
  | .vpush h q va vm pg => Sys2Proof.Machine.execVpush h q va vm pg s
  | .vpop h q vd xd => Sys2Proof.Machine.execVpop h q vd xd s
  | .vqcnt h xd q => Sys2Proof.Machine.execVqcnt h xd q s
  | .shape h rows cols => Sys2Proof.Machine.execShape h rows cols s
  | .exp2 h vd va pg => Sys2Proof.Machine.execExp2 h vd va pg s
  | .log2 h vd va pg => Sys2Proof.Machine.execLog2 h vd va pg s
  | .rcp h vd va pg => Sys2Proof.Machine.execRcp h vd va pg s
  | .rsq h vd va pg => Sys2Proof.Machine.execRsq h vd va pg s
  | .sqrt h vd va pg => Sys2Proof.Machine.execSqrt h vd va pg s
  | .div h vd va vb pg => Sys2Proof.Machine.execDiv h vd va vb pg s
  | .vrsum h vd va pg => Sys2Proof.Machine.execVrsum h vd va pg s
  | .vrisum h vd va pg => Sys2Proof.Machine.execVrisum h vd va pg s
  | .vrmax h vd va nan pg => Sys2Proof.Machine.execVrmax h vd va nan pg s
  | .vrmin h vd va nan pg => Sys2Proof.Machine.execVrmin h vd va nan pg s
  | .vrimax h vd va pg => Sys2Proof.Machine.execVrimax h vd va pg s
  | .vrimin h vd va pg => Sys2Proof.Machine.execVrimin h vd va pg s
  | .vrdot h vd va vb pg => Sys2Proof.Machine.execVrdot h vd va vb pg s
  | .vrlsum h vd va vb pg => Sys2Proof.Machine.execVrlsum h vd va vb pg s
  | .vrscl h vd va vb pg => Sys2Proof.Machine.execVrscl h vd va vb pg s
  | .vmcnt h vd va pg => Sys2Proof.Machine.execVmcnt h vd va pg s
  | .mma h c pa pb fsrc lvl planes fa fb zero kblk => Sys2Proof.Machine.execMma h c pa pb fsrc lvl planes fa fb zero kblk s
  | .mmas h c pa pb fsrc lvl planes pm fa fb zero kblk => Sys2Proof.Machine.execMmas h c pa pb fsrc lvl planes pm fa fb zero kblk s
  | .mclr h c => Sys2Proof.Machine.execMclr h c s
  | .accmv h vt c row0 pg col0 fmt sat tr => Sys2Proof.Machine.execAccmv h vt c row0 pg col0 fmt sat tr s
  | .accin h vt c row0 pg col0 fmt sat tr => Sys2Proof.Machine.execAccin h vt c row0 pg col0 fmt sat tr s
  | .ftset h ft xa => Sys2Proof.Machine.execFtset h ft xa s
  | .ftget h xd ft => Sys2Proof.Machine.execFtget h xd ft s
  | .sqcnt h xd => Sys2Proof.Machine.execSqcnt h xd s
  | .sqdrop h xa => Sys2Proof.Machine.execSqdrop h xa s
  | .st h vt xa oc ord => Sys2Proof.Machine.execSt h vt xa oc ord s
  | .stDisp h vt xa oc ord disp => Sys2Proof.Machine.execStDisp h vt xa oc ord disp s
  | .stb h vt vi xa oc budget size ord => Sys2Proof.Machine.execStb h vt vi xa oc budget size ord s
  | .atm h xd xa xb fn size oc ord xc => Sys2Proof.Machine.execAtm h xd xa xb fn size oc ord xc s
  | .rst h xa xb xc cls xr => Sys2Proof.Machine.execRst h xa xb xc cls xr s
  | .rsig h xa xb xr => Sys2Proof.Machine.execRsig h xa xb xr s
  | .ratm h xd xa xb fn size xr xc => Sys2Proof.Machine.execRatm h xd xa xb fn size xr xc s
  | .coll h xa hd => Sys2Proof.Machine.execColl h xa hd s
  | .collw h hd xt => Sys2Proof.Machine.execCollw h hd xt s
  | .a2a h xa xb hd => Sys2Proof.Machine.execA2a h xa xb hd s
  | .psend h xa => Sys2Proof.Machine.execPsend h xa s
  | .guard h port beats => Sys2Proof.Machine.execGuard h port beats s
  | .alignRelease who lvl k => Sys2Proof.Machine.execAlignRelease who lvl k s
  | .segmentDeadline q serial => Sys2Proof.Machine.execSegmentDeadline q serial s
  | .barComplete who lvl => Sys2Proof.Machine.execBarComplete who lvl s
  | .waitTimeout q t0 => Sys2Proof.Machine.execWaitTimeout q t0 s
  | .branchResolve unit id => Sys2Proof.Machine.execBranchResolve unit id s
  | .waitaReread q t0 => Sys2Proof.Machine.execWaitaReread q t0 s
  | .droneInstantReached q t0 => Sys2Proof.Machine.execDroneInstantReached q t0 s
  | .copyComplete unit serial => Sys2Proof.Machine.execCopyComplete unit serial s
  | .collStep unit hd j => Sys2Proof.Machine.execCollStep unit hd j s
  | .guardIntervalStart unit port beats aligned pc => Sys2Proof.Machine.execGuardIntervalStart unit port beats aligned pc s
  | .signalAdd id => Sys2Proof.Machine.execSignalAdd id s
  | .remoteAtomic id => Sys2Proof.Machine.execRemoteAtomic id s
  | .exchangeStage1 a => Sys2Proof.Machine.execExchangeStage1 a s
  | .exchangeStage2 a => Sys2Proof.Machine.execExchangeStage2 a s
  | .descriptorClose unit rx serial => Sys2Proof.Machine.execDescriptorClose unit rx serial s
  | .silence rank => Sys2Proof.Machine.execSilence rank s
  | .noticeApply x => Sys2Proof.Machine.execNoticeApply x s
  | .variantPlacement nd => Sys2Proof.Machine.execVariantPlacement nd s
  | .nodeArm nd => Sys2Proof.Machine.execNodeArm nd s
  | .semaphorePoll q sq => Sys2Proof.Machine.execSemaphorePoll q sq s
  | .semwaitTimeout q sq => Sys2Proof.Machine.execSemwaitTimeout q sq s
  | .park q sq => Sys2Proof.Machine.execPark q sq s
  | .parkedPoll q sq => Sys2Proof.Machine.execParkedPoll q sq s
  | .imageRelease image => Sys2Proof.Machine.execImageRelease image s
  | .completionRecordWrite q => Sys2Proof.Machine.execCompletionRecordWrite q s
  | .coreGrant part core => Sys2Proof.Machine.execCoreGrant part core s
  | .borderMove part core => Sys2Proof.Machine.execBorderMove part core s
  | .preemptionRequest nd asker => Sys2Proof.Machine.execPreemptionRequest nd asker s
  | .nodeBudgetExpiry nd attempt => Sys2Proof.Machine.execNodeBudgetExpiry nd attempt s
  | .nodeEnd nd => Sys2Proof.Machine.execNodeEnd nd s
  | .commit nd => Sys2Proof.Machine.execCommit nd s
  | .groupVote nd rank yes => Sys2Proof.Machine.execGroupVote nd rank yes s
  | .groupDecision nd yes => Sys2Proof.Machine.execGroupDecision nd yes s
  | .voteTimeout nd => Sys2Proof.Machine.execVoteTimeout nd s
  | .inDoubt nd => Sys2Proof.Machine.execInDoubt nd s
  | .musterResult unit ok => Sys2Proof.Machine.execMusterResult unit ok s
  | .shepherdExchange die => Sys2Proof.Machine.execShepherdExchange die s
  | .requestReturn id => Sys2Proof.Machine.execRequestReturn id s
  | .pageWalk id => Sys2Proof.Machine.execPageWalk id s
  | .holdRelease nd => Sys2Proof.Machine.execHoldRelease nd s
  | .debugHalt nd => Sys2Proof.Machine.execDebugHalt nd s
  | .debugResume call => Sys2Proof.Machine.execDebugResume call s
  | .groupFault => Sys2Proof.Machine.execGroupFault s
  | .raiseProposal => Sys2Proof.Machine.execRaiseProposal s
  | .catchUpEnd => Sys2Proof.Machine.execCatchUpEnd s
  | .emergencyThrottle => Sys2Proof.Machine.execEmergencyThrottle s
  | .powerOn => Sys2Proof.Machine.execPowerOn s
  | .musterTake => Sys2Proof.Machine.execMusterTake s
  | .alarmClear => Sys2Proof.Machine.execAlarmClear s
  | .catchUp => Sys2Proof.Machine.execCatchUp s
  | .groupAnnouncement rank k d bar => Sys2Proof.Machine.execGroupAnnouncement rank k d bar s
  | .fwd a => Sys2Proof.Machine.execFwd a s
  | .dlv a => Sys2Proof.Machine.execDlv a s
  | .dup a => Sys2Proof.Machine.execDup a s
  | .routeEnd a => Sys2Proof.Machine.execRouteEnd a s
  | .atomicReply unit slot old => Sys2Proof.Machine.execAtomicReply unit slot old s
  | .slotFreeNotice unit slot handle => Sys2Proof.Machine.execSlotFreeNotice unit slot handle s
  | .linkReplay port ok => Sys2Proof.Machine.execLinkReplay port ok s
  | .elasticBufferLimit port fill => Sys2Proof.Machine.execElasticBufferLimit port fill s
  | .linkDown port => Sys2Proof.Machine.execLinkDown port s
  | .droneExchange t1 t2 t3 t4 asym => Sys2Proof.Machine.execDroneExchange t1 t2 t3 t4 asym s
  | .beacon src lim slip lowest silent => Sys2Proof.Machine.execBeacon src lim slip lowest silent s
  | .faultNotice n => Sys2Proof.Machine.execFaultNotice n s
  | .notice n => Sys2Proof.Machine.execNotice n s
  | .lowerNotice code y => Sys2Proof.Machine.execLowerNotice code y s
  | .supplyDroop lost => Sys2Proof.Machine.execSupplyDroop lost s
  | .configurationRequest port => Sys2Proof.Machine.execConfigurationRequest port s
  | .tail q v => Sys2Proof.Machine.execTail q v s
  | .resume q => Sys2Proof.Machine.execResume q s
  | .reset q => Sys2Proof.Machine.execReset q s
  | .registerWrite q off size v => Sys2Proof.Machine.execRegisterWrite q off size v s
  | .nopPacket q => Sys2Proof.Machine.execNopPacket q s
  | .launch q => Sys2Proof.Machine.execLaunch q s
  | .semwait q => Sys2Proof.Machine.execSemwait q s
  | .semsig q => Sys2Proof.Machine.execSemsig q s
  | .mark q => Sys2Proof.Machine.execMark q s
  | .fencePacket q => Sys2Proof.Machine.execFencePacket q s
  | .snap q => Sys2Proof.Machine.execSnap q s
  | .roll q => Sys2Proof.Machine.execRoll q s
  | .commitVote q => Sys2Proof.Machine.execCommitVote q s
  | .gjoin q => Sys2Proof.Machine.execGjoin q s
  | .gleave q => Sys2Proof.Machine.execGleave q s
  | .pin q => Sys2Proof.Machine.execPin q s
  | .unpin q => Sys2Proof.Machine.execUnpin q s
  | .securityAlarm src => Sys2Proof.Machine.execSecurityAlarm src s
  | .singleStep call => Sys2Proof.Machine.execSingleStep call s
  | .taintRestore nd => Sys2Proof.Machine.execTaintRestore nd s
  | .taintRelease nd => Sys2Proof.Machine.execTaintRelease nd s
  | .snapshotMap part id pasid => Sys2Proof.Machine.execSnapshotMap part id pasid s
  | .snapshotRelease part id => Sys2Proof.Machine.execSnapshotRelease part id s
  | .keyLoad slot blob => Sys2Proof.Machine.execKeyLoad slot blob s
  | .keySetLoad part keys reqsig sig => Sys2Proof.Machine.execKeySetLoad part keys reqsig sig s
  | .partitionConfig part target ceiling run => Sys2Proof.Machine.execPartitionConfig part target ceiling run s
  | .fabricPartitionSet part detour => Sys2Proof.Machine.execFabricPartitionSet part detour s
  | .queueCreate q cfg => Sys2Proof.Machine.execQueueCreate q cfg s
  | .unitReinstate unit => Sys2Proof.Machine.execUnitReinstate unit s
  | .dieFirmwareUpdate die version image sig => Sys2Proof.Machine.execDieFirmwareUpdate die version image sig s
  | .linkRetrain port reach => Sys2Proof.Machine.execLinkRetrain port reach s
  | .memoryRetrain iface cycles => Sys2Proof.Machine.execMemoryRetrain iface cycles s
  | .regionGuardViolation core part addr write => Sys2Proof.Machine.execRegionGuardViolation core part addr write s
  | .attestation nonce => Sys2Proof.Machine.execAttestation nonce s
  | .faultRecordRead q => Sys2Proof.Machine.execFaultRecordRead q s
  | .rdcHop a => Sys2Proof.Machine.execRdcHop a s
  | .linkTraining port reach => Sys2Proof.Machine.execLinkTraining port reach s
  | .reservedTypePacket q => Sys2Proof.Machine.execReservedTypePacket q s
  | .pageMapping pasid root writes => Sys2Proof.Machine.execPageMapping pasid root writes s
  | .versionPool part add remove => Sys2Proof.Machine.execVersionPool part add remove s
  | .debuggable q on => Sys2Proof.Machine.execDebuggable q on s

end Sys2Proof.Machine
end

