-- ==== Sys2Proof/Machine/Step.lean ====
section
/-! DEFINITION. The step: the phases of one cycle (log 1), and an instruction placed where the next step issues it (log 17). -/

namespace Sys2Proof.Machine
open Host

/-- One step. A cycle has five phases: branches resolve; operations in flight act; the events of the cycle happen one by one; the
sequencers issue in their turn; the cycle closes with its stops, its redirects and the clock. -/
def step (s : State) : Host.Outcome State Fault Refusal :=
  match s.phase with
  | .resolve =>
    match s.nextResolve with
    | some t => exec t.ev (s.takeEvent t)
    | none => .next { s with phase := .land }
  | .land => .next { s.landAll with phase := .events }
  | .events =>
    match s.nextEvent with
    | some t => exec t.ev (s.beforeEvent t)
    | none => .next s.settleHandles.beginIssue
  | .issue =>
    match s.turn with
    | [] => .next { s with phase := .close }
    | q :: rest =>
      let s := { s with turn := rest, cur := q }
      match s.visit q with
      | .idle => .next s
      | .illegal nd => .next (s.illegalWord nd)
      | .run i => exec i s
      | .probe i => .next (match exec i s with | .next t => s.noteCut q i t | _ => s)
  | .close => .next s.closeCycle

/-- The instruction whose bits are `w` stands where the next step issues it (log 17). -/
def State.withFetchWord (s : State) (nbits w : Nat) : State :=
  match tableReading nbits w with
  | some (q, sh, _) => s.placeWords q sh (leBytes 8 w)
  | none => s.placeWords .scl false (leBytes 8 w)

end Sys2Proof.Machine
end

