-- ==== Sys2Proof/Machine/Firmware.lean ====
section
/-! DEFINITION. The levels of the firmware complex, and what a level reaches by a call (17 R360, R361, Table 17-4). -/

namespace Sys2Proof.Machine
open Host

/-- The level that holds what an event of firmware acts on (17 Table 17-4): the monitor flash, signatures, key slots, the erase mask, alarms and
attestation, and the limit code (17 R368); the scheduler the partition controller, the drovers, the muster, the memory manager, fault records
and servicing. A plug-in holds the policy of a partition, which `setPolicy` sets. -/
def heldBy : Instr → Option FwLevel
  | .keyLoad _ _ => some .monitor
  | .keySetLoad _ _ _ _ => some .monitor
  | .securityAlarm _ => some .monitor
  | .alarmClear => some .monitor
  | .attestation _ => some .monitor
  | .lowerNotice _ _ => some .monitor
  | .emergencyThrottle => some .monitor
  | .partitionConfig _ _ _ _ => some .scheduler
  | .fabricPartitionSet _ _ => some .scheduler
  | .coreGrant _ _ => some .scheduler
  | .preemptionRequest _ _ => some .scheduler
  | .queueCreate _ _ => some .scheduler
  | .musterTake => some .scheduler
  | .pageMapping _ _ _ => some .scheduler
  | .versionPool _ _ _ => some .scheduler
  | .snapshotMap _ _ _ => some .scheduler
  | .snapshotRelease _ _ => some .scheduler
  | .taintRestore _ => some .scheduler
  | .taintRelease _ => some .scheduler
  | .holdRelease _ => some .scheduler
  | .faultRecordRead _ => some .scheduler
  | .debuggable _ _ => some .scheduler
  | .debugHalt _ => some .scheduler
  | .debugResume _ => some .scheduler
  | .singleStep _ => some .scheduler
  | .unitReinstate _ => some .scheduler
  | .dieFirmwareUpdate _ _ _ _ => some .scheduler
  | .linkRetrain _ _ => some .scheduler
  | .memoryRetrain _ _ => some .scheduler
  | _ => none

/-- How high a level stands (17 Table 17-4). -/
def levelHeight : FwLevel → Nat
  | .monitor => 2
  | .scheduler => 1
  | .plugin => 0

/-- A call that a level of a firmware core makes: it reaches what its own or a lower level holds; what a higher level holds it reaches through
that level's mailbox alone, where the call stands until the level serves it (17 R360). -/
def firmwareCall (core : Fin 8) (caller : FwLevel) (mailbox : Bool) (i : Instr) (s : State) : Res :=
  match heldBy i with
  | none => .next (s.emit (.refusedCall 360))
  | some l =>
    if levelHeight l ≤ levelHeight caller then exec i s
    else if mailbox then s.unlessFailed <| .next { s with fwCalls := s.fwCalls ++ [⟨core, l, i⟩] }
    else .next (s.emit (.refusedCall 360))

/-- A level of a firmware core serves the oldest call in its mailbox (17 R360). -/
def serveMailbox (core : Fin 8) (level : FwLevel) (s : State) : Res :=
  match s.fwCalls.find? (fun c => c.core == core && c.level == level) with
  | none => .next s
  | some c => exec c.call { s with fwCalls := s.fwCalls.erase c }

/-- The plug-in of a partition decides its policy; one that has been stopped decides no more (17 R360, R361; log 39). -/
def setPolicy (part : PartId) (p : Policy) (s : State) : Res :=
  s.unlessFailed <|
  if (s.part part).plugin then .next (s.modPart part (fun v => { v with policy := p })) else .next (s.emit (.refusedCall 361))

end Sys2Proof.Machine
end

