-- ==== Sys2Proof/Safety.lean ====
section
/-! DEFINITION. What counts as a safe step, and the conditions on a state that the statements use: an instruction that issues with its
own effect, memories in canonical form, the hub's registers in agreement. -/

namespace Sys2Proof.Machine
open Host

/-- A step is safe when it answers a next state: the machine neither faults nor refuses. -/
def safeStep (s : State) : Prop := ∃ t, step s = .next t

/-- An instruction with header `h` and the needs `a` issues on this cycle with its own effect: it passes the gate of 05 R85, R86,
R90 and 06 R121, no taken branch kills it (06 R119), and no word that it reads has an uncorrectable error (15 R326). -/
def State.issues (s : State) (h : Hdr) (a : Ask) : Prop :=
  s.gate h a = .go ∧ (h.sq && s.killing) = false ∧ a.reads.any (s.badRead a) = false

/-- As `issues`, for a guarded form whose guard is true (02 R28). -/
def State.issuesIf (s : State) (h : Hdr) (pg : PReg) (a : Ask) : Prop :=
  s.pr pg = true ∧ s.issues h { a with reads := .p s.cur pg :: a.reads }

/-- What a form on a pipe needs at issue: its tile sources in the active lanes, other registers, and its destination
(08 R151). -/
def State.vecAsk (s : State) (vd : TileCode) (srcs : List TileCode) (extra : List Dest) : Ask :=
  { reads := extra ++ srcs.flatMap s.tileDest, writes := s.tileDest vd, lanes := lanesOf s.here.shp }

/-- The cycle from which a pipe is free (08 R153). -/
def State.pipeTill (s : State) (b : Bool) : Nat := if b then s.here.pipeB else s.here.pipeA

/-- The pipe is free on this cycle (08 R153). -/
def State.pipeFree (s : State) (b : Bool) : Prop := s.pipeTill b ≤ s.cyc

/-- The instruction, of `len` words, meets a unit in use until cycle `till`: in aligned mode it raises TIMING, in free mode it stays and
is tried again on that cycle (05 R83, R85, 07 R129, 08 R153, 09 R170, 10 R189). -/
def State.waitsFor (s : State) (h : Hdr) (len till : Nat) (i : Instr) : Prop :=
  (s.me.aligned = true → exec i s = .next (s.raise h len { code := .timing })) ∧
  (s.me.aligned = false → exec i s = .next (s.setMe { s.me with base := max s.me.base (till - h.idle.toNat) }))

/-- The pipe is taken for one cycle, for two above 128 active lanes (08 R153). -/
def State.takePipe (s : State) (b : Bool) : State :=
  let k := if lanesOf s.here.shp ≤ 128 then 1 else 2
  s.modHere (fun c => if b then { c with pipeB := s.cyc + k } else { c with pipeA := s.cyc + k })

/-- The memories stand in canonical form, each under what its unlisted bytes read as. -/
def State.canonical (s : State) : Prop :=
  Memory.wf s.spadBg s.spad = true ∧ Memory.wf zeroBg s.dev = true ∧ Memory.wf zeroBg s.host = true ∧
  Memory.wf zeroBg s.code = true ∧ Memory.wf zeroBg s.codeSh = true ∧ Memory.wf zeroBg s.bar0 = true

/-- The hub's registers agree: the stage is 1 to 6, READY is 1 in stage 6 alone, and no error is recorded in it (17 R354, Table
17-2). -/
def State.hubAgrees (s : State) : Prop :=
  1 ≤ s.stage ∧ s.stage ≤ 6 ∧ (s.ready = true ↔ s.stage = 6) ∧ (s.ready = true → s.errV = false)

/-- No byte of any memory of the part differs, and no line of device memory has another key. -/
def State.sameMemory (s t : State) : Prop :=
  (∀ a, t.spadByte a = s.spadByte a) ∧ (∀ a n, t.devBytes a n = s.devBytes a n) ∧ t.devKeys = s.devKeys ∧ (∀ p a n, t.hostBytes p a n = s.hostBytes p a n) ∧
  (∀ sh a, t.codeWord sh a = s.codeWord sh a)

/-- The registers of a core that an instruction writes only when its operation lands: index registers and predicates of its
sequencers, tiles, accumulators, slots, format registers, shape and flags; and `FOLD`, `NODE`, `ATTEMPT` and the fold levels' phase
bits, which no instruction writes. -/
def Core.sameRegs (c d : Core) : Prop :=
  (∀ q r, (d.seq q).xr r = (c.seq q).xr r) ∧ (∀ q r, (d.seq q).pr r = (c.seq q).pr r) ∧ d.tiles = c.tiles ∧ d.accs = c.accs ∧
  d.planes = c.planes ∧ d.rows = c.rows ∧ d.ft = c.ft ∧ d.shp = c.shp ∧ d.flags = c.flags ∧ d.fold = c.fold ∧
  d.nodeId = c.nodeId ∧ d.attempt = c.attempt ∧ d.phases = c.phases ∧ d.tlc = c.tlc

/-- The registers of every core. -/
def State.sameRegs (s t : State) : Prop := ∀ u, (s.core u).sameRegs (t.core u)

/-- `TAGS` of every core. -/
def State.sameTags (s t : State) : Prop := ∀ u, (t.core u).tags = (s.core u).tags

end Sys2Proof.Machine
end

