-- ==== Sys2Proof/Certificates/Slice0/Obligations.lean ====
section
/-! DEFINITION. The statements for the provers, each with the rules of the spec that it formalises. -/

open Sys2Proof Sys2Proof.Machine Host

/-- Each word that a table of worked encodings spells out bit by bit decodes, in the stream the table names, to the
instruction of its row, with every operand field as the row lists it. A decoded instruction passes every field check
of its stream and core kind, takes one or two words, carries the IDLE and SQ bits of its first word, and has SQ set
only in an SCL stream. (02 Tables 2-12; 05 Table 5-9; 06 Table 6-6; 07 Table 7-8; 08 Table 8-3; 09 Table 9-2; 10 Table
10-5; 11 Table 11-9; 12 Table 12-8; 13 Table 13-4; 15 Table 15-7; R40) -/
def Obligations.WorkedWordsDecode : Prop :=
  (decode .cmp false 0x80018310#32 0x0#32 = some (.vfadd ⟨0, false⟩ 3 1 34 0) ∧
  decode .scl false 0x31A52FF8#32 0x0#32 = some (.addi ⟨1, true⟩ 5 5 0x7F8) ∧
  decode .st true 0x00F84B00#32 0x4E20#32 = some (.align ⟨0, false⟩ 3 9 12 20000) ∧
  decode .scl false 0x800531C0#32 0x0#32 = some (.mul ⟨0, false⟩ 5 6 7 0) ∧
  decode .scl false 0x80C40004#32 0x0#32 = some (.br ⟨0, false⟩ 1 0 4) ∧
  decode .scl false 0x8187417D#32 0x10#32 = some (.sldDisp ⟨0, false⟩ 7 8 2 7 3 0 16) ∧
  decode .scl false 0x81A34888#32 0x0#32 = some (.sst ⟨0, false⟩ 3 9 1 0 2 0) ∧
  decode .ld false 0x80221092#32 0x4000000#32 = some (.ldb ⟨0, false⟩ 4 8 9 2 8 0 0) ∧
  decode .st false 0x80284220#32 0x8300000#32 = some (.stb ⟨0, false⟩ 16 33 2 0 16 1 4) ∧
  decode .ld false 0x804D4880#32 0x0#32 = some (.pld ⟨0, false⟩ 3 10 4 4) ∧
  decode .cmp false 0x80610620#32 0x84000000#32 = some (.vfma ⟨0, false⟩ 2 3 4 0 33) ∧
  decode .cmp false 0x84E0800F#32 0x0#32 = some (.vcvt ⟨0, false⟩ 1 0 0 7 1) ∧
  decode .cmp false 0x86A9A292#32 0x0#32 = some (.div ⟨0, false⟩ 19 17 18 2) ∧
  decode .cmp false 0x880A43C0#32 0x33700000#32 = some (.mma ⟨0, false⟩ 1 2 2 0 0 15 3 3 0 7) ∧
  decode .cmp false 0x88622400#32 0x40100000#32 = some (.accmv ⟨0, false⟩ 4 1 16 0 64 1 0 0) ∧
  decode .ld false 0x82042989#32 0x48000000#32 = some (.cpy ⟨0, false⟩ 4 5 6 9 1 2 0) ∧
  decode .scl false 0x81C74278#32 0xA00000#32 = some (.satm ⟨0, false⟩ 7 8 9 7 0 0 0 10) ∧
  decode .scl false 0x02C00128#32 0x0#32 = some (.fence ⟨0, false⟩ 9 2) ∧
  decode .st true 0x8843217C#32 0x39800000#32 = some (.ratm ⟨0, false⟩ 3 4 5 7 1 7 6) ∧
  decode .st true 0x88A42840#32 0x0#32 = some (.a2a ⟨0, false⟩ 4 5 2) ∧
  decode .ld true 0x88063000#32 0x0#32 = some (.rxarm ⟨0, false⟩ 6 12) ∧
  decode .scl false 0x84CD4000#32 0x0#32 = some (.droneck ⟨0, false⟩ 3 10) ∧
  decode .st true 0x88E65000#32 0x0#32 = some (.guard ⟨0, false⟩ 3 40) ∧
  decode .scl false 0x85201800#32 0x0#32 = some (.flgclr ⟨0, false⟩ 0xC0)) ∧
  (∀ (k : SeqName) (sh : Bool) (w0 w1 : Word) (i : Instr), decode k sh w0 w1 = some i →
    i.wf k sh = true ∧ (i.len = 1 ∨ i.len = 2) ∧ i.hdr = hdrOf w0 ∧ (i.hdr.sq = true → k = .scl))

/-- For every instruction that is well-formed for a sequencer kind and a core kind, with every operand at every value its
encoding admits, the decoder of that stream reads the instruction back from the words the encoder writes; a one-word
form is read whatever word follows it. (R16; R17; R19; R20; R23; R38; 02 Tables 2-1 to 2-11) -/
def Obligations.EncodeThenDecode : Prop :=
  ∀ (k : SeqName) (sh : Bool) (i : Instr) (next : Word), i.wf k sh = true →
    decode k sh ((encode i).getD 0 0) ((encode i).getD 1 next) = some i

/-- If two words decode to an instruction, then the encoder writes exactly those words back (the first alone, for a one-
word form): no bit of a word is dropped, and no word with a reserved bit set decodes. (R16; R17; R20; R40; 02 Tables
2-1 to 2-11) -/
def Obligations.DecodeThenEncode : Prop :=
  ∀ (k : SeqName) (sh : Bool) (w0 w1 : Word) (i : Instr), decode k sh w0 w1 = some i →
    encode i = if i.len = 2 then [w0, w1] else [w0]

/-- In the issue phase, when the next sequencer in turn may issue for its node, its base cycle plus the IDLE of the
instruction has come (its base cycle alone, where the instruction is illegal as the state stands, so that its IDLE is
not consumed), and the words at its pc, inside the pinned code, decode in its stream to i (both words inside, for a
wide form), the step is exec of i at the state with that sequencer current and the rest of the turn left. On a cycle
before that the step only passes the turn on. (R16; R17; R21; R40; R83) -/
def Obligations.StepRunsDecodedInstruction : Prop :=
  (∀ (s : State) (q : SeqId) (rest : List SeqId) (nd : Nat) (n : Node) (w0 : Word) (i : Instr),
    s.phase = .issue → s.turn = q :: rest → (s.core q.unit).node = some nd → s.node? nd = some n →
    s.turnOf n q = .issues →
    s.fetchWord n (isShep q.unit) (s.seq q).pc = some w0 →
    decode q.q (isShep q.unit) w0 ((s.fetchWord n (isShep q.unit) ((s.seq q).pc + 4)).getD 0) = some i →
    (i.len = 2 → (s.fetchWord n (isShep q.unit) ((s.seq q).pc + 4)).isSome = true) →
    (s.seq q).base ≤ s.cyc → ((s.seq q).base + i.hdr.idle.toNat ≤ s.cyc ∨ ({ s with turn := rest, cur := q } : State).illegalNow i = true) →
    step s = exec i { s with turn := rest, cur := q }) ∧
  (∀ (s : State) (q : SeqId) (rest : List SeqId) (nd : Nat) (n : Node) (w0 : Word) (i : Instr),
    s.phase = .issue → s.turn = q :: rest → (s.core q.unit).node = some nd → s.node? nd = some n →
    s.turnOf n q = .issues →
    s.fetchWord n (isShep q.unit) (s.seq q).pc = some w0 →
    decode q.q (isShep q.unit) w0 ((s.fetchWord n (isShep q.unit) ((s.seq q).pc + 4)).getD 0) = some i →
    (i.len = 2 → (s.fetchWord n (isShep q.unit) ((s.seq q).pc + 4)).isSome = true) →
    s.cyc < (s.seq q).base ∨
      (s.cyc < (s.seq q).base + i.hdr.idle.toNat ∧ ({ s with turn := rest, cur := q } : State).illegalNow i = false) →
    step s = .next { s with turn := rest, cur := q })

/-- On the base cycle of a sequencer whose word fails decode: in the SCL stream, a word with SQ = 1 is held while a
conditional branch is unresolved, and reports nothing on the cycle on which a taken branch kills it; every other word
raises ILLEGAL with the address of the word, and nothing else changes. At the end of the cycle on which a taken branch
resolves, the SCL goes on at its target, on the next cycle. (R41) -/
def Obligations.IllegalWordRaisesIllegal : Prop :=
  (∀ (s : State) (q : SeqId) (rest : List SeqId) (nd : Nat) (n : Node) (w0 : Word),
    s.phase = .issue → s.turn = q :: rest → (s.core q.unit).node = some nd → s.node? nd = some n →
    s.turnOf n q = .issues → (s.seq q).base ≤ s.cyc →
    s.fetchWord n (isShep q.unit) (s.seq q).pc = some w0 →
    decode q.q (isShep q.unit) w0 ((s.fetchWord n (isShep q.unit) ((s.seq q).pc + 4)).getD 0) = none →
    let c : State := { s with turn := rest, cur := q }
    (q.q = .scl → wordSq w0 = true → (c.unresolved.isSome = true ∨ c.killing = true) → step s = .next c) ∧
    (q.q = .scl → wordSq w0 = true → c.unresolved = none → c.killing = false →
      step s = .next (c.addCause { node := nd, rank := 3, unit := q.unit.val, seq := some (q.q, (s.seq q).pc), r := { code := .illegal } })) ∧
    (q.q ≠ .scl ∨ wordSq w0 = false →
      step s = .next (c.addCause { node := nd, rank := 3, unit := q.unit.val, seq := some (q.q, (s.seq q).pc), r := { code := .illegal } }))) ∧
  (∀ (s : State) (u : UnitId) (t : Dword), (s.core u).scl.redirect = some t → (s.core u).scl.wait = none →
    (s.redirects.core u).scl.pc = t ∧ (s.redirects.core u).scl.base = s.cyc + 1 ∧ (s.redirects.core u).scl.redirect = none)

/-- A branch that resolves, or a copy that completes, on this cycle runs in the resolve phase; an event that is due runs
in the event phase, its entry taken off the agenda, announcements and notices before the rest and wait timeouts last,
these once the handles that have completed are idle. The phases themselves are of this model (log 1). (R282; R230;
R118; R139; R264; log 1) -/
def Obligations.DueEventRuns : Prop :=
  (∀ (s : State) (t : Todo), s.phase = .resolve → s.nextResolve = some t → step s = exec t.ev (s.takeEvent t)) ∧
  (∀ (s : State) (t : Todo), s.nextResolve = some t → t ∈ s.agenda ∧ s.isDue t = true ∧ isResolve t.ev = true) ∧
  (∀ (s : State), s.phase = .resolve → s.nextResolve = none → step s = .next { s with phase := .land }) ∧
  (∀ (s : State) (t : Todo), s.phase = .events → s.nextEvent = some t →
    step s = exec t.ev (if eventRank t.ev = 4 then (s.takeEvent t).endHandles else s.takeEvent t)) ∧
  (∀ (s : State) (t u : Todo), s.nextEvent = some t → u ∈ s.agenda → s.isDue u = true → eventRank t.ev ≤ eventRank u.ev)

/-- With a false guard whose register is not awaited, every guarded scalar, vector, special-function, reduction and
accumulator form only takes its issue slot: the sequencer goes on after its words, and nothing else changes. SEL reads
its predicate as a selector, and takes effect either way. That a form with a false guard waits for its guard register
alone is log 18 (DEDUCED). (R28; R110) -/
def Obligations.GuardFalseHasNoEffect : Prop :=
  ∀ (h : Hdr) (pg : PReg) (s : State), s.pr pg = false → s.issues h { reads := [.p s.cur pg] } →
    (∀ (xd xa xb : XReg) (cond : BitVec 3), ∀ i ∈ [Instr.add h xd xa xb pg, .sub h xd xa xb pg, .and_ h xd xa xb pg, .or_ h xd xa xb pg,
      .xor_ h xd xa xb pg, .shl h xd xa xb pg, .shr h xd xa xb pg, .sar h xd xa xb pg, .mul h xd xa xb pg, .mulhs h xd xa xb pg,
      .mulhu h xd xa xb pg, .idiv h xd xa xb pg, .idivu h xd xa xb pg, .irem h xd xa xb pg, .iremu h xd xa xb pg, .min h xd xa xb pg,
      .max h xd xa xb pg, .minu h xd xa xb pg, .maxu h xd xa xb pg, .andn h xd xa xb pg, .orn h xd xa xb pg, .xnor h xd xa xb pg,
      .rol h xd xa xb pg, .ror h xd xa xb pg, .clz h xd xa pg, .ctz h xd xa pg, .popc h xd xa pg, .brev h xd xa pg, .bswap h xd xa pg,
      .setc h xd xa xb pg cond], exec i s = .next (s.retire 1 0)) ∧
    (∀ (vd va vb : TileCode) (xa : XReg) (nan : BitVec 1) (q : BitVec 2), ∀ i ∈ [Instr.vfadd h vd va vb pg, .vfsub h vd va vb pg,
      .vfmul h vd va vb pg, .vfmin h vd va vb pg, .vfmax h vd va vb pg, .vfabs h vd va pg, .vfneg h vd va pg, .vfceq h vd va vb pg,
      .vfclt h vd va vb pg, .vfcle h vd va vb pg, .vfcun h vd va vb pg, .viadd h vd va vb pg, .visub h vd va vb pg, .vimul h vd va vb pg,
      .vimulh h vd va vb pg, .vimin h vd va vb pg, .vimax h vd va vb pg, .vumin h vd va vb pg, .vumax h vd va vb pg,
      .viadds h vd va vb pg, .visubs h vd va vb pg, .vand h vd va vb pg, .vor h vd va vb pg, .vxor h vd va vb pg, .vandn h vd va vb pg,
      .vshl h vd va vb pg, .vshr h vd va vb pg, .vsar h vd va vb pg, .viceq h vd va vb pg, .viclt h vd va vb pg, .vuclt h vd va vb pg,
      .vmov h vd va pg, .vxm h vd va pg, .vbcast h vd xa pg, .vpush h q va vb pg, .exp2 h vd va pg, .log2 h vd va pg, .rcp h vd va pg,
      .rsq h vd va pg, .sqrt h vd va pg, .div h vd va vb pg, .vrsum h vd va pg, .vrisum h vd va pg, .vrmax h vd va nan pg,
      .vrmin h vd va nan pg, .vrimax h vd va pg, .vrimin h vd va pg, .vrdot h vd va vb pg, .vrlsum h vd va vb pg, .vrscl h vd va vb pg,
      .vmcnt h vd va pg], exec i s = .next (s.retire 1 0)) ∧
    (∀ (vd va vb vc : TileCode) (ac : BitVec 2) (row0 : BitVec 7) (col0 : BitVec 8) (fmt : BitVec 4) (sat tr : BitVec 1),
      ∀ i ∈ [Instr.vfma h vd va vb pg vc, .vfms h vd va vb pg vc, .vfnma h vd va vb pg vc, .vsel h vd va vb pg vc,
        .accmv h vd ac row0 pg col0 fmt sat tr, .accin h vd ac row0 pg col0 fmt sat tr], exec i s = .next (s.retire 2 0)) ∧
    (∀ (xd xa xb : XReg), s.issues h { reads := [.x s.cur xa, .x s.cur xb, .p s.cur pg], writes := [.x s.cur xd] } →
      exec (.sel h xd xa xb pg) s = .next ((s.laterX h xd 1 (s.xr xb)).retire 1 0))

/-- In every sequencer state i0 reads zero and p0 reads true; a write to i0 or p0 leaves the sequencer as it was, and the
landing of such a write leaves the whole state as it was and raises no fault; a write to any other register is read
back, and no other register changes. (R27) -/
def Obligations.IndexAndPredicateZero : Prop :=
  (∀ (q : Seq) (v : Dword) (b : Bool), q.xr 0 = 0 ∧ q.pr 0 = true ∧ q.setX 0 v = q ∧ q.setP 0 b = q) ∧
  (∀ (q : Seq) (r k : XReg) (v : Dword), r ≠ 0 → (q.setX r v).xr k = if k = r then v else q.xr k) ∧
  (∀ (q : Seq) (r k : PReg) (v : Bool), r ≠ 0 → (q.setP r v).pr k = if k = r then v else q.pr k) ∧
  (∀ (now : List Eff) (s : State) (e : Eff) (q : SeqId) (v : Dword) (x : Bool), e.op = .setX q 0 v x → State.landOne now s e = s) ∧
  (∀ (now : List Eff) (s : State) (e : Eff) (q : SeqId) (b x : Bool), e.op = .setP q 0 b x → State.landOne now s e = s)

/-- A waiting form (BAR, WAITANY, WAITALL, WAITTL, PITCHW, DRONEW, COLLW and WAITA) that a sequencer in aligned mode
issues raises ILLEGAL, whatever its operands, unless it is squashable and in the shadow of a branch, where it is held.
On an SCL sequencer with an unresolved conditional branch, J, CALL, RET, LOOP, LOOPI, ALIGN, RELAX, BAR, WAIT, JX,
CALLX, END, TRAP, BRK, CHK and every waiting form with SQ = 1 are held: nothing but the note that the form is held,
and its count as issued once, changes. With SQ = 0 they raise ILLEGAL at issue. In free mode a pending register that
the form reads puts either off. That a held form counts as issued on the cycle on which it is first held is log 19
(DEDUCED). (R39; R90; R104; R230; R121; R86; R41) -/
def Obligations.GateOfWaitingAndSerialisingForms : Prop :=
  (∀ (h : Hdr) (s : State), s.me.aligned = true → s.me.wait = none → (h.sq && (s.killing || s.unresolved.isSome)) = false →
    (∀ (xa xt : XReg) (lvl : BitVec 3) (ctx : BitVec 2) (hd : BitVec 6), ∀ i ∈ [Instr.bar h lvl xt, .waitany h xa xt, .waitall h xa xt,
      .waittl h ctx xa xt, .pitchw h xa xt, .dronew h xa xt, .collw h hd xt],
        exec i s = .next (s.raise h 1 { code := .illegal })) ∧
    (∀ (xa xb xt : XReg) (cond : BitVec 3) (size : BitVec 1) (oc : BitVec 4) (ord : BitVec 3),
      exec (.waita h xa xb cond xt size oc ord) s = .next (s.raise h 2 { code := .illegal }))) ∧
  (∀ (h : Hdr) (s : State), s.cur.q = .scl → s.unresolved.isSome = true → s.me.wait = none →
    ∀ (off n : BitVec 21) (lvl ctx : BitVec 2) (xa xb xt : XReg) (len : BitVec 14) (p : PReg) (neg size : BitVec 1) (mask : BitVec 16)
      (count budget : BitVec 32) (seg : BitVec 8) (blvl cond ord : BitVec 3) (hd : BitVec 6) (oc : BitVec 4),
    let x (r : XReg) : Dest := .x s.cur r
    ∀ k ∈ [(Instr.j h off, ([] : List Dest)), (.call h off, []), (.ret h, []), (.relax h, []), (.wait h n, []), (.end_ h, []), (.trap h n, []),
        (.brk h n, []), (.chkF h mask, []), (.loopi h lvl len count, []), (.loop h lvl xa len, [x xa]), (.jx h xa, [x xa]),
        (.callx h xa, [x xa]), (.chkP h p neg, [.p s.cur p]), (.align h lvl seg xa budget, [x xa]), (.bar h blvl xt, [x xt]),
        (.waitany h xa xt, [x xa, x xt]), (.waitall h xa xt, [x xa, x xt]), (.waittl h ctx xa xt, [x xa, x xt]),
        (.pitchw h xa xt, [x xa, x xt]), (.dronew h xa xt, [x xa, x xt]), (.collw h hd xt, [x xt]),
        (.waita h xa xb cond xt size oc ord, [x xa, x xb, x xt])],
      (s.me.aligned = false → (∃ d ∈ k.2, s.pending d = true) → exec k.1 s = .next s) ∧
      (s.me.aligned = true ∨ (∀ d ∈ k.2, s.pending d = false) →
        (h.sq = true → exec k.1 s = .next (s.setMe { s.me with issued := s.me.counted, held := true })) ∧
        (h.sq = false → exec k.1 s = .next (s.raiseAt s.cur s.me.pc s.myNode { code := .illegal }))))

/-- For ADD, SUB and MUL under a true guard, no taken branch resolving: in free mode the form does not issue while a
register it reads or writes has a pending write; in aligned mode it raises TIMING if a register it reads is pending
from a producer without fixed latency, and otherwise issues with the values that the registers hold now, whatever
fixed-latency writes are pending. On the cycle on which a taken branch resolves, a squashable ADDI, SLD, SST, XSET,
FLGCLR or ADD that passes the gate takes its slot and changes nothing else; nor does it report a fault. Raising a
fault adds its cause and changes nothing else, where the form is not squashable or no branch is unresolved; that of a
squashable form in a shadow is held, its form going on without effect, until the cycle on which the last unresolved
branch resolves, where it is raised unless it has been discarded with the killed forms. (R85; R86; R90; R119; R120;
R313) -/
def Obligations.InterlocksAndKilledForms : Prop :=
  (∀ (h : Hdr) (xd xa xb : XReg) (pg : PReg) (s : State), s.pr pg = true → (h.sq && s.killing) = false →
    ∀ k ∈ [(Instr.add h xd xa xb pg, 1, s.xr xa + s.xr xb), (.sub h xd xa xb pg, 1, s.xr xa - s.xr xb), (.mul h xd xa xb pg, 4, s.xr xa * s.xr xb)],
    (s.me.aligned = false → (∃ d ∈ [Dest.p s.cur pg, .x s.cur xa, .x s.cur xb, .x s.cur xd], s.pending d = true) →
      exec k.1 s = .next s) ∧
    (s.me.aligned = true → (∃ d ∈ [Dest.p s.cur pg, .x s.cur xa, .x s.cur xb], s.pendingFree d = true) →
      exec k.1 s = .next (s.raise h 1 { code := .timing })) ∧
    (s.me.aligned = true → (∀ d ∈ [Dest.p s.cur pg, .x s.cur xa, .x s.cur xb], s.pendingFree d = false) →
      exec k.1 s = .next ((s.laterX h xd k.2.1 k.2.2).retire 1 0))) ∧
  ((∀ (h : Hdr) (len : Nat) (r : Raise) (s : State),
    (s.unresolved = none ∨ h.sq = false → s.raise h len r = { s with causes := s.causes ++
      [{ node := s.myNode, rank := (if r.code = .uncorrectable then 2 else 3), unit := s.cur.unit.val, seq := some (s.cur.q, s.me.pc), r := r }] }) ∧
    (∀ b, s.unresolved = some b → h.sq = true → ∃ e : Eff, s.raise h len r = ({ s with effs := s.effs ++ [e] } : State).retire len 0 ∧
      e.at_ = b ∧ e.commit = b ∧ e.sq = true ∧ e.by_ = s.cur ∧ e.pc = s.me.pc ∧ e.node = s.myNode ∧ e.op = .fault r)) ∧
  (∀ (now : List Eff) (s : State) (e : Eff) (r : Raise), e.op = .fault r → State.landOne now s e = s.raiseAt e.by_ e.pc e.node r) ∧
  (∀ (h : Hdr) (s : State) (xd xa xb : XReg) (imm : BitVec 11) (oc : BitVec 4) (ord : BitVec 3) (size seq : BitVec 2) (sx : BitVec 1)
    (mask : BitVec 16) (pg : PReg), h.sq = true → s.killing = true → s.pr pg = true →
    ∀ k ∈ [(Instr.addi h xd xa imm, ({ reads := [.x s.cur xa], writes := [.x s.cur xd] } : Ask)),
      (.sld h xd xa oc ord size sx, { reads := [.x s.cur xa], writes := [.x s.cur xd] }),
      (.sst h xd xa oc ord size sx, { reads := [.x s.cur xa, .x s.cur xd] }),
      (.xset h seq xd xa, { reads := [.x s.cur xa], writes := [.x ⟨s.cur.unit, seqNamed seq.toNat⟩ xd] }),
      (.flgclr h mask, {}),
      (.add h xd xa xb pg, { reads := [.p s.cur pg, .x s.cur xa, .x s.cur xb], writes := [.x s.cur xd] })],
      s.gate h k.2 ≠ .wait → exec k.1 s = .next (s.retire 1 0)))

/-- MOVI and MOVW write the sign-extended immediate, MOVH puts the immediate above the low half of xd, ADDI adds the sign-
extended immediate, ANDI, ORI and XORI combine with the zero-extended one, SHLI, SHRI and SARI shift by it: each write
lands on t + 1, and the sequencer goes on after the one or two words of the form. Under a true guard ADD, SUB, AND,
OR, XOR, SHL, SHR, SAR, MIN, MAX, MINU, MAXU, ANDN, ORN, XNOR, ROL, ROR write xd, on t + 1, with the value of Tables
5-10 and 6-2, shifts and rotations by the six low bits of xb; SETC writes 1 or 0 by its condition; SEL selects by its
predicate. (R105; R107; R106; R110; R116; R117) -/
def Obligations.ImmediateAndIndexForms : Prop :=
  (∀ (h : Hdr) (xd xa : XReg) (s : State),
    (s.issues h { writes := [.x s.cur xd] } → ∀ (i16 : BitVec 16) (i32 : BitVec 32),
      exec (.movi h xd i16) s = .next ((s.laterX h xd 1 (i16.signExtend 64)).retire 1 0) ∧
      exec (.movw h xd i32) s = .next ((s.laterX h xd 1 (i32.signExtend 64)).retire 2 0)) ∧
    (s.issues h { reads := [.x s.cur xd], writes := [.x s.cur xd] } → ∀ (i32 : BitVec 32),
      exec (.movh h xd i32) s = .next ((s.laterX h xd 1 (i32 ++ (s.xr xd).extractLsb' 0 32)).retire 2 0)) ∧
    (s.issues h { reads := [.x s.cur xa], writes := [.x s.cur xd] } → ∀ (i11 : BitVec 11) (i8 : BitVec 8),
      exec (.addi h xd xa i11) s = .next ((s.laterX h xd 1 (s.xr xa + i11.signExtend 64)).retire 1 0) ∧
      exec (.andi h xd xa i8) s = .next ((s.laterX h xd 1 (s.xr xa &&& i8.setWidth 64)).retire 1 0) ∧
      exec (.ori h xd xa i8) s = .next ((s.laterX h xd 1 (s.xr xa ||| i8.setWidth 64)).retire 1 0) ∧
      exec (.xori h xd xa i8) s = .next ((s.laterX h xd 1 (s.xr xa ^^^ i8.setWidth 64)).retire 1 0) ∧
      exec (.shli h xd xa i8) s = .next ((s.laterX h xd 1 (s.xr xa <<< i8.toNat)).retire 1 0) ∧
      exec (.shri h xd xa i8) s = .next ((s.laterX h xd 1 (s.xr xa >>> i8.toNat)).retire 1 0) ∧
      exec (.sari h xd xa i8) s = .next ((s.laterX h xd 1 ((s.xr xa).sshiftRight i8.toNat)).retire 1 0))) ∧
  (∀ (h : Hdr) (xd xa xb : XReg) (pg : PReg) (s : State),
    (s.issuesIf h pg { reads := [.x s.cur xa, .x s.cur xb], writes := [.x s.cur xd] } →
      let a := s.xr xa
      let b := s.xr xb
      exec (.add h xd xa xb pg) s = .next ((s.laterX h xd 1 (a + b)).retire 1 0) ∧
      exec (.sub h xd xa xb pg) s = .next ((s.laterX h xd 1 (a - b)).retire 1 0) ∧
      exec (.and_ h xd xa xb pg) s = .next ((s.laterX h xd 1 (a &&& b)).retire 1 0) ∧
      exec (.or_ h xd xa xb pg) s = .next ((s.laterX h xd 1 (a ||| b)).retire 1 0) ∧
      exec (.xor_ h xd xa xb pg) s = .next ((s.laterX h xd 1 (a ^^^ b)).retire 1 0) ∧
      exec (.shl h xd xa xb pg) s = .next ((s.laterX h xd 1 (a <<< (b.toNat % 64))).retire 1 0) ∧
      exec (.shr h xd xa xb pg) s = .next ((s.laterX h xd 1 (a >>> (b.toNat % 64))).retire 1 0) ∧
      exec (.sar h xd xa xb pg) s = .next ((s.laterX h xd 1 (a.sshiftRight (b.toNat % 64))).retire 1 0) ∧
      exec (.min h xd xa xb pg) s = .next ((s.laterX h xd 1 (if a.toInt < b.toInt then a else b)).retire 1 0) ∧
      exec (.max h xd xa xb pg) s = .next ((s.laterX h xd 1 (if a.toInt < b.toInt then b else a)).retire 1 0) ∧
      exec (.minu h xd xa xb pg) s = .next ((s.laterX h xd 1 (if a.toNat < b.toNat then a else b)).retire 1 0) ∧
      exec (.maxu h xd xa xb pg) s = .next ((s.laterX h xd 1 (if a.toNat < b.toNat then b else a)).retire 1 0) ∧
      exec (.andn h xd xa xb pg) s = .next ((s.laterX h xd 1 (a &&& ~~~b)).retire 1 0) ∧
      exec (.orn h xd xa xb pg) s = .next ((s.laterX h xd 1 (a ||| ~~~b)).retire 1 0) ∧
      exec (.xnor h xd xa xb pg) s = .next ((s.laterX h xd 1 (~~~(a ^^^ b))).retire 1 0) ∧
      exec (.rol h xd xa xb pg) s = .next ((s.laterX h xd 1 (a.rotateLeft (b.toNat % 64))).retire 1 0) ∧
      exec (.ror h xd xa xb pg) s = .next ((s.laterX h xd 1 (a.rotateRight (b.toNat % 64))).retire 1 0) ∧
      (∀ cond : BitVec 3, exec (.setc h xd xa xb pg cond) s = .next ((s.laterX h xd 1 (if condHolds cond a b then 1 else 0)).retire 1 0))) ∧
    (s.issues h { reads := [.x s.cur xa, .x s.cur xb, .p s.cur pg], writes := [.x s.cur xd] } →
      exec (.sel h xd xa xb pg) s = .next ((s.laterX h xd 1 (if s.pr pg then s.xr xa else s.xr xb)).retire 1 0)))

/-- Under a true guard: MUL the low half, MULHS and MULHU the high half of the exact product; IDIV and IDIVU all ones for
a zero divisor, else the quotient rounded toward zero, -2^63 by -1 giving -2^63; IREM and IREMU the dividend for a
zero divisor, else the remainder with the sign of the dividend, 0 for -2^63 by -1. PCMP and PCMPI write the condition
on xa and xb, or on xa and the sign-extended immediate: equal, not equal, signed less, signed not less, unsigned less,
unsigned not less; the logic forms combine pa and pb. Each lands on t + 1. Under a true guard CLZ writes the number n
of zero bits above the highest one (64 for zero), CTZ that below the lowest one, POPC the number of ones, BREV the
value whose bit k is bit 63 - k, BSWAP the value whose byte k is byte 7 - k. (R115; R108; R109; R116) -/
def Obligations.ArithmeticAndBitForms : Prop :=
  (∀ (h : Hdr) (xd xa xb : XReg) (pg : PReg) (s : State),
    s.issuesIf h pg { reads := [.x s.cur xa, .x s.cur xb], writes := [.x s.cur xd] } →
      let a := s.xr xa
      let b := s.xr xb
      exec (.mul h xd xa xb pg) s = .next ((s.laterX h xd 4 (BitVec.ofInt 64 (a.toInt * b.toInt))).retire 1 0) ∧
      exec (.mulhs h xd xa xb pg) s = .next ((s.laterX h xd 4 (BitVec.ofInt 64 ((a.toInt * b.toInt) / 2 ^ 64))).retire 1 0) ∧
      exec (.mulhu h xd xa xb pg) s = .next ((s.laterX h xd 4 (BitVec.ofNat 64 (a.toNat * b.toNat / 2 ^ 64))).retire 1 0) ∧
      (b = 0 →
        exec (.idiv h xd xa xb pg) s = .next ((s.laterX h xd 24 0xFFFFFFFFFFFFFFFF#64).retire 1 0) ∧
        exec (.idivu h xd xa xb pg) s = .next ((s.laterX h xd 24 0xFFFFFFFFFFFFFFFF#64).retire 1 0) ∧
        exec (.irem h xd xa xb pg) s = .next ((s.laterX h xd 24 a).retire 1 0) ∧
        exec (.iremu h xd xa xb pg) s = .next ((s.laterX h xd 24 a).retire 1 0)) ∧
      (b ≠ 0 →
        exec (.idiv h xd xa xb pg) s = .next ((s.laterX h xd 24 (if a = 0x8000000000000000#64 ∧ b = 0xFFFFFFFFFFFFFFFF#64 then
          0x8000000000000000#64 else BitVec.ofInt 64 (a.toInt.tdiv b.toInt))).retire 1 0) ∧
        exec (.irem h xd xa xb pg) s = .next ((s.laterX h xd 24 (if a = 0x8000000000000000#64 ∧ b = 0xFFFFFFFFFFFFFFFF#64 then
          0 else BitVec.ofInt 64 (a.toInt.tmod b.toInt))).retire 1 0) ∧
        exec (.idivu h xd xa xb pg) s = .next ((s.laterX h xd 24 (BitVec.ofNat 64 (a.toNat / b.toNat))).retire 1 0) ∧
        exec (.iremu h xd xa xb pg) s = .next ((s.laterX h xd 24 (BitVec.ofNat 64 (a.toNat % b.toNat))).retire 1 0))) ∧
  ((∀ (h : Hdr) (pd : PReg) (xa xb : XReg) (pa pb : PReg) (imm : BitVec 10) (s : State),
    (s.issues h { reads := [.x s.cur xa, .x s.cur xb], writes := [.p s.cur pd] } →
      let a := s.xr xa
      let b := s.xr xb
      ∀ k ∈ [((0 : BitVec 3), decide (a = b)), (1, decide (a ≠ b)), (2, decide (a.toInt < b.toInt)), (3, decide (b.toInt ≤ a.toInt)),
        (4, decide (a.toNat < b.toNat)), (5, decide (b.toNat ≤ a.toNat))],
        exec (.pcmp h pd xa xb k.1) s = .next ((s.laterP h pd 1 k.2).retire 1 0)) ∧
    (s.issues h { reads := [.x s.cur xa], writes := [.p s.cur pd] } →
      let a := s.xr xa
      let b : Dword := imm.signExtend 64
      ∀ k ∈ [((0 : BitVec 3), decide (a = b)), (1, decide (a ≠ b)), (2, decide (a.toInt < b.toInt)), (3, decide (b.toInt ≤ a.toInt)),
        (4, decide (a.toNat < b.toNat)), (5, decide (b.toNat ≤ a.toNat))],
        exec (.pcmpi h pd xa k.1 imm) s = .next ((s.laterP h pd 1 k.2).retire 1 0)) ∧
    (s.issues h { reads := [.p s.cur pa, .p s.cur pb], writes := [.p s.cur pd] } →
      exec (.pand h pd pa pb) s = .next ((s.laterP h pd 1 (s.pr pa && s.pr pb)).retire 1 0) ∧
      exec (.por h pd pa pb) s = .next ((s.laterP h pd 1 (s.pr pa || s.pr pb)).retire 1 0) ∧
      exec (.pxor h pd pa pb) s = .next ((s.laterP h pd 1 (s.pr pa != s.pr pb)).retire 1 0) ∧
      exec (.pandn h pd pa pb) s = .next ((s.laterP h pd 1 (s.pr pa && !s.pr pb)).retire 1 0))) ∧
  (∀ (h : Hdr) (xd xa : XReg) (pg : PReg) (s : State),
    s.issuesIf h pg { reads := [.x s.cur xa], writes := [.x s.cur xd] } →
      (∃ n : Nat, n ≤ 64 ∧ (∀ k, 64 - n ≤ k → (s.xr xa).getLsbD k = false) ∧ (n < 64 → (s.xr xa).getLsbD (63 - n) = true) ∧
        exec (.clz h xd xa pg) s = .next ((s.laterX h xd 1 (BitVec.ofNat 64 n)).retire 1 0)) ∧
      (∃ n : Nat, n ≤ 64 ∧ (∀ k, k < n → (s.xr xa).getLsbD k = false) ∧ (n < 64 → (s.xr xa).getLsbD n = true) ∧
        exec (.ctz h xd xa pg) s = .next ((s.laterX h xd 1 (BitVec.ofNat 64 n)).retire 1 0)) ∧
      exec (.popc h xd xa pg) s =
        .next ((s.laterX h xd 1 (BitVec.ofNat 64 ((List.range 64).countP (fun k => (s.xr xa).getLsbD k)))).retire 1 0) ∧
      (∃ v : Dword, (∀ k, k < 64 → v.getLsbD k = (s.xr xa).getLsbD (63 - k)) ∧
        exec (.brev h xd xa pg) s = .next ((s.laterX h xd 1 v).retire 1 0)) ∧
      (∃ v : Dword, (∀ k j, k < 8 → j < 8 → v.getLsbD (8 * k + j) = (s.xr xa).getLsbD (8 * (7 - k) + j)) ∧
        exec (.bswap h xd xa pg) s = .next ((s.laterX h xd 1 v).retire 1 0))))

/-- NOP goes on after one word; WAIT goes on n cycles later; RELAX leaves aligned mode; J, CALL and JX, CALLX go to pc + 4
times the signed offset or to xa, the calls push pc + 4 where fewer than eight addresses stand on the return stack and
raise CALL_DEPTH else; RET pops, or raises RET_EMPTY; JX and CALLX to a target that is no multiple of four raise
ALIGNMENT with the target as its address, before the check of the stack. (R98; R100; R101; R103; R123) -/
def Obligations.ControlTransfers : Prop :=
  ∀ (h : Hdr) (s : State),
    (s.issues h {} → exec (.nop h) s = .next (s.retire 1 0)) ∧
    (s.issues h { serial := true } →
      (∀ n : BitVec 21, exec (.wait h n) s = .next (s.retire 1 n.toNat)) ∧
      (s.me.aligned = false → exec (.relax h) s = .next (s.retire 1 0)) ∧
      (s.me.aligned = true → exec (.relax h) s =
        .next (s.setMe ({ s.me with aligned := false, seg := 0 }.advance 1 0 s.cyc))) ∧
      (∀ off : BitVec 21,
        exec (.j h off) s = .next (s.setMe (s.me.goto_ (s.me.pc + 4 * off.signExtend 64) s.cyc)) ∧
        (s.me.stack.length < 8 → exec (.call h off) s =
          .next (s.setMe ({ s.me with stack := (s.me.pc + 4) :: s.me.stack }.goto_ (s.me.pc + 4 * off.signExtend 64) s.cyc))) ∧
        (8 ≤ s.me.stack.length → exec (.call h off) s = .next (s.raise h 1 { code := .callDepth }))) ∧
      (∀ r rs, s.me.stack = r :: rs → exec (.ret h) s = .next (s.setMe ({ s.me with stack := rs }.goto_ r s.cyc))) ∧
      (s.me.stack = [] → exec (.ret h) s = .next (s.raise h 1 { code := .retEmpty }))) ∧
    (∀ xa : XReg, s.issues h { reads := [.x s.cur xa], serial := true } →
      ((s.xr xa).toNat % 4 ≠ 0 →
        exec (.jx h xa) s = .next (s.raise h 1 { code := .alignment, addr := (s.xr xa).toNat }) ∧
        exec (.callx h xa) s = .next (s.raise h 1 { code := .alignment, addr := (s.xr xa).toNat })) ∧
      ((s.xr xa).toNat % 4 = 0 →
        exec (.jx h xa) s = .next (s.setMe (s.me.goto_ (s.xr xa) s.cyc)) ∧
        (s.me.stack.length < 8 → exec (.callx h xa) s =
          .next (s.setMe ({ s.me with stack := (s.me.pc + 4) :: s.me.stack }.goto_ (s.xr xa) s.cyc))) ∧
        (8 ≤ s.me.stack.length → exec (.callx h xa) s = .next (s.raise h 1 { code := .callDepth }))))

/-- LOOP takes its count from xa, LOOPI from its second word: a count of zero goes to the word after the body; any other
count makes the level active, at iteration 0, with its first word after the instruction, its last word len words on,
started most recently of all; and goes on at the first word. The other levels keep their fields. Where exactly one
active level ends in the instruction of one word at pc: with its iteration number plus one below its count, the number
counts up and the next instruction is the first word; else the level becomes inactive and the next word follows. Of
two levels that share it, the one started most recently is looked at first: while it goes on the other stays; when it
ends the other is looked at. Where no active level ends there, nothing but the program counter, the base cycle and the
issue count changes. A branch that was taken while the instruction waited goes to its target instead (log 19,
DEDUCED), and a wait makes its end check when it ends (log 28, DEDUCED). (R96; R102; R97; R118; R119) -/
def Obligations.LoopForms : Prop :=
  (∀ (h : Hdr) (lvl : BitVec 2) (xa : XReg) (len : BitVec 14) (count : BitVec 32) (s : State),
    ∀ k ∈ [(Instr.loop h lvl xa len, ({ reads := [.x s.cur xa], serial := true } : Ask), s.xr xa, s.me.pc + 4),
           (Instr.loopi h lvl len count, { serial := true }, count.setWidth 64, s.me.pc + 8)],
    s.issues h k.2.1 →
      (k.2.2.1 = 0 → exec k.1 s = .next (s.setMe (s.me.goto_ (k.2.2.2 + BitVec.ofNat 64 (4 * len.toNat)) s.cyc))) ∧
      (k.2.2.1 ≠ 0 → ∃ q : Seq, exec k.1 s = .next (s.setMe q) ∧ q.pc = k.2.2.2 ∧ q.base = s.cyc + 1 ∧
        q.loops.get lvl.toFin = { active := true, lc := 0, count := k.2.2.1, start := k.2.2.2
                                  last := k.2.2.2 + BitVec.ofNat 64 (4 * (len.toNat - 1)), order := s.me.starts + 1 } ∧
        q.starts = s.me.starts + 1 ∧
        (∀ l, l ≠ lvl.toFin → q.loops.get l = s.me.loops.get l) ∧ (∀ r, q.xr r = s.me.xr r) ∧ (∀ r, q.pr r = s.me.pr r) ∧
        q.stack = s.me.stack)) ∧
  (∀ (q : Seq) (cyc : Nat),
    ((∀ l, (q.loops.get l).active = false ∨ (q.loops.get l).last ≠ q.pc) → q.wait = none → q.held = false → q.after = none →
      q.advance 1 0 cyc = { q with pc := q.pc + 4, base := cyc + 1, issued := q.issued + 1 }) ∧
    (∀ l, q.after = none → (q.loops.get l).active = true → (q.loops.get l).last = q.pc →
      (∀ k, k ≠ l → (q.loops.get k).active = false ∨ (q.loops.get k).last ≠ q.pc) →
      ((q.loops.get l).lc.toNat + 1 < (q.loops.get l).count.toNat →
        (q.advance 1 0 cyc).pc = (q.loops.get l).start ∧
        (q.advance 1 0 cyc).loops.get l = { q.loops.get l with lc := (q.loops.get l).lc + 1 }) ∧
      ((q.loops.get l).count.toNat ≤ (q.loops.get l).lc.toNat + 1 →
        (q.advance 1 0 cyc).pc = q.pc + 4 ∧
        (q.advance 1 0 cyc).loops.get l = { q.loops.get l with active := false }) ∧
      (∀ k, k ≠ l → (q.advance 1 0 cyc).loops.get k = q.loops.get k)) ∧
    (∀ l k, q.after = none → l ≠ k → (q.loops.get l).active = true → (q.loops.get l).last = q.pc → (q.loops.get k).active = true → (q.loops.get k).last = q.pc →
      (q.loops.get k).order < (q.loops.get l).order → (∀ j, j ≠ l → j ≠ k → (q.loops.get j).active = false ∨ (q.loops.get j).last ≠ q.pc) →
      let r := q.advance 1 0 cyc
      ((q.loops.get l).lc.toNat + 1 < (q.loops.get l).count.toNat → r.pc = (q.loops.get l).start ∧
        r.loops.get l = { q.loops.get l with lc := (q.loops.get l).lc + 1 } ∧ r.loops.get k = q.loops.get k) ∧
      ((q.loops.get l).count.toNat ≤ (q.loops.get l).lc.toNat + 1 → r.loops.get l = { q.loops.get l with active := false } ∧
        ((q.loops.get k).lc.toNat + 1 < (q.loops.get k).count.toNat → r.pc = (q.loops.get k).start ∧
          r.loops.get k = { q.loops.get k with lc := (q.loops.get k).lc + 1 }) ∧
        ((q.loops.get k).count.toNat ≤ (q.loops.get k).lc.toNat + 1 → r.pc = q.pc + 4 ∧ r.loops.get k = { q.loops.get k with active := false }))) ∧
    (∀ a, q.after = some a → (q.advance 1 0 cyc).pc = a ∧ (q.advance 1 0 cyc).after = none))

/-- An ALIGN of a core that runs a node, whose checks pass, stays at its address with a wait for the release, leaves the
segment, and is entered among the arrivals of the node. When after it the rendezvous of level 0, 1 or 2 is full, the
release of its members is due 16, 64 or 256 cycles later; the first arrival at a group rendezvous makes the release
due at its drone instant. An ALIGN whose check fails raises that fault: PROTECTION for a sequencer that is no member;
TIMING where its segment id is not that of the first arrival of its rendezvous, and at group level where its instant
is not that of the first arrival or less than 50,000 ns away. The release of a rendezvous of level 0, 1 or 2, or of a
group rendezvous on its instant where every member and every announcement has come and the slip and the fill of the
ports are in range, ends the ALIGN of every member that waits in one: it is aligned, in the segment, goes on after the
two words, may issue from this cycle on, and its deadline is due the budget of its ALIGN later. Every other sequencer
keeps its state. At a group rendezvous that fails, the slip check, the fill check or a missing announcement raises
TIMING for every member of the package, a missing member for those that have arrived, and nothing else changes. On the
deadline of a segment that the sequencer has not left, DEADLINE is raised for its next instruction; a segment that was
left does nothing. (R87; R88; R103; R89; R284) -/
def Obligations.AlignForms : Prop :=
  (∀ (h : Hdr) (lvl : BitVec 2) (seg : BitVec 8) (xa : XReg) (budget : BitVec 32) (s : State) (nd : Nat) (n : Node),
    s.me.wait = none → s.issues h { reads := [.x s.cur xa], serial := true } → s.here.node = some nd → s.node? nd = some n →
    let k := s.me.aligns.get lvl.toFin
    (∀ r, s.alignCheck n lvl.toNat k seg (s.xr xa) = some r → exec (.align h lvl seg xa budget) s = .next (s.raise h 2 r)) ∧
    (s.alignCheck n lvl.toNat k seg (s.xr xa) = none →
      ∃ t m, exec (.align h lvl seg xa budget) s = .next t ∧ t.me.pc = s.me.pc ∧ t.me.aligned = false ∧ t.me.seg = 0 ∧
        t.me.wait = some { t0 := s.cyc, tmo := 0, what := .align lvl.toNat seg budget } ∧
        t.me.aligns.get lvl.toFin = k + 1 ∧
        t.node? nd = some m ∧ m.arrived = n.arrived ++ [⟨s.cur, false, lvl.toNat, k, seg, s.xr xa, s.cyc, budget⟩] ∧
        (∀ q, q ≠ s.cur → t.seq q = s.seq q) ∧
        (lvl.toNat < 3 → t.foldFull m s.cur.unit false lvl.toNat k = true → ∃ e ∈ t.agenda,
          e.due = .cyc (s.cyc + [16, 64, 256].getD lvl.toNat 0) ∧ e.ev = .alignRelease (t.members m s.cur.unit lvl.toNat) lvl.toNat k) ∧
        (lvl.toNat = 3 → n.arrived.any (fun a => !a.bar && a.lvl == 3 && a.k == k) = false →
          ∃ e ∈ t.agenda, e.due = .ns (s.xr xa).toNat ∧ e.ev = .alignRelease [s.cur] 3 k)) ∧
    (s.isMember n s.cur lvl.toNat = false → s.alignCheck n lvl.toNat k seg (s.xr xa) = some { code := .protection }) ∧
    (s.isMember n s.cur lvl.toNat = true →
      let first := n.arrived.find? (fun a => !a.bar && a.lvl == lvl.toNat && a.k == k && (s.members n s.cur.unit lvl.toNat).contains a.who)
      let ok : Prop := (∀ a, first = some a → a.seg = seg) ∧
        (lvl.toNat = 3 → s.drone + 50000 ≤ (s.xr xa).toNat ∧ ∀ a, first = some a → a.d = s.xr xa)
      (ok → s.alignCheck n lvl.toNat k seg (s.xr xa) = none) ∧ (¬ ok → s.alignCheck n lvl.toNat k seg (s.xr xa) = some { code := .timing }))) ∧
  ((∀ (q : SeqId) (k nd : Nat) (n : Node) (a : Arrived) (s : State), (s.core q.unit).node = some nd → s.node? nd = some n →
    n.arrival q false 3 k = some a →
    let off : Prop := 64 < s.n65 / 65 - s.cyc ∨ ∃ p : PortId, (s.port p).up = true ∧ ((s.port p).fill < 96 ∨ 160 < (s.port p).fill)
    let missing : Prop := ∃ r, r < n.size ∧ r ≠ n.rank ∧ ∀ x ∈ n.announced, ¬ (x.1 = false ∧ x.2.1 = r ∧ x.2.2.1 = k)
    let full : Prop := s.foldFull n q.unit false 3 k = true ∧ n.announcedAll false k a.d = true
    let timing (x : SeqId) : Cause := { node := n.nd, rank := 3, unit := x.unit.val, seq := some (x.q, (s.seq x).pc), r := { code := .timing } }
    (off ∨ missing → exec (.alignRelease [q] 3 k) s = .next { s with causes := s.causes ++ (s.members n q.unit 3).map timing }) ∧
    (¬ full → ¬ off → ¬ missing → exec (.alignRelease [q] 3 k) s = .next { s with
      causes := s.causes ++ (n.arrived.filter (fun x => !x.bar && x.lvl == 3 && x.k == k)).map (fun x => timing x.who) })) ∧
  ∀ (who : List SeqId) (lvl k : Nat) (s : State) (i : Instr),
    ((lvl < 3 ∧ i = .alignRelease who lvl k) ∨
      (lvl = 3 ∧ ∃ q nd n a, i = .alignRelease [q] 3 k ∧ (s.core q.unit).node = some nd ∧ s.node? nd = some n ∧ n.arrival q false 3 k = some a ∧
        s.foldFull n q.unit false 3 k = true ∧ n.announcedAll false k a.d = true ∧ s.n65 / 65 - s.cyc ≤ 64 ∧
        (∀ p : PortId, (s.port p).up = true → 96 ≤ (s.port p).fill ∧ (s.port p).fill ≤ 160) ∧ who = s.members n q.unit 3)) → who.Nodup →
    ∃ t, exec i s = .next t ∧
      (∀ q ∈ who, ∀ (w : Wait) (l : Nat) (seg : BitVec 8) (budget : Word), (s.seq q).wait = some w → w.what = .align l seg budget →
        (t.seq q).aligned = true ∧ (t.seq q).seg = seg ∧ (t.seq q).lvl = l ∧ (t.seq q).wait = none ∧ (t.seq q).base = s.cyc ∧
        (t.seq q).pc = ((s.seq q).advance 2 0 s.cyc).pc ∧ (t.seq q).deadline = s.cyc + budget.toNat ∧
        ∃ e ∈ t.agenda, e.due = .cyc (s.cyc + budget.toNat) ∧ e.ev = .segmentDeadline q (t.seq q).serial) ∧
      (∀ q, q ∉ who → t.seq q = s.seq q)) ∧
  (∀ (q : SeqId) (serial : Nat) (s : State),
    ((s.seq q).aligned = true → (s.seq q).serial = serial →
      exec (.segmentDeadline q serial) s = .next (s.addCause
        { node := (s.core q.unit).node.getD 0, rank := 3, unit := q.unit.val, seq := some (q.q, (s.seq q).pc), r := { code := .deadline } })) ∧
    ((s.seq q).aligned = false ∨ (s.seq q).serial ≠ serial → exec (.segmentDeadline q serial) s = .next s))

/-- BAR 0 goes on with its phase bit flipped. BAR of level 1 to 4 by a member of the fold waits, stays at its address, and
is entered among the arrivals; when it is the last of a fold of the package, the completion is due 8, 32 or 128 cycles
later (log 6, a choice for the levels that may be later); the last of a group fold, or the last announcement that
comes after it, makes it due no earlier than the latest arrival plus 128. By another sequencer it raises PROTECTION.
The completion ends the BAR of every waiting member and flips the bit of the level once in each of their cores, and no
other phase bit. On the timeout of the wait it was set for, a wait that is not met and has no read in flight raises
WAIT_TIMEOUT for its instruction; a squashable one in the shadow of a branch ends its wait, and its fault is held
until the last branch resolves; a wait that is over or met does nothing. An announcement is added to those of the
group node that runs, or else is launched; without such a node it is kept for the next launch (log 29, DEDUCED); that
of an ALIGN is looked at again on its instant. (R95; R104; 05 Table 5-7; log 6; R88; R230) -/
def Obligations.BarFormsAndTimeouts : Prop :=
  ((∀ (h : Hdr) (lvl : BitVec 3) (xt : XReg) (s : State), s.me.wait = none →
    s.issues h { reads := [.x s.cur xt], waiting := true, serial := true } →
    (lvl = 0 → ∃ t, exec (.bar h lvl xt) s = .next t ∧ t.me.phase = (!s.me.phase) ∧ t.me.pc = (s.me.advance 1 0 s.cyc).pc ∧
      (∀ q, q ≠ s.cur → t.seq q = s.seq q)) ∧
    (∀ nd n, 1 ≤ lvl.toNat → lvl.toNat ≤ 4 → s.here.node = some nd → s.node? nd = some n →
      (s.isMember n s.cur (lvl.toNat - 1) = false → exec (.bar h lvl xt) s = .next (s.raise h 1 { code := .protection })) ∧
      (s.isMember n s.cur (lvl.toNat - 1) = true → ∃ t m, exec (.bar h lvl xt) s = .next t ∧ t.me.pc = s.me.pc ∧
        t.me.wait = some { t0 := s.cyc, tmo := (s.xr xt).toNat, what := .bar lvl.toNat, sq := h.sq } ∧
        t.node? nd = some m ∧
        m.arrived = n.arrived ++ [⟨s.cur, true, lvl.toNat - 1, s.me.bars.get (Fin.ofNat 5 lvl.toNat), 0, 0, s.cyc, 0⟩] ∧
        (t.foldFull m s.cur.unit true (lvl.toNat - 1) (s.me.bars.get (Fin.ofNat 5 lvl.toNat)) = true →
          (lvl.toNat ≤ 3 → ∃ e ∈ t.agenda, e.due = .cyc (s.cyc + [8, 32, 128].getD (lvl.toNat - 1) 0) ∧
            e.ev = .barComplete (t.members m s.cur.unit (lvl.toNat - 1)) lvl.toNat) ∧
          (lvl.toNat = 4 → m.announcedAll true (s.me.bars.get 4) 0 = true → ∃ e ∈ t.agenda, ∃ c, s.cyc + 128 ≤ c ∧ e.due = .cyc c ∧
            e.ev = .barComplete (t.members m s.cur.unit 3) 4))))) ∧
  (∀ (rank k : Nat) (d : Dword) (s : State) (n m : Node) (a : Arrived), s.errV = false → s.announcedNode = some n → s.node? n.nd = some n →
    m = { n with announced := n.announced ++ [(true, rank, k, d)] } →
    m.arrived.find? (fun a => a.bar == true && a.lvl == 3 && a.k == k) = some a →
    (s.modNode n.nd (fun x => { x with announced := x.announced ++ [(true, rank, k, d)] })).foldFull m a.who.unit true 3 k = true →
    m.announcedAll true k 0 = true →
    ∃ t e c, exec (.groupAnnouncement rank k d true) s = .next t ∧ e ∈ t.agenda ∧ e.due = .cyc c ∧ s.cyc ≤ c ∧
      (∀ x ∈ n.arrived, x.bar = true → x.lvl = 3 → x.k = k → x.at_ + 128 ≤ c) ∧ ∃ who, e.ev = .barComplete who 4 ∧ who = s.members n a.who.unit 3) ∧
  (∀ (who : List SeqId) (lvl : Nat) (s : State), who.Nodup → 1 ≤ lvl → lvl ≤ 4 →
    ∃ t, exec (.barComplete who lvl) s = .next t ∧
      (∀ q ∈ who, ∀ (w : Wait) (l : Nat), (s.seq q).wait = some w → w.what = .bar l →
        (t.seq q).wait = none ∧ (t.seq q).pc = ((s.seq q).advance 1 0 s.cyc).pc) ∧
      (∀ q ∈ who, (t.core q.unit).phases.get (Fin.ofNat 4 (lvl - 1)) = !((s.core q.unit).phases.get (Fin.ofNat 4 (lvl - 1)))) ∧
      (∀ (u : UnitId) (i : Fin 4), (i ≠ Fin.ofNat 4 (lvl - 1) ∨ ∀ q ∈ who, q.unit ≠ u) →
        (t.core u).phases.get i = (s.core u).phases.get i))) ∧
  ((∀ (q : SeqId) (w : Wait) (s : State), (s.seq q).wait = some w →
    (s.waitMet q w.what = false → (∀ a v c wd oc ord r m, w.what ≠ .word a v c wd oc ord r true m) →
      (w.sq = false ∨ q.q ≠ .scl ∨ (s.core q.unit).lastBranch = none) → exec (.waitTimeout q w.t0) s = .next (s.addCause
        { node := (s.core q.unit).node.getD 0, rank := 3, unit := q.unit.val, seq := some (q.q, (s.seq q).pc)
          r := { code := .waitTimeout } })) ∧
    (s.waitMet q w.what = false → (∀ a v c wd oc ord r m, w.what ≠ .word a v c wd oc ord r true m) →
      ∀ b, w.sq = true → q.q = .scl → (s.core q.unit).lastBranch = some b →
      ∃ t e, exec (.waitTimeout q w.t0) s = .next t ∧ t.causes = s.causes ∧ (t.seq q).wait = none ∧ t.effs = s.effs ++ [e] ∧
        e.at_ = b ∧ e.by_ = q ∧ e.sq = true ∧ e.commit = b ∧ e.op = .fault { code := .waitTimeout }) ∧
    (s.waitMet q w.what = true → exec (.waitTimeout q w.t0) s = .next s) ∧
    (∀ t0, t0 ≠ w.t0 → exec (.waitTimeout q t0) s = .next s)) ∧
  (∀ (q : SeqId) (t0 : Nat) (s : State), (s.seq q).wait = none → exec (.waitTimeout q t0) s = .next s) ∧
  (∀ (rank k : Nat) (d : Dword) (bar : Bool) (s : State), s.errV = false →
    (s.announcedNode = none → exec (.groupAnnouncement rank k d bar) s =
      .next { (if bar then s else s.postAt (.ns d.toNat) (.alignRelease [] 3 k)) with group := { s.group with early := s.group.early ++ [(bar, rank, k, d)] } }) ∧
    (∀ n, s.announcedNode = some n → s.node? n.nd = some n →
      ∃ t m, exec (.groupAnnouncement rank k d bar) s = .next t ∧ t.node? n.nd = some m ∧
        m.announced = n.announced ++ [(bar, rank, k, d)] ∧ t.cores = s.cores ∧
        (bar = false → ∃ e ∈ t.agenda, e.due = .ns d.toNat ∧ e.ev = .alignRelease [] 3 k))))

/-- MFS and RDT, RDC, RDSLIP, FLGRD read the values of Table 2-6 into xd on t + 1: cycle count, drone time, slip, pitch
and epoch, tags, FOLD, PHASE, FLAGS (of a compute core), NODE, SHP, the identity, ATTEMPT, mode and segment, the
timeline counters; PITCHQ the pitch status. MTS writes SHP, or clears flags, from t + 2 on; FLGCLR clears flags;
FLGTST writes whether a flag of the mask is set; XSET and XSETP write a register of LD, CMP or ST of the core on t +
4. A write to i0 that lands changes nothing. (R32; R111; R112; R287; R288; R337; 02 Table 2-6; 13 Table 13-5) -/
def Obligations.SpecialRegisterForms : Prop :=
  ∀ (h : Hdr) (xd xa : XReg) (pd ps : PReg) (s : State),
    (s.issues h { writes := [.x s.cur xd] } →
      (∀ k ∈ [((0x000 : BitVec 12), BitVec.ofNat 64 s.cyc), (0x001, BitVec.ofNat 64 s.drone),
          (0x002, BitVec.ofNat 64 (s.n65 / 65 - s.cyc)), (0x003, BitVec.ofNat 64 (s.pitch % 2 ^ 10 + s.epoch.toNat * 2 ^ 32)),
          (0x004, s.here.tags), (0x005, s.here.fold &&& 0x001FFFFFFFFF0FFF), (0x006, s.here.phaseBits s.me.phase),
          (0x008, s.here.nodeId),
          (0x00A, BitVec.ofNat 64 (s.cur.unit.val + seqNum s.cur.q * 2 ^ 8)), (0x00B, s.here.attempt.setWidth 64),
          (0x00C, if s.me.aligned then BitVec.ofNat 64 (1 + s.me.seg.toNat * 2 ^ 8) else 0),
          (0x010, s.here.tlc.get 0), (0x011, s.here.tlc.get 1), (0x012, s.here.tlc.get 2), (0x013, s.here.tlc.get 3)],
        exec (.mfs h xd k.1) s = .next ((s.laterX h xd 1 k.2).retire 1 0)) ∧
      exec (.rdt h xd) s = .next ((s.laterX h xd 1 (BitVec.ofNat 64 s.drone)).retire 1 0) ∧
      exec (.rdc h xd) s = .next ((s.laterX h xd 1 (BitVec.ofNat 64 s.cyc)).retire 1 0) ∧
      exec (.rdslip h xd) s = .next ((s.laterX h xd 1 (BitVec.ofNat 64 (s.n65 / 65 - s.cyc))).retire 1 0) ∧
      exec (.pitchq h xd) s = .next ((s.laterX h xd 1 s.pitchStatus).retire 1 0) ∧
      (isShep s.cur.unit = false →
        exec (.mfs h xd 0x007) s = .next ((s.laterX h xd 1 (s.here.flags.setWidth 64)).retire 1 0) ∧
        exec (.flgrd h xd) s = .next ((s.laterX h xd 1 (s.here.flags.setWidth 64)).retire 1 0))) ∧
    (s.issues h { writes := [.x s.cur xd] } →
      exec (.mfs h xd 0x009) s = .next ((s.laterX h xd 1 (s.here.shp.setWidth 64)).retire 1 0)) ∧
    (s.issues h { reads := [.x s.cur xa] } →
      exec (.mts h xa 0x009) s =
        .next ((s.later h (s.cyc + 2) true true (.setShp s.cur.unit ((s.xr xa).setWidth 8))).retire 1 0)) ∧
    (s.issues h { reads := [.x s.cur xa] } → isShep s.cur.unit = false → exec (.mts h xa 0x007) s =
      .next ((s.later h (s.cyc + 2) true true (.clearFlags s.cur.unit ((s.xr xa).setWidth 16))).retire 1 0)) ∧
    (∀ mask : BitVec 16, isShep s.cur.unit = false →
      (s.issues h {} →
        exec (.flgclr h mask) s = .next ((s.later h (s.cyc + 2) false true (.clearFlags s.cur.unit mask)).retire 1 0)) ∧
      (s.issues h { writes := [.p s.cur pd] } →
        exec (.flgtst h pd mask) s = .next ((s.laterP h pd 1 (s.here.flags &&& mask != 0)).retire 1 0))) ∧
    (∀ k ∈ [((1 : BitVec 2), SeqName.ld), (2, .cmp), (3, .st)],
      (s.issues h { reads := [.x s.cur xa], writes := [.x ⟨s.cur.unit, k.2⟩ xd] } →
        exec (.xset h k.1 xd xa) s =
          .next ((s.later h (s.cyc + 4) true true (.setX ⟨s.cur.unit, k.2⟩ xd (s.xr xa) true)).retire 1 0)) ∧
      (s.issues h { reads := [.p s.cur ps], writes := [.p ⟨s.cur.unit, k.2⟩ pd] } →
        exec (.xsetp h k.1 pd ps) s =
          .next ((s.later h (s.cyc + 4) true true (.setP ⟨s.cur.unit, k.2⟩ pd (s.pr ps) true)).retire 1 0))) ∧
    (∀ (now : List Eff) (e : Eff) (q : SeqId) (v : Dword) (x : Bool), e.op = .setX q 0 v x → State.landOne now s e = s)

/-- BR, BEQZ, BNEZ, BLTZ and BGEZ go on after their word with an unresolved branch of their condition and target, due
three cycles later. On its resolution a branch of a core whose node is not halted is resolved; not taken it changes no
operation in flight; taken it redirects the SCL to its target and removes every squashable SCL operation that has not
committed, and no other operation; the orders of its squashable FENCEs and DRAINs that have not committed, a
squashable wait, and every squashable branch still unresolved, go with them. A branch that was killed resolves to
nothing. (R118; R119) -/
def Obligations.BranchForms : Prop :=
  (∀ (h : Hdr) (s : State),
    (∀ (p : PReg) (neg : BitVec 1) (off : BitVec 17), s.issues h { reads := [.p s.cur p] } →
      ∃ t, exec (.br h p neg off) s = .next t ∧ t.me.pc = (s.me.advance 1 0 s.cyc).pc ∧
        t.me.branches = s.me.branches ++
          [{ id := s.serial, at_ := s.cyc + 3, taken := (s.pr p != (neg == 1)), target := s.me.pc + 4 * off.signExtend 64, sq := h.sq }] ∧
        (∃ e ∈ t.agenda, e.due = .cyc (s.cyc + 3) ∧ e.ev = .branchResolve s.cur.unit s.serial) ∧ t.effs = s.effs) ∧
    (∀ (xa : XReg) (off : BitVec 14), s.issues h { reads := [.x s.cur xa] } →
      let v := (s.xr xa).toInt
      ∀ k ∈ [(Instr.beqz h xa off, decide (v = 0)), (.bnez h xa off, decide (v ≠ 0)), (.bltz h xa off, decide (v < 0)),
             (.bgez h xa off, decide (0 ≤ v))],
      ∃ t, exec k.1 s = .next t ∧ t.me.pc = (s.me.advance 1 0 s.cyc).pc ∧
        t.me.branches = s.me.branches ++
          [{ id := s.serial, at_ := s.cyc + 3, taken := k.2, target := s.me.pc + 4 * off.signExtend 64, sq := h.sq }] ∧
        (∃ e ∈ t.agenda, e.due = .cyc (s.cyc + 3) ∧ e.ev = .branchResolve s.cur.unit s.serial) ∧ t.effs = s.effs)) ∧
  (∀ (u : UnitId) (id : Nat) (s : State),
    ((s.core u).scl.branches.find? (fun b => b.id == id) = none → exec (.branchResolve u id) s = .next s) ∧
    (∀ b, (s.core u).scl.branches.find? (fun b => b.id == id) = some b →
      (∀ nd n, (s.core u).node = some nd → s.node? nd = some n → n.state ≠ .halted) →
      ∃ t, exec (.branchResolve u id) s = .next t ∧ (t.core u).scl.resolved = some s.cyc ∧
        (b.taken = true → (t.core u).scl.redirect = some b.target ∧
          (∀ e, e ∈ t.effs ↔ e ∈ s.effs ∧ ¬ (e.by_ = ⟨u, .scl⟩ ∧ e.sq = true ∧ s.cyc ≤ e.commit)) ∧
          (∀ m, m ∈ (t.core u).scl.marks ↔ m ∈ (s.core u).scl.marks ∧ ¬ (m.sq = true ∧ s.cyc ≤ m.commit)) ∧
          (∀ w, (s.core u).scl.wait = some w → (t.core u).scl.wait = if w.sq then none else some w)) ∧
        (t.core u).scl.branches = (s.core u).scl.branches.filter (fun x => x.id != id && !(b.taken && x.sq)) ∧
        (b.taken = false → t.effs = s.effs ∧ (t.core u).scl.redirect = (s.core u).scl.redirect) ∧
        (∀ v, v ≠ u → t.core v = s.core v)))

/-- A waiting form in free mode whose condition holds on its issue cycle goes on; else the stream stays at it with the
wait recorded, and, for a timeout other than zero, the timeout due that many cycles later. Conditions: any, all tags
of the mask set; counter at or above the count; the current epoch 1 to 2^31 - 1 after that of xa, modulo 2^32; drone
time at or above the instant; handle idle or complete. While it waits it goes on in the first turn in which its
condition holds; a wait on tags whose timeout has come on the cycle of a completion that a new copy has undone raises
WAIT_TIMEOUT, or holds it where it is squashable in a shadow; else nothing changes. The drone instant of a DRONEW ends
its wait, and no other event of it does. (R104; R207; R230; R232; R264; R289) -/
def Obligations.WaitForms : Prop :=
  (∀ (h : Hdr) (xa xt : XReg) (ctx : BitVec 2) (hd : BitVec 6) (s : State),
    ∀ k ∈ [(Instr.waitany h xa xt, [Dest.x s.cur xa, .x s.cur xt], WaitFor.tags false (s.xr xa), s.here.tags &&& s.xr xa != 0),
           (.waitall h xa xt, [Dest.x s.cur xa, .x s.cur xt], .tags true (s.xr xa), s.here.tags &&& s.xr xa == s.xr xa),
           (.waittl h ctx xa xt, [Dest.x s.cur xa, .x s.cur xt], .timeline ctx (s.xr xa),
             decide ((s.xr xa).toNat ≤ (s.here.tlc.get ctx.toFin).toNat)),
           (.pitchw h xa xt, [Dest.x s.cur xa, .x s.cur xt], .pitch ((s.xr xa).setWidth 32),
             decide (1 ≤ (s.epoch - (s.xr xa).setWidth 32 : Word).toNat ∧ (s.epoch - (s.xr xa).setWidth 32 : Word).toNat ≤ 2 ^ 31 - 1)),
           (.dronew h xa xt, [Dest.x s.cur xa, .x s.cur xt], .drone (s.xr xa), decide ((s.xr xa).toNat ≤ s.drone)),
           (.collw h hd xt, [Dest.x s.cur xt], .handle hd.toFin, !(s.here.handles.get hd.toFin).busy)],
    ((∀ x y, k.1 = .collw h x y → s.offFabric = false) → s.me.wait = none →
      s.issues h { reads := k.2.1, waiting := true, serial := true } →
      (k.2.2.2 = true → exec k.1 s = .next (s.retire 1 0)) ∧
      (k.2.2.2 = false → ∃ t, exec k.1 s = .next t ∧ t.me.pc = s.me.pc ∧
        t.me.wait = some { t0 := s.cyc, tmo := (s.xr xt).toNat, what := k.2.2.1, sq := h.sq } ∧
        (s.xr xt ≠ 0 → ∃ e ∈ t.agenda, e.due = .cyc (s.cyc + (s.xr xt).toNat) ∧ e.ev = .waitTimeout s.cur s.cyc) ∧
        (∀ d, k.2.2.1 = .drone d → ∃ e ∈ t.agenda, e.due = .ns d.toNat ∧ e.ev = .droneInstantReached s.cur s.cyc) ∧
        (∀ q, q ≠ s.cur → t.seq q = s.seq q))) ∧
    (∀ w, s.me.wait = some w →
      (∀ met : Bool,
        ((∃ m, w.what = .tags false m ∧ met = (s.here.tags &&& m != 0)) ∨ (∃ m, w.what = .tags true m ∧ met = (s.here.tags &&& m == m)) ∨
          (∃ c v, w.what = .timeline c v ∧ met = decide (v.toNat ≤ (s.here.tlc.get c.toFin).toNat)) ∨
          (∃ v, w.what = .pitch v ∧ met = decide (1 ≤ (s.epoch - v).toNat ∧ (s.epoch - v).toNat ≤ 2 ^ 31 - 1)) ∨
          (∃ v, w.what = .drone v ∧ met = decide (v.toNat ≤ s.drone)) ∨
          (∃ v, w.what = .handle v ∧ met = !(s.here.handles.get v).busy)) →
        let undone := (∃ a m, w.what = .tags a m) ∧ w.tmo ≠ 0 ∧ w.t0 + w.tmo = s.cyc ∧ s.here.tagsAt = s.cyc
        (met = true → exec k.1 s = .next (s.retire 1 0)) ∧
        (met = false → ¬ undone → exec k.1 s = .next s) ∧
        (met = false → undone → (w.sq = false ∨ s.unresolved = none) → exec k.1 s = .next (s.addCause
          { node := s.myNode, rank := 3, unit := s.cur.unit.val, seq := some (s.cur.q, s.me.pc), r := { code := .waitTimeout } })) ∧
        (met = false → undone → w.sq = true → ∀ b, s.unresolved = some b → ∃ t e, exec k.1 s = .next t ∧ t.causes = s.causes ∧ t.me.wait = none ∧
          t.effs = s.effs ++ [e] ∧ e.at_ = b ∧ e.sq = true ∧ e.op = .fault { code := .waitTimeout })))) ∧
  (∀ (q : SeqId) (w : Wait) (d : Dword) (s : State), (s.seq q).wait = some w → w.what = .drone d →
    (d.toNat ≤ s.drone → exec (.droneInstantReached q w.t0) s = .next (s.setSeq q ((s.seq q).advance 1 0 s.cyc))) ∧
    (∀ t0, t0 ≠ w.t0 → exec (.droneInstantReached q t0) s = .next s))

/-- The result of each check form, which is: all tags of the mask are set; the counter is at or above xa; drone time is at
or above xa; the descriptor is idle, closed or complete, goes to pd on t + 1 where it is true or the sequencer is in
free mode; a false result in aligned mode raises TIMING and writes nothing. RXCHK outside the fabric partition raises
PROTECTION. TRAP raises TRAP with ORIG 1 and its number. BRK in a node that can halt records the halt request after
the instruction and goes on; in any other it raises TRAP with ORIG 2. CHK.P goes on where the predicate, negated or
not, holds, and raises CHECK with ORIG 3 and the predicate number else. CHK.F goes on where no flag of the mask is
set, and raises CHECK with the flags that are set else; in free mode it first waits for the flags of its own
sequencer. (R90; R231; R232; R262; R290; R329; R335; R336) -/
def Obligations.CheckAndTrapForms : Prop :=
  (∀ (h : Hdr) (pd : PReg) (ctx : BitVec 2) (xa : XReg) (rx : BitVec 6) (s : State),
    (∀ k ∈ [(Instr.ffrdy h pd xa, [Dest.x s.cur xa], s.here.tags &&& s.xr xa == s.xr xa),
           (.tlrdy h pd ctx xa, [Dest.x s.cur xa], decide ((s.xr xa).toNat ≤ (s.here.tlc.get ctx.toFin).toNat)),
           (.droneck h pd xa, [Dest.x s.cur xa], decide ((s.xr xa).toNat ≤ s.drone)),
           (.rxchk h pd rx, [],
             decide ((s.here.descs.get rx.toFin).state = .idle ∨ (s.here.descs.get rx.toFin).state = .closed ∨
               (s.here.descs.get rx.toFin).state = .complete))],
    ((∀ x y, k.1 = .rxchk h x y → s.offFabric = false) → s.issues h { reads := k.2.1, writes := [.p s.cur pd] } →
      (s.me.aligned = false ∨ k.2.2 = true → exec k.1 s = .next ((s.laterP h pd 1 k.2.2).retire 1 0)) ∧
      (s.me.aligned = true → k.2.2 = false → exec k.1 s = .next (s.raise h 1 { code := .timing })))) ∧
    (s.issues h { writes := [.p s.cur pd] } → s.offFabric = true →
      exec (.rxchk h pd rx) s = .next (s.raise h 1 { code := .protection }))) ∧
  (∀ (h : Hdr) (n : BitVec 21) (p : PReg) (neg : BitVec 1) (mask : BitVec 16) (s : State),
    (s.issues h { serial := true } →
      exec (.trap h n) s = .next (s.raise h 1 { code := .trap, orig := 1, info := n.toNat }) ∧
      ((∀ nd m, s.here.node = some nd → s.node? nd = some m → s.canHalt m = false) →
        exec (.brk h n) s = .next (s.raise h 1 { code := .trap, orig := 2, info := n.toNat })) ∧
      (∀ nd m, s.here.node = some nd → s.node? nd = some m → s.canHalt m = true →
        exec (.brk h n) s = .next ((s.addCause
          { node := m.nd, rank := 6, unit := s.cur.unit.val, seq := some (s.cur.q, s.me.pc)
            r := { code := .trap, orig := 2, info := n.toNat } }).retire 1 0)) ∧
      (s.me.aligned = true ∨ s.me.flagAt = 0 ∨ s.me.flagAt < s.cyc →
        let f : BitVec 16 := if isShep s.cur.unit then 0 else s.here.flags
        (f &&& mask = 0 → exec (.chkF h mask) s = .next (s.retire 1 0)) ∧
        (f &&& mask ≠ 0 → exec (.chkF h mask) s = .next (s.raise h 1 { code := .check, orig := 3, info := (f &&& mask).toNat }))) ∧
      (s.me.aligned = false → s.me.flagAt ≠ 0 → s.cyc ≤ s.me.flagAt →
        exec (.chkF h mask) s = .next (s.setMe { s.me with base := max s.me.base (s.me.flagAt + 1 - h.idle.toNat) }))) ∧
    (s.issues h { reads := [.p s.cur p], serial := true } →
      (s.pr p = (neg == 0) → exec (.chkP h p neg) s = .next (s.retire 1 0)) ∧
      (s.pr p = (neg == 1) → exec (.chkP h p neg) s = .next (s.raise h 1 { code := .check, orig := 3, info := p.toNat }))))

/-- An END after which every other sequencer of the core that has an entry has ended, while the scale queue holds an
entry, raises SCALEQ. Any other END leaves its sequencer ended and in free mode; when by it every sequencer of the
node that has an entry has ended, the node is in its end, its record is to hold this cycle and the flags as they
stand, and its NODE_END is due on the next cycle. (R319; R334) -/
def Obligations.EndForm : Prop :=
  ∀ (h : Hdr) (s : State), s.issues h { serial := true } →
    (s.here.othersEnded s.cur.q = true → s.here.sq ≠ [] → exec (.end_ h) s = .next (s.raise h 1 { code := .scaleq })) ∧
    (s.here.othersEnded s.cur.q = false ∨ s.here.sq = [] →
      ∃ t, exec (.end_ h) s = .next t ∧ t.me.ended = true ∧ t.me.aligned = false ∧ t.me.seg = 0 ∧
        (∀ q, q ≠ s.cur → t.seq q = s.seq q) ∧
        (∀ nd n, s.here.node = some nd → s.node? nd = some n →
          (t.allEnded n = true → (∃ m, t.node? nd = some m ∧ m.state = .ending ∧ m.stopAt = s.cyc ∧ m.stopDrone = s.drone ∧ m.flagsAt = t.nodeFlags n) ∧
            ∃ e ∈ t.agenda, e.due = .cyc (s.cyc + 1) ∧ e.ev = .nodeEnd n.nd) ∧
          (t.allEnded n = false → t.nodes = s.nodes ∧ t.agenda = s.agenda)))

/-- Window 0x00 is the own scratchpad of a compute core, 512 MiB; a shepherd core, or a range that leaves it, gives
WINDOW. Window 0x01 names 32 scratchpads one after another; a range outside them or across two of them gives WINDOW, a
core not granted to the node PROTECTION. Window 0x02 gives PROTECTION. Windows 0x10 and 0x20 leave the die. Every
other window gives WINDOW. (R7; R124; R138; 06 Table 6-4; 07 Table 7-6) -/
def Obligations.AddressWindows : Prop :=
  ∀ (a : Dword) (n : Nat) (s : State),
    let w := a.toNat / 2 ^ 56
    let o := a.toNat % 2 ^ 56
    (w = 0x00 → s.cur.unit.val < 32 → o + n ≤ 2 ^ 29 → s.reach a n = .spad (s.cur.unit.val * 2 ^ 29 + o)) ∧
    (w = 0x00 → (32 ≤ s.cur.unit.val ∨ 2 ^ 29 < o + n) → s.reach a n = .bad .window) ∧
    (w = 0x01 → (2 ^ 34 ≤ o ∨ 2 ^ 29 < o % 2 ^ 29 + n) → s.reach a n = .bad .window) ∧
    (w = 0x01 → o < 2 ^ 34 → o % 2 ^ 29 + n ≤ 2 ^ 29 →
      s.reach a n = if s.granted (o / 2 ^ 29) then .spad o else .bad .protection) ∧
    (w = 0x02 → s.reach a n = .bad .protection) ∧
    (w = 0x10 ∨ w = 0x20 → s.reach a n = .far) ∧
    (w ≠ 0x00 → w ≠ 0x01 → w ≠ 0x02 → w ≠ 0x10 → w ≠ 0x20 → s.reach a n = .bad .window)

/-- At the effective address xa, or xa plus the displacement, of 1, 2, 4 or 8 bytes: a misaligned address raises
ALIGNMENT, a bad one WINDOW or PROTECTION, with the address; a scratchpad access in order and outside claimed lines
acts 4, 20 or 48 cycles after issue (own core, same die, other die), a load landing after 14, 40 or 96; windows 0x10
and 0x20 are requested in free mode and raise TIMING in aligned mode. A store writes the low bytes of xd from the
address on. (R124; R125; R126; R127; R132; 07 Table 7-3) -/
def Obligations.ScalarAccess : Prop :=
  ∀ (h : Hdr) (xd xa : XReg) (oc : BitVec 4) (ord : BitVec 3) (size : BitVec 2) (sx : BitVec 1) (disp : BitVec 32) (s : State),
    let n := 2 ^ size.toNat
    (s.issues h { reads := [.x s.cur xa], writes := [.x s.cur xd] } →
      ∀ k ∈ [(Instr.sld h xd xa oc ord size sx, s.xr xa, 1), (.sldDisp h xd xa oc ord size sx disp, s.xr xa + disp.signExtend 64, 2)],
      let a := k.2.1
      (a.toNat % n ≠ 0 → exec k.1 s = .next (s.raise h k.2.2 { code := .alignment, addr := a.toNat })) ∧
      (a.toNat % n = 0 →
        (∀ c, s.reach a n = .bad c → exec k.1 s = .next (s.raise h k.2.2 { code := c, addr := a.toNat })) ∧
        (s.reach a n = .far →
          (s.me.aligned = true → exec k.1 s = .next (s.raise h k.2.2 { code := .timing })) ∧
          (s.me.aligned = false → exec k.1 s = .next ((s.request h (.load xd n (sx == 1)) a oc ord).retire k.2.2 0))) ∧
        (∀ off, s.reach a n = .spad off → ∀ p ∈ [(0, 4, 14), (1, 20, 40), (2, 48, 96)], s.path off = p.1 →
          (s.path off = 0 → s.claimed off n = false) → s.inOrder oc false (s.cyc + p.2.1) = true →
          exec k.1 s = .next (((s.access h a oc ord (s.cyc + p.2.1) (s.cyc + p.2.2) (s.fixedLoad a)
            (.load (span off n) [] (.x xd (sx == 1)) (s.cyc + p.2.2) (s.cyc + p.2.1))).takeScalar).retire k.2.2 0)))) ∧
    (s.issues h { reads := [.x s.cur xa, .x s.cur xd] } →
      ∀ k ∈ [(Instr.sst h xd xa oc ord size sx, s.xr xa, 1), (.sstDisp h xd xa oc ord size sx disp, s.xr xa + disp.signExtend 64, 2)],
      let a := k.2.1
      (a.toNat % n ≠ 0 → exec k.1 s = .next (s.raise h k.2.2 { code := .alignment, addr := a.toNat })) ∧
      (a.toNat % n = 0 →
        (∀ c, s.reach a n = .bad c → exec k.1 s = .next (s.raise h k.2.2 { code := c, addr := a.toNat })) ∧
        (s.reach a n = .far →
          (s.me.aligned = true → exec k.1 s = .next (s.raise h k.2.2 { code := .timing })) ∧
          (s.me.aligned = false → exec k.1 s = .next ((s.request h (.store (leBytes n (s.xr xd).toNat)) a oc ord).retire k.2.2 0))) ∧
        (∀ off, s.reach a n = .spad off → ∀ p ∈ [(0, 4), (1, 20), (2, 48)], s.path off = p.1 →
          (s.path off = 0 → s.claimed off n = false) → s.inOrder oc (decide (3 ≤ ord.toNat)) (s.cyc + p.2) = true →
          exec k.1 s = .next (((s.access h a oc ord (s.cyc + p.2) s.commitCycle true
            (.store (s.portRank off .scalar) ((List.range' off n).zip (leBytes n (s.xr xd).toNat)) (s.cyc + p.2))).takeScalar).retire k.2.2 0))))

/-- A misaligned or bad address raises its fault with the address. A scalar port in use raises TIMING in aligned mode and
makes the form wait in free mode. In windows 0x10 and 0x20 an ATM raises PROTECTION, a SATM TIMING in aligned mode and
else makes a request. A scratchpad access that is in order, outside claimed lines, and finds the scalar port free acts
after 4, 20 or 48 cycles and lands after 14, 40 or 96. The new value: wrapping sum, signed minimum and maximum, and,
or, exclusive or, exchange, and compare-and-exchange, which writes only where the old value equals xb. (R234; R235;
R236) -/
def Obligations.AtomicForms : Prop :=
  (∀ (h : Hdr) (xd xa xb xc : XReg) (fn : BitVec 3) (size : BitVec 1) (oc : BitVec 4) (ord : BitVec 3) (s : State),
    s.issues h { reads := [.x s.cur xa, .x s.cur xb, .x s.cur xc], writes := [.x s.cur xd] } →
    let n := if size = 1 then 8 else 4
    let a := s.xr xa
    ∀ k ∈ [(Instr.atm h xd xa xb fn size oc ord xc, false), (.satm h xd xa xb fn size oc ord xc, true)],
    (a.toNat % n ≠ 0 → exec k.1 s = .next (s.raise h 2 { code := .alignment, addr := a.toNat })) ∧
    (a.toNat % n = 0 →
      (∀ c, s.reach a n = .bad c → exec k.1 s = .next (s.raise h 2 { code := c, addr := a.toNat })) ∧
      (s.reach a n = .far →
        (k.2 = false → exec k.1 s = .next (s.raise h 2 { code := .protection, addr := a.toNat })) ∧
        (k.2 = true → s.me.aligned = true → exec k.1 s = .next (s.raise h 2 { code := .timing })) ∧
        (k.2 = true → s.me.aligned = false →
          exec k.1 s = .next ((s.request h (.atomic xd fn (size == 1) (s.xr xb) (s.xr xc)) a oc ord).retire 2 0))) ∧
      (∀ off, s.reach a n = .spad off → ∀ p ∈ [(0, 4, 14), (1, 20, 40), (2, 48, 96)], s.path off = p.1 →
        (s.cyc < s.here.scalar → s.waitsFor h 2 s.here.scalar k.1) ∧
        (s.here.scalar ≤ s.cyc → (s.path off = 0 → s.claimed off n = false) →
        s.inOrder oc (decide (3 ≤ ord.toNat)) (s.cyc + p.2.1) = true →
        exec k.1 s = .next (((s.access h a oc ord (s.cyc + p.2.1) s.commitCycle (s.fixedLoad a)
          (.atomic (s.portRank off .scalar) off fn (size == 1) (s.xr xb) (s.xr xc) (some xd) (s.cyc + p.2.2) (s.cyc + p.2.1))).takeScalar).retire 2 0))))) ∧
  (∀ (a b c : Word),
    let f := fun (k : BitVec 3) => atomicBytes k false (leBytes 4 a.toNat) (b.setWidth 64) (c.setWidth 64)
    f 0 = some (leBytes 4 (a + b).toNat) ∧ f 1 = some (leBytes 4 (if b.toInt < a.toInt then b else a).toNat) ∧
    f 2 = some (leBytes 4 (if a.toInt < b.toInt then b else a).toNat) ∧ f 3 = some (leBytes 4 (a &&& b).toNat) ∧
    f 4 = some (leBytes 4 (a ||| b).toNat) ∧ f 5 = some (leBytes 4 (a ^^^ b).toNat) ∧ f 6 = some (leBytes 4 b.toNat) ∧
    f 7 = (if a = b then some (leBytes 4 c.toNat) else none)) ∧
  (∀ (a b c : Dword),
    let f := fun (k : BitVec 3) => atomicBytes k true (leBytes 8 a.toNat) b c
    f 0 = some (leBytes 8 (a + b).toNat) ∧ f 1 = some (leBytes 8 (if b.toInt < a.toInt then b else a).toNat) ∧
    f 2 = some (leBytes 8 (if a.toInt < b.toInt then b else a).toNat) ∧ f 3 = some (leBytes 8 (a &&& b).toNat) ∧
    f 4 = some (leBytes 8 (a ||| b).toNat) ∧ f 5 = some (leBytes 8 (a ^^^ b).toNat) ∧ f 6 = some (leBytes 8 b.toNat) ∧
    f 7 = (if a = b then some (leBytes 8 c.toNat) else none))

/-- A WAITA in free mode whose address is aligned and reaches a scratchpad in order, or windows 0x10 and 0x20, stays at
its address with the wait recorded and its first read under way: on the scalar port, to act 4, 20 or 48 cycles later,
or as a request. While it waits it goes on, two words, in the first turn after its condition was met. A write to its
line, in a scratchpad by a store that lands, puts a further read on the next cycle, when its last read has failed on
an earlier cycle and none is in flight. WAITA_REREAD starts the read, in the scratchpad or as a request, for a wait
begun on the cycle named that has not been met; else it does nothing. (R237) -/
def Obligations.WaitaForms : Prop :=
  (∀ (h : Hdr) (xa xb xt : XReg) (cond : BitVec 3) (size : BitVec 1) (oc : BitVec 4) (ord : BitVec 3) (s : State),
    let n := if size = 1 then 8 else 4
    let a := s.xr xa
    (∀ w, s.me.wait = some w →
      exec (.waita h xa xb cond xt size oc ord) s = .next (if s.waitMet s.cur w.what then s.retire 2 0 else s)) ∧
    (s.me.wait = none → s.issues h { reads := [.x s.cur xa, .x s.cur xb, .x s.cur xt], waiting := true, serial := true } →
      (a.toNat % n ≠ 0 →
        exec (.waita h xa xb cond xt size oc ord) s = .next (s.raise h 2 { code := .alignment, addr := a.toNat })) ∧
      (a.toNat % n = 0 → ∀ c, s.reach a n = .bad c →
        exec (.waita h xa xb cond xt size oc ord) s = .next (s.raise h 2 { code := c, addr := a.toNat })) ∧
      (a.toNat % n = 0 → ∀ off, s.reach a n = .spad off → (s.path off = 0 → s.claimed off n = false) →
        ∀ p ∈ [(0, 4), (1, 20), (2, 48)], s.path off = p.1 → s.inOrder oc false (s.cyc + p.2) = true → s.here.scalar ≤ s.cyc →
        ∃ t, exec (.waita h xa xb cond xt size oc ord) s = .next t ∧ t.me.pc = s.me.pc ∧
          t.me.wait = some { t0 := s.cyc, tmo := (s.xr xt).toNat, what := .word a (s.xr xb) cond (size == 1) oc ord 0 true false, sq := h.sq } ∧
          ∃ e ∈ t.effs, e.at_ = s.cyc + p.2 ∧ e.by_ = s.cur ∧
            ∃ land, e.op = .load (List.range' off n) [] (.wait s.cyc) land (s.cyc + p.2)) ∧
      (a.toNat % n = 0 → s.reach a n = .far →
        ∃ t, exec (.waita h xa xb cond xt size oc ord) s = .next t ∧ t.me.pc = s.me.pc ∧
          t.me.wait = some { t0 := s.cyc, tmo := (s.xr xt).toNat, what := .word a (s.xr xb) cond (size == 1) oc ord 0 true false, sq := h.sq } ∧
          ∃ r ∈ t.here.reqs, r.id = s.serial ∧ r.addr = a ∧ r.op = .waitRead s.cyc ∧ r.done = none))) ∧
  (∀ (q : SeqId) (w : Wait) (a v : Dword) (c : BitVec 3) (wide : Bool) (oc : BitVec 4) (ord : BitVec 3) (r : Nat) (p met : Bool) (s : State),
    (s.seq q).wait = some w → w.what = .word a v c wide oc ord r p met →
    (met = false →
      let n := if wide then 8 else 4
      let c' : State := { s with cur := q }
      ∃ t, exec (.waitaReread q w.t0) s = .next t ∧ t.cur = s.cur ∧
      (t.seq q).wait = some { w with what := .word a v c wide oc ord r true false } ∧
      (∀ off, c'.reach a n = .spad off → ∀ p ∈ [(0, 4), (1, 20), (2, 48)], c'.path off = p.1 →
        ∃ e ∈ t.effs, e.at_ = s.cyc + p.2 ∧ e.iss = s.cyc ∧ e.by_ = q ∧
          ∃ land, e.op = .load (List.range' off n) [] (.wait w.t0) land (s.cyc + p.2)) ∧
      (c'.reach a n = .far → ∃ x ∈ (t.core q.unit).reqs, x.id = s.serial ∧ x.addr = a ∧ x.op = .waitRead w.t0 ∧ x.done = none)) ∧
    (met = true → exec (.waitaReread q w.t0) s = .next s) ∧ (∀ t0, t0 ≠ w.t0 → exec (.waitaReread q t0) s = .next s)) ∧
  (∀ (s : State) (u : UnitId) (w : Wait) (a v : Dword) (c : BitVec 3) (wide : Bool) (oc : BitVec 4) (ord : BitVec 3) (r : Nat),
    (s.core u).scl.wait = some w → w.what = .word a v c wide oc ord r false false → r < s.cyc →
    (∀ line : UnitId → Dword → Bool, line u a = true →
      ((s.wake line).core u).scl.wait = some { w with what := .word a v c wide oc ord r true false } ∧
      ∃ e ∈ (s.wake line).agenda, e.due = .cyc (s.cyc + 1) ∧ e.ev = .waitaReread ⟨u, .scl⟩ w.t0) ∧
    (∀ (now : List Eff) (e : Eff) (rk : PortRank) (cells : List (Nat × Byte)) (tbl k : Nat), e.op = .store rk cells tbl →
      spadAt u a = some k → (∃ x ∈ cells, x.1 / 64 = k / 64) →
      ((State.landOne now s e).core u).scl.wait = some { w with what := .word a v c wide oc ord r true false } ∧
      ∃ x ∈ (State.landOne now s e).agenda, x.due = .cyc (s.cyc + 1) ∧ x.ev = .waitaReread ⟨u, .scl⟩ w.t0))

/-- LD and ST, with or without displacement, move one tile of 1,024 bytes at a multiple of 256: other addresses raise
their fault; an access in order, outside claimed lines, its port free, acts after 4, 20 or 48 cycles, a load landing
after 12, 40 or 96. LDB and STB move one element of 4, 8 or 16 bytes for each active lane group at xa plus its offset:
an address fault of an element raises it with that element's address; with none, and the port free, they take as many
cycles of the port as they need passes, or in aligned mode their budget, which must be enough (a budget of 0 is
ILLEGAL there); a load lands 13, 41 or 97 cycles after issue and those cycles later. Where the port is in use, the
form raises TIMING in aligned mode and waits for it in free mode. A load without an element goes to no array and
writes its lanes all the same (log 35). (R129; R130; R132; R138; R141; R142; 07 Table 7-3) -/
def Obligations.LineAndBankedForms : Prop :=
  ∀ (h : Hdr) (vt vi : TileCode) (xa : XReg) (oc : BitVec 4) (ord : BitVec 3) (disp : BitVec 32) (budget : BitVec 9) (size : BitVec 2)
    (s : State),
    (s.issues h { reads := [.x s.cur xa], writes := s.tileDest vt } →
      ∀ k ∈ [(Instr.ld h vt xa oc ord, s.xr xa, 1), (.ldDisp h vt xa oc ord disp, s.xr xa + disp.signExtend 64, 2)],
      (k.2.1.toNat % 256 ≠ 0 → exec k.1 s = .next (s.raise h k.2.2 { code := .alignment, addr := k.2.1.toNat })) ∧
      (k.2.1.toNat % 256 = 0 → s.reach k.2.1 1024 = .far → exec k.1 s = .next (s.raise h k.2.2 { code := .protection, addr := k.2.1.toNat })) ∧
      (k.2.1.toNat % 256 = 0 → ∀ c, s.reach k.2.1 1024 = .bad c → exec k.1 s = .next (s.raise h k.2.2 { code := c, addr := k.2.1.toNat })) ∧
      (k.2.1.toNat % 256 = 0 → ∀ off, s.reach k.2.1 1024 = .spad off → s.cyc < s.here.lineRead →
        s.waitsFor h k.2.2 s.here.lineRead k.1) ∧
      (k.2.1.toNat % 256 = 0 → ∀ off, s.reach k.2.1 1024 = .spad off → ∀ p ∈ [(0, 4, 12), (1, 20, 40), (2, 48, 96)], s.path off = p.1 →
        s.here.lineRead ≤ s.cyc → (s.path off = 0 → s.claimed off 1024 = false) → s.inOrder oc false (s.cyc + p.2.1) = true →
        exec k.1 s = .next (((s.access h k.2.1 oc ord (s.cyc + p.2.1) (s.cyc + p.2.2) (s.fixedLoad k.2.1)
          (.load (List.range' off 1024) [] (.tile vt.toNat) (s.cyc + p.2.2) (s.cyc + p.2.1))).modHere
            (fun c => { c with lineRead := s.cyc + 1 })).retire k.2.2 0))) ∧
    (s.issues h { reads := .x s.cur xa :: s.tileDest vt } →
      ∀ k ∈ [(Instr.st h vt xa oc ord, s.xr xa, 1), (.stDisp h vt xa oc ord disp, s.xr xa + disp.signExtend 64, 2)],
      (k.2.1.toNat % 256 ≠ 0 → exec k.1 s = .next (s.raise h k.2.2 { code := .alignment, addr := k.2.1.toNat })) ∧
      (k.2.1.toNat % 256 = 0 → s.reach k.2.1 1024 = .far → exec k.1 s = .next (s.raise h k.2.2 { code := .protection, addr := k.2.1.toNat })) ∧
      (k.2.1.toNat % 256 = 0 → ∀ c, s.reach k.2.1 1024 = .bad c → exec k.1 s = .next (s.raise h k.2.2 { code := c, addr := k.2.1.toNat })) ∧
      (k.2.1.toNat % 256 = 0 → ∀ off, s.reach k.2.1 1024 = .spad off → s.cyc < s.here.lineWrite →
        s.waitsFor h k.2.2 s.here.lineWrite k.1) ∧
      (k.2.1.toNat % 256 = 0 → ∀ off, s.reach k.2.1 1024 = .spad off → ∀ p ∈ [(0, 4), (1, 20), (2, 48)], s.path off = p.1 →
        s.here.lineWrite ≤ s.cyc → (s.path off = 0 → s.claimed off 1024 = false) →
        s.inOrder oc (decide (3 ≤ ord.toNat)) (s.cyc + p.2) = true →
        exec k.1 s = .next (((s.access h k.2.1 oc ord (s.cyc + p.2) s.commitCycle true
          (.store (s.portRank off .line) (cellsAt off (wordBytes (s.tile vt))) (s.cyc + p.2))).modHere
            (fun c => { c with lineWrite := s.cyc + 1 })).retire k.2.2 0))) ∧
    (let n := 4 * 2 ^ size.toNat
     let addrs := elementAddrs (s.xr xa) (s.tile vi) (2 ^ size.toNat) (lanesOf s.here.shp)
     let off := s.bankedOff addrs
     let passes := if s.me.aligned then budget.toNat else passesOf (2 ^ size.toNat) addrs
     let none_ := s.me.aligned && budget == 0
     let w := 2 ^ size.toNat
     let idle := ((List.range 256).filter (fun j => j % w != 0)).map (fun j => (vi.toNat, j))
     let ldb : Ask := { reads := Dest.x s.cur xa :: s.tileDest vi, writes := s.tileDest vt, illegal := none_
                        lanes := w * (lanesOf s.here.shp / w), skip := idle }
     let stb : Ask := { reads := Dest.x s.cur xa :: (s.tileDest vi ++ s.tileDest vt), illegal := none_
                        lanes := w * (lanesOf s.here.shp / w), skip := if vt = vi then [] else idle }
     (none_ = true → h.sq = false →
       exec (.ldb h vt vi xa oc budget size ord) s = .next (s.raise h 2 { code := .illegal }) ∧
       exec (.stb h vt vi xa oc budget size ord) s = .next (s.raise h 2 { code := .illegal })) ∧
     (∀ c a, s.bankedCheck (s.xr xa) addrs n = some (c, a) →
       (s.issues h ldb →
         exec (.ldb h vt vi xa oc budget size ord) s = .next (s.raise h 2 { code := c, addr := a.toNat })) ∧
       (s.issues h stb →
         exec (.stb h vt vi xa oc budget size ord) s = .next (s.raise h 2 { code := c, addr := a.toNat }))) ∧
     (s.bankedCheck (s.xr xa) addrs n = none → s.cyc < s.here.banked →
       (s.issues h ldb → s.waitsFor h 2 s.here.banked (.ldb h vt vi xa oc budget size ord)) ∧
       (s.issues h stb → s.waitsFor h 2 s.here.banked (.stb h vt vi xa oc budget size ord))) ∧
     (s.bankedCheck (s.xr xa) addrs n = none → s.here.banked ≤ s.cyc →
     (s.me.aligned = true → passesOf (2 ^ size.toNat) addrs ≤ budget.toNat) →
     (s.path off = 0 → ∀ a ∈ addrs, s.claimed (s.elementOff a) n = false) →
     ∀ p ∈ [(0, 4, 13), (1, 20, 41), (2, 48, 97)], s.path off = p.1 →
      (s.issues h ldb → s.inOrder oc false (s.cyc + p.2.1) = true →
        let s' := s.modHere (fun c => { c with banked := s.cyc + passes })
        let land := s.cyc + p.2.2 + passes
        exec (.ldb h vt vi xa oc budget size ord) s =
          .next ((if addrs = [] then s'.later h land true true (.load [] [] (.lanes vt.toNat) land (s.cyc + p.2.1))
            else s'.access h (addrs.headD 0) oc ord (s.cyc + p.2.1) land (s.fixedLoad (addrs.headD 0))
              (.load (addrs.flatMap (fun a => List.range' (s.elementOff a) n)) [] (.lanes vt.toNat) land (s.cyc + p.2.1)) n).retire 2 0)) ∧
      (s.issues h stb →
        s.inOrder oc (decide (3 ≤ ord.toNat)) (s.cyc + p.2.1) = true →
        exec (.stb h vt vi xa oc budget size ord) s =
          .next (((s.modHere (fun c => { c with banked := s.cyc + passes })).access h (addrs.headD 0) oc ord (s.cyc + p.2.1) s.commitCycle true
            (.store (s.portRank off .banked) ((addrs.zip (List.range addrs.length)).flatMap (fun e =>
              cellsAt (s.elementOff e.1) (((wordBytes (s.tile vt)).drop (n * e.2)).take n))) (s.cyc + p.2.1))).retire 2 0))))

/-- PLD moves 768 bytes for each of one to sixteen planes, RLD 4,096 bytes, SQLD 512. A misaligned address raises
ALIGNMENT, a bad one WINDOW or PROTECTION; in aligned mode a taken line port, a claimed byte, an order or a full scale
queue raises TIMING. Else, in free mode with no read of the slot still to come, the port is taken for a cycle each
1,024 bytes, the data lands these cycles after 11, 39 or 95, and an SQLD entry stands at the end of the queue from its
issue on. A misaligned address raises ALIGNMENT, xa before xb; one that is not 1,024 bytes inside window 0x00 raises
WINDOW. With both in order: in aligned mode, in a segment of level 1, the line port free, no claim or order against
the read, RROT reads its line on t + 4 and sends it to the scratchpad of the next (or, for .PREV, the previous) core
of its ring, to be written on t + 20, with the check of the ring on t + 2. Where one of these fails it raises TIMING.
(R129; R138; R144; R145; R146; R147; 07 Table 7-6; R148; R149) -/
def Obligations.SlotAndRingForms : Prop :=
  (∀ (h : Hdr) (slot : BitVec 3) (xa : XReg) (oc planes : BitVec 4) (disp : BitVec 32) (s : State),
    let a := s.xr xa
    let d := s.xr xa + disp.signExtend 64
    let np := 768 * (planes.toNat + 1)
    (∀ k ∈ [(Instr.pld h slot xa oc planes, a, 1, np, [Dest.plane s.cur.unit slot.toNat], false),
            (.pldDisp h slot xa oc planes disp, d, 2, np, [.plane s.cur.unit slot.toNat], false),
            (.rld h slot xa oc, a, 1, 4096, [.row s.cur.unit slot.toNat], false),
            (.rldDisp h slot xa oc disp, d, 2, 4096, [.row s.cur.unit slot.toNat], false),
            (.sqld h xa oc, a, 1, 512, [], true), (.sqldDisp h xa oc disp, d, 2, 512, [], true)],
      s.issues h { reads := [.x s.cur xa], writes := k.2.2.2.2.1 } →
      (k.2.2.2.2.2 = true → s.me.aligned = true ∨ s.here.sq.length < 64 ∨ (⟨s.cur.unit, .cmp⟩ : SeqId) ∉ s.turn) →
      (k.2.1.toNat % 256 ≠ 0 → exec k.1 s = .next (s.raise h k.2.2.1 { code := .alignment, addr := k.2.1.toNat })) ∧
      (k.2.1.toNat % 256 = 0 →
        (∀ c, s.reach k.2.1 k.2.2.2.1 = .bad c → exec k.1 s = .next (s.raise h k.2.2.1 { code := c, addr := k.2.1.toNat })) ∧
        (s.reach k.2.1 k.2.2.2.1 = .far → exec k.1 s = .next (s.raise h k.2.2.1 { code := .protection, addr := k.2.1.toNat })) ∧
        (∀ off, s.reach k.2.1 k.2.2.2.1 = .spad off → s.cyc < s.here.lineRead → s.waitsFor h k.2.2.1 s.here.lineRead k.1) ∧
        (∀ off, s.reach k.2.1 k.2.2.2.1 = .spad off → s.me.aligned = true →
          (s.cyc < s.here.lineRead ∨ (s.path off = 0 ∧ s.claimed off k.2.2.2.1 = true) ∨
            s.inOrder oc false (s.cyc + [4, 20, 48].getD (s.path off) 48) = false ∨ (k.2.2.2.2.2 = true ∧ 64 ≤ s.here.sq.length)) →
          exec k.1 s = .next (s.raise h k.2.2.1 { code := .timing })))) ∧
    (∀ off, ∀ p ∈ [(0, 4, 11), (1, 20, 39), (2, 48, 95)], s.path off = p.1 → s.here.lineRead ≤ s.cyc →
    s.inOrder oc false (s.cyc + p.2.1) = true →
    (s.issues h { reads := [.x s.cur xa], writes := [.plane s.cur.unit slot.toNat] } → s.slotWait true slot.toNat = none →
     (s.path off = 0 → s.claimed off np = false) →
     ∀ k ∈ [(Instr.pld h slot xa oc planes, a, 1), (.pldDisp h slot xa oc planes disp, d, 2)],
      k.2.1.toNat % 256 = 0 → s.reach k.2.1 np = .spad off →
      let b := (np + 1023) / 1024
      exec k.1 s = .next (((s.access h k.2.1 oc 0 (s.cyc + p.2.1) (s.cyc + p.2.2 + b) (s.fixedLoad k.2.1)
        (.load (List.range' off np) [] (.plane slot.toNat (planes.toNat + 1)) (s.cyc + p.2.2 + b) (s.cyc + p.2.1))).modHere
          (fun c => { c with lineRead := s.cyc + b })).retire k.2.2 0)) ∧
    (s.issues h { reads := [.x s.cur xa], writes := [.row s.cur.unit slot.toNat] } → s.slotWait false slot.toNat = none →
     (s.path off = 0 → s.claimed off 4096 = false) →
     ∀ k ∈ [(Instr.rld h slot xa oc, a, 1), (.rldDisp h slot xa oc disp, d, 2)],
      k.2.1.toNat % 256 = 0 → s.reach k.2.1 4096 = .spad off →
      exec k.1 s = .next (((s.access h k.2.1 oc 0 (s.cyc + p.2.1) (s.cyc + p.2.2 + 4) (s.fixedLoad k.2.1)
        (.load (List.range' off 4096) [] (.row slot.toNat) (s.cyc + p.2.2 + 4) (s.cyc + p.2.1))).modHere
          (fun c => { c with lineRead := s.cyc + 4 })).retire k.2.2 0)) ∧
    (s.issues h { reads := [.x s.cur xa] } → s.here.sq.length < 64 → (s.path off = 0 → s.claimed off 512 = false) →
     ∀ k ∈ [(Instr.sqld h xa oc, a), (.sqldDisp h xa oc disp, d)],
      k.2.toNat % 256 = 0 → s.reach k.2 512 = .spad off →
      ∃ t, exec k.1 s = .next t ∧ t.here.sq = s.here.sq ++ [⟨s.serial, none⟩] ∧ t.serial = s.serial + 1 ∧
        t.here.lineRead = s.cyc + 1 ∧
        ∃ e ∈ t.effs, e.at_ = s.cyc + p.2.1 ∧ e.commit = s.cyc + p.2.2 + 1 ∧
          e.op = .load (List.range' off 512) [] (.scale s.serial) (s.cyc + p.2.2 + 1) (s.cyc + p.2.1)))) ∧
  (∀ (h : Hdr) (xa xb : XReg) (dir : BitVec 1) (oc : BitVec 4) (s : State), s.issues h { reads := [.x s.cur xa, .x s.cur xb] } →
    let a := s.xr xa
    let b := s.xr xb
    (a.toNat % 256 ≠ 0 → exec (.rrot h xa xb dir oc) s = .next (s.raise h 1 { code := .alignment, addr := a.toNat })) ∧
    (a.toNat % 256 = 0 → b.toNat % 256 ≠ 0 →
      exec (.rrot h xa xb dir oc) s = .next (s.raise h 1 { code := .alignment, addr := b.toNat })) ∧
    (a.toNat % 256 = 0 → b.toNat % 256 = 0 →
      (2 ^ 29 < a.toNat + 1024 → exec (.rrot h xa xb dir oc) s = .next (s.raise h 1 { code := .window, addr := a.toNat })) ∧
      (a.toNat + 1024 ≤ 2 ^ 29 → 2 ^ 29 < b.toNat + 1024 →
        exec (.rrot h xa xb dir oc) s = .next (s.raise h 1 { code := .window, addr := b.toNat }))) ∧
    (a.toNat % 256 = 0 → b.toNat % 256 = 0 → a.toNat + 1024 ≤ 2 ^ 29 → b.toNat + 1024 ≤ 2 ^ 29 →
      let off := s.cur.unit.val * 2 ^ 29 + a.toNat
      let dest := neighbour (s.ringOf s.cur.unit) s.cur.unit (dir == 1)
      (s.me.aligned = false ∨ s.me.lvl ≠ 1 ∨ s.cyc < s.here.lineRead ∨ s.claimed off 1024 = true ∨ s.inOrder oc false (s.cyc + 4) = false →
        exec (.rrot h xa xb dir oc) s = .next (s.raise h 1 { code := .timing })) ∧
      (s.me.aligned = true → s.me.lvl = 1 → s.here.lineRead ≤ s.cyc → s.claimed off 1024 = false → s.inOrder oc false (s.cyc + 4) = true →
        ∃ t e f, exec (.rrot h xa xb dir oc) s = .next t ∧ t.effs = s.effs ++ [e, f] ∧ e.at_ = s.cyc + 4 ∧
          e.op = .load (List.range' off 1024) [] (.ring (dest.val * 2 ^ 29 + b.toNat)) (s.cyc + 20) (s.cyc + 4) ∧
          f.at_ = s.cyc + 2 ∧ f.op = .ringCheck (dir == 1) (s.ringOf s.cur.unit) ∧ t.here.lineRead = s.cyc + 1)))

/-- FENCE and DRAIN take one slot and leave a mark in their sequencer, which is in force once they commit. A FENCE in
force holds every access of a class of its mask that issues on its cycle or later until every access of the classes of
its mask that issued before it has been performed, non-temporal stores to windows 0x10 and 0x20 left out. A DRAIN
holds every access that issues on its cycle or later until the earlier non-temporal stores of its classes have been
performed, and a release counts these among the stores before it. (R215; R216; R217; R218; R221; R119) -/
def Obligations.FenceAndDrain : Prop :=
  (∀ (h : Hdr) (mask : BitVec 16) (scope : BitVec 3) (s : State), s.issues h {} →
    ∀ k ∈ [(Instr.fence h mask scope, MarkKind.fence, mask), (.drain h mask scope, .drain, BitVec.allOnes 16)],
    ∃ t, exec k.1 s = .next t ∧ t.me.pc = (s.me.advance 1 0 s.cyc).pc ∧ t.effs = s.effs ∧
      ({ kind := k.2.1, who := s.cur, at_ := s.cyc, from_ := s.cyc, pre := mask, post := k.2.2, sq := h.sq, commit := s.commitCycle } : Mark) ∈ t.me.marks ∧
      (∀ m ∈ s.me.marks, (∃ p ∈ s.pends m.who, p.iss < m.at_ ∧ (∃ oc, p.oc = some oc ∧ m.pre.getLsbD oc.toNat = true)) → m ∈ t.me.marks)) ∧
  (∀ (s : State) (x : Access) (m : Mark) (p : Pend) (oc : BitVec 4), m ∈ (s.seq x.by_).marks → p ∈ s.pends m.who → p.oc = some oc →
    m.commit ≤ s.cyc → m.from_ ≤ x.iss → p.iss < m.at_ → m.pre.getLsbD oc.toNat = true → m.post.getLsbD x.oc.toNat = true →
    (m.kind = .fence → (p.far = false ∨ p.ord ≠ 1) → s.orderHeld x = true) ∧
    (m.kind = .drain → p.ord = 1 → s.orderHeld x = true)) ∧
  (∀ (s : State) (x : Access) (p : Pend) (oc : BitVec 4), p ∈ s.pends x.by_ → p.iss < x.iss → p.oc = some oc →
    (p.acq = true → s.orderHeld x = true) ∧
    (oc = x.oc → (p.far = false ∨ p.ord ≠ 1) → s.orderHeld x = true) ∧
    (x.rel = true → p.ord ≠ 1 → s.orderHeld x = true) ∧
    (x.rel = true → (∃ m ∈ (s.seq x.by_).marks, m.kind = .drain ∧ m.commit ≤ s.cyc ∧ m.at_ ≤ x.iss ∧ p.iss < m.at_ ∧
      m.pre.getLsbD oc.toNat = true) → s.orderHeld x = true))

/-- A copy form with no address fault and room in the queue enters its rows: one row, xr rows with their strides, one row
filled with a pattern, or the images of a plane transposition; it takes the next ticket of its context, counts its tag
as pending and clears the tag one cycle later, at once where a copy that completed on this very cycle has set it. Rows
with a fault raise it with the row's address. CPT with a misaligned image or a count that is no multiple of 32 raises
ALIGNMENT. TAGCLR clears its tags one cycle later. A completion that an order still holds is tried again a cycle
later; else it removes its copy, sets its tag when none of it is pending, and brings the counters to the last ticket
below which every copy has completed. (R205; R206; R207; R208; R226; R227; R228; R229) -/
def Obligations.CopyForms : Prop :=
  (∀ (h : Hdr) (xd xa xb xr xs xt : XReg) (tag : BitVec 6) (ctx : BitVec 2) (oc : BitVec 4) (ord : BitVec 3) (s : State),
    ∀ k ∈ [(Instr.cpy h xd xa xb tag ctx oc ord, [Dest.x s.cur xd, .x s.cur xa, .x s.cur xb], CopyKind.move,
              [(⟨some (s.xr xa), s.xr xd, (s.xr xb).toNat⟩ : CopyRow)]),
           (.cpy2 h xd xa xb tag ctx oc ord xr xs xt,
              [Dest.x s.cur xd, .x s.cur xa, .x s.cur xb, .x s.cur xr, .x s.cur xs, .x s.cur xt], .move,
              (List.range (s.xr xr).toNat).map (fun r => (⟨some (s.xr xa + BitVec.ofNat 64 r * s.xr xs),
                s.xr xd + BitVec.ofNat 64 r * s.xr xt, (s.xr xb).toNat⟩ : CopyRow))),
           (.cfill h xd xa xb tag ctx oc ord, [Dest.x s.cur xd, .x s.cur xa, .x s.cur xb], .fill (s.xr xb),
              [(⟨none, s.xr xd, (s.xr xa).toNat⟩ : CopyRow)])],
    s.issues h { reads := k.2.1 } →
    let f := s.rowsFault (k.2.2.2.filterMap (fun r => r.src.map (fun a => (a, r.len))) ++ k.2.2.2.map (fun r => (r.dst, r.len)))
    (∀ c a, f = some (c, a) → exec k.1 s = .next (s.raise h 2 { code := c, addr := a.toNat })) ∧
    (f = none → s.here.queueFull s.cyc = false →
      (s.me.aligned = false ∨ s.orderHeld (s.newAccess oc (decide (3 ≤ ord.toNat))) = false) →
      ∃ t c, exec k.1 s = .next t ∧ t.here.copies = s.here.copies ++ [c] ∧ c.rows = k.2.2.2 ∧ c.kind = k.2.2.1 ∧ c.tag = tag ∧
        c.ctx = ctx ∧ c.iss = s.cyc ∧ c.ticket = s.here.ticket.get ctx.toFin + 1 ∧ t.here.ticket.get ctx.toFin = c.ticket ∧
        t.here.tagPending.get tag.toFin = s.here.tagPending.get tag.toFin + 1 ∧
        (∃ e ∈ t.effs, e.at_ = s.cyc + 1 ∧ e.op = .clearTags s.cur.unit (BitVec.ofNat 64 (2 ^ tag.toNat))) ∧
        (s.here.tagsAt = s.cyc → s.here.tagsSet.getLsbD tag.toNat = true → t.here.tags.getLsbD tag.toNat = false) ∧
        t.me.pc = (s.me.advance 2 0 s.cyc).pc)) ∧
  (∀ (h : Hdr) (xd xa xb xr xs xt : XReg) (tag : BitVec 6) (ctx : BitVec 2) (oc : BitVec 4) (ord : BitVec 3) (fmt : BitVec 4) (s : State),
    s.issues h { reads := [.x s.cur xd, .x s.cur xa, .x s.cur xb, .x s.cur xr, .x s.cur xs, .x s.cur xt] } →
    let i := Instr.cpt h xd xa xb tag ctx oc ord xr xs xt fmt
    let odd := (s.xr xd).toNat % 256 ≠ 0 ∨ (s.xr xt).toNat % 256 ≠ 0 ∨ (s.xr xb).toNat % 32 ≠ 0 ∨ (s.xr xr).toNat % 32 ≠ 0
    let images := ((s.xr xb).toNat + 191) / 192 * ((s.xr xr).toNat / 32)
    let srcs := (List.range (s.xr xr).toNat).map
      (fun r => (s.xr xa + BitVec.ofNat 64 r * s.xr xs, (s.xr xb).toNat * formatWidth fmt / 8))
    let dsts := (List.range images).map (fun j => (s.xr xd + BitVec.ofNat 64 j * s.xr xt, 768 * formatWidth fmt))
    (odd → exec i s = .next (s.raise h 2 { code := .alignment, addr := (s.xr xd).toNat })) ∧
    (¬ odd → (∀ c a, s.rowsFault (srcs ++ dsts) = some (c, a) → exec i s = .next (s.raise h 2 { code := c, addr := a.toNat })) ∧
      (s.rowsFault (srcs ++ dsts) = none → s.here.queueFull s.cyc = false →
        (s.me.aligned = false ∨ s.orderHeld (s.newAccess oc (decide (3 ≤ ord.toNat))) = false) →
        ∃ t c, exec i s = .next t ∧ t.here.copies = s.here.copies ++ [c] ∧
          c.rows = dsts.map (fun r => (⟨none, r.1, r.2⟩ : CopyRow)) ∧
          c.kind = .planes fmt (s.xr xb).toNat (s.xr xr).toNat (s.xr xa) (s.xr xs) ∧ c.tag = tag ∧ c.ctx = ctx ∧
          c.ticket = s.here.ticket.get ctx.toFin + 1 ∧ t.here.tagPending.get tag.toFin = s.here.tagPending.get tag.toFin + 1))) ∧
  (∀ (h : Hdr) (xa : XReg) (s : State), s.issues h { reads := [.x s.cur xa] } →
    exec (.tagclr h xa) s = .next ((s.later h (s.cyc + 1) false true (.clearTags s.cur.unit (s.xr xa))).retire 1 0)) ∧
  (∀ (u : UnitId) (serial : Nat) (k : Copy) (s : State), (s.core u).copies.find? (fun c => c.serial == serial) = some k →
    (s.copyHeld u k = true → ∃ t e, exec (.copyComplete u serial) s = .next t ∧ t = { s with agenda := s.agenda ++ [e] } ∧
      e.due = .cyc (s.cyc + 1) ∧ e.ev = .copyComplete u serial) ∧
    (s.copyHeld u k = false → ∃ t, exec (.copyComplete u serial) s = .next t ∧ (t.core u).copies = (s.core u).copies.filter (fun c => c.serial != serial) ∧
      ((s.core u).tagPending.get k.tag.toFin ≤ 1 → (t.core u).tags = (s.core u).tags ||| BitVec.ofNat 64 (2 ^ k.tag.toNat)) ∧
      (2 ≤ (s.core u).tagPending.get k.tag.toFin → (t.core u).tags = (s.core u).tags) ∧
      (∀ c : Fin 4, (t.core u).tlc.get c = BitVec.ofNat 64 (((t.core u).copies.filter (fun e => e.ctx.toFin == c)).foldl
        (fun m e => min m (e.ticket - 1)) ((s.core u).ticket.get c))) ∧
      (∀ v, v ≠ u → t.core v = s.core v)))

/-- Under a true guard each two-source form of Tables 8-4 and 8-5 takes its pipe once it is free (else it raises TIMING in
aligned mode and waits in free mode), and writes to vd, in the active lanes, its function of the lanes of va and vb:
floating sums and products with one rounding, minimum and maximum, the comparisons as masks of ones, wrapping, high-
half and saturating integer results (the flag IOVF where one saturates), bitwise forms, and shifts by the five low
bits. The forms that can set a flag record the cycle of their result for CHK.F. (R150; R151; R152; R153; R154; R157;
R158; R159; 08 Tables 8-4, 8-5) -/
def Obligations.VectorTwoSourceForms : Prop :=
  ∀ (h : Hdr) (vd va vb : TileCode) (pg : PReg) (s : State),
    let p := pipeOf [vd, va, vb]
    let m := fun (v : Bool) => if v then (0xFFFFFFFF : Word) else 0
    let sat := fun (v : Int) => if v < -2 ^ 31 then ((0x80000000 : Word), (0x10 : Flags))
      else if 2 ^ 31 - 1 < v then (0x7FFFFFFF, 0x10) else (BitVec.ofInt 32 v, 0)
    s.issuesIf h pg (s.vecAsk vd [va, vb] []) →
    ∀ k ∈ ([
      (Instr.vfadd h vd va vb pg, 3, true, fun a b => fadd (dec32 a) (dec32 b)),
      (Instr.vfsub h vd va vb pg, 3, true, fun a b => fadd (dec32 a) (dec32 b).negate),
      (Instr.vfmul h vd va vb pg, 4, true, fun a b => fmul (dec32 a) (dec32 b)),
      (Instr.vfmin h vd va vb pg, 3, false, fun a b => (minLane a b, 0)),
      (Instr.vfmax h vd va vb pg, 3, false, fun a b => (maxLane a b, 0)),
      (Instr.vfceq h vd va vb pg, 3, false, fun a b => (m (cmpV (dec32 a) (dec32 b) == some .eq), 0)),
      (Instr.vfclt h vd va vb pg, 3, false, fun a b => (m (cmpV (dec32 a) (dec32 b) == some .lt), 0)),
      (Instr.vfcle h vd va vb pg, 3, false, fun a b => (m (cmpV (dec32 a) (dec32 b) == some .eq || cmpV (dec32 a) (dec32 b) == some .lt), 0)),
      (Instr.vfcun h vd va vb pg, 3, false, fun a b => (m (isNan32 a || isNan32 b), 0)),
      (Instr.viadd h vd va vb pg, 3, false, fun a b => (a + b, 0)),
      (Instr.visub h vd va vb pg, 3, false, fun a b => (a - b, 0)),
      (Instr.vimul h vd va vb pg, 4, false, fun a b => (a * b, 0)),
      (Instr.vimulh h vd va vb pg, 4, false, fun a b => (BitVec.ofInt 32 (a.toInt * b.toInt / 2 ^ 32), 0)),
      (Instr.vimin h vd va vb pg, 3, false, fun a b => (if b.toInt < a.toInt then b else a, 0)),
      (Instr.vimax h vd va vb pg, 3, false, fun a b => (if a.toInt < b.toInt then b else a, 0)),
      (Instr.vumin h vd va vb pg, 3, false, fun a b => (if b.toNat < a.toNat then b else a, 0)),
      (Instr.vumax h vd va vb pg, 3, false, fun a b => (if a.toNat < b.toNat then b else a, 0)),
      (Instr.viadds h vd va vb pg, 3, true, fun a b => sat (a.toInt + b.toInt)),
      (Instr.visubs h vd va vb pg, 3, true, fun a b => sat (a.toInt - b.toInt)),
      (Instr.vand h vd va vb pg, 3, false, fun a b => (a &&& b, 0)),
      (Instr.vor h vd va vb pg, 3, false, fun a b => (a ||| b, 0)),
      (Instr.vxor h vd va vb pg, 3, false, fun a b => (a ^^^ b, 0)),
      (Instr.vandn h vd va vb pg, 3, false, fun a b => (a &&& ~~~b, 0)),
      (Instr.vshl h vd va vb pg, 3, false, fun a b => (a <<< (b.toNat % 32), 0)),
      (Instr.vshr h vd va vb pg, 3, false, fun a b => (a >>> (b.toNat % 32), 0)),
      (Instr.vsar h vd va vb pg, 3, false, fun a b => (a.sshiftRight (b.toNat % 32), 0)),
      (Instr.viceq h vd va vb pg, 3, false, fun a b => (m (decide (a = b)), 0)),
      (Instr.viclt h vd va vb pg, 3, false, fun a b => (m (decide (a.toInt < b.toInt)), 0)),
      (Instr.vuclt h vd va vb pg, 3, false, fun a b => (m (decide (a.toNat < b.toNat)), 0))] :
      List (Instr × Nat × Bool × (Word → Word → Word × Flags))),
    (s.pipeFree p → exec k.1 s = .next (((s.takePipe p).result h vd k.2.1 (some (if p then 37 else 36)) k.2.2.1
      ((List.range (lanesOf s.here.shp)).map (fun j => k.2.2.2 (laneAt (s.tile va) j) (laneAt (s.tile vb) j)))).retire 1 0)) ∧
    (¬ s.pipeFree p → s.waitsFor h 1 (s.pipeTill p) k.1)

/-- VFABS clears and VFNEG flips the sign bit, VMOV copies, VCVT converts between two formats, saturating or not; VFMA,
VFMS and VFNMA round a product and sum once; VSEL takes vb where the lane of vc is zero, else va; VBCAST writes the
low word of xa to every active lane. VXM copies on the pipe of its source, with no last result. VGET zero-extends one
lane to xd after two cycles; SHAPE writes rows and columns to SHP after two. A form whose pipe is in use raises TIMING
in aligned mode and waits for it in free mode. (R150; R151; R157; R160; R161; R162; R163; R164; R165) -/
def Obligations.VectorOtherForms : Prop :=
  ∀ (h : Hdr) (vd va vb vc : TileCode) (xd xa : XReg) (pg : PReg) (src dst rows cols : BitVec 4) (st : BitVec 1) (lane : BitVec 8) (s : State),
    let n := lanesOf s.here.shp
    (let p := pipeOf [vd, va]
     ∀ k ∈ ([(Instr.vfabs h vd va pg, pg, 1, false, fun a => (a &&& 0x7FFFFFFF, 0)),
         (.vfneg h vd va pg, pg, 1, false, fun a => (a ^^^ 0x80000000, 0)), (.vmov h vd va pg, pg, 1, false, fun a => (a, 0)),
         (.vcvt h vd va src dst st, 0, 3, true, fun a =>
           let r := convertV (a.toNat % 2 ^ formatWidth src) src dst (st == 1)
           (BitVec.ofNat 32 r.1, r.2))] : List (Instr × PReg × Nat × Bool × (Word → Word × Flags))),
      s.issuesIf h k.2.1 (s.vecAsk vd [va] []) →
      (¬ s.pipeFree p → s.waitsFor h 1 (s.pipeTill p) k.1) ∧
      (s.pipeFree p → exec k.1 s = .next (((s.takePipe p).result h vd k.2.2.1 (some (if p then 37 else 36)) k.2.2.2.1
        ((List.range n).map (fun j => k.2.2.2.2 (laneAt (s.tile va) j)))).retire 1 0))) ∧
    (let p := pipeOf [vd, va, vb, vc]
     s.issuesIf h pg (s.vecAsk vd [va, vb, vc] []) →
     ∀ k ∈ ([(Instr.vfma h vd va vb pg vc, 5, true, fun a b c => ffma (dec32 a) (dec32 b) (dec32 c)),
         (.vfms h vd va vb pg vc, 5, true, fun a b c => ffma (dec32 a) (dec32 b) (dec32 c).negate),
         (.vfnma h vd va vb pg vc, 5, true, fun a b c => ffma (dec32 a).negate (dec32 b) (dec32 c)),
         (.vsel h vd va vb pg vc, 1, false, fun a b c => (if c = 0 then b else a, 0))] :
         List (Instr × Nat × Bool × (Word → Word → Word → Word × Flags))),
      (¬ s.pipeFree p → s.waitsFor h 2 (s.pipeTill p) k.1) ∧
      (s.pipeFree p → exec k.1 s = .next (((s.takePipe p).result h vd k.2.1 (some (if p then 37 else 36)) k.2.2.1
        ((List.range n).map (fun j => k.2.2.2 (laneAt (s.tile va) j) (laneAt (s.tile vb) j) (laneAt (s.tile vc) j)))).retire 2 0))) ∧
    (let p := pipeOf [vd]
     s.issuesIf h pg (s.vecAsk vd [] [.x s.cur xa]) →
      (¬ s.pipeFree p → s.waitsFor h 1 (s.pipeTill p) (.vbcast h vd xa pg)) ∧
      (s.pipeFree p → exec (.vbcast h vd xa pg) s = .next (((s.takePipe p).result h vd 1 (some (if p then 37 else 36)) false
        (List.replicate n ((s.xr xa).setWidth 32, 0))).retire 1 0))) ∧
    (let p := pipeOf [va]
     s.issuesIf h pg { reads := s.tileDest va, writes := s.tileDest vd, lanes := n } →
      (¬ s.pipeFree p → s.waitsFor h 1 (s.pipeTill p) (.vxm h vd va pg)) ∧
      (s.pipeFree p → exec (.vxm h vd va pg) s = .next (((s.takePipe p).result h vd 2 none false
        ((List.range n).map (fun j => (laneAt (s.tile va) j, 0)))).retire 1 0))) ∧
    (s.issues h { reads := s.tileDest va, writes := [.x s.cur xd], firstLane := lane.toNat, lanes := 1 } →
      exec (.vget h xd va lane) s = .next ((s.laterX h xd 2 ((laneAt (s.tile va) lane.toNat).setWidth 64)).retire 1 0)) ∧
    (s.issues h {} →
      exec (.shape h rows cols) s = .next ((s.later h (s.cyc + 2) true true (.setShp s.cur.unit (cols ++ rows))).retire 1 0))

/-- VPUSH appends the active lanes of va whose lane of vb is not zero two cycles later, and raises STREAM where the
buffer, with what is on its way, would exceed 1,024. VPOP takes up to 256 words from the front at once, writes them,
zeros above, to vd and their number to xd; one of them with an uncorrectable error raises UNCORRECTABLE. VQCNT writes
the length; in free mode both wait for the pushes on their way. FTSET and FTGET write and read an entry. SQCNT writes
present and outstanding entries; SQDROP drops present entries, waits for outstanding ones in free mode, TIMING in
aligned mode, and raises SCALEQ for more than the queue holds. (R167; R168; R169; R203; R204; R326) -/
def Obligations.StreamAndTableForms : Prop :=
  ∀ (h : Hdr) (q : BitVec 2) (vd va vb : TileCode) (xd xa : XReg) (ft : BitVec 4) (pg : PReg) (s : State),
    let buf := s.here.streams.get q.toFin
    (s.issuesIf h pg { reads := s.tileDest va ++ s.tileDest vb, lanes := lanesOf s.here.shp } →
      let sel := ((List.range (lanesOf s.here.shp)).filter (fun j => laneAt (s.tile vb) j != 0)).map (laneAt (s.tile va))
      (1024 < buf.length + s.pendingPush q + sel.length → exec (.vpush h q va vb pg) s = .next (s.raise h 1 { code := .stream })) ∧
      (buf.length + s.pendingPush q + sel.length ≤ 1024 → exec (.vpush h q va vb pg) s =
        .next ((s.later h (s.cyc + 2) true true (.push s.cur.unit q sel)).retire 1 0))) ∧
    (s.me.aligned = false → (∃ e ∈ s.effs, ∃ ws, e.op = .push s.cur.unit q ws) →
      (s.issues h { writes := .x s.cur xd :: s.tileDest vd } → s.waitsFor h 1 (s.cyc + 1) (.vpop h q vd xd)) ∧
      (s.issues h { writes := [.x s.cur xd] } → s.waitsFor h 1 (s.cyc + 1) (.vqcnt h xd q))) ∧
    ((s.me.aligned = true ∨ ∀ e ∈ s.effs, ∀ ws, e.op ≠ .push s.cur.unit q ws) →
      (s.issues h { writes := .x s.cur xd :: s.tileDest vd } →
        (s.here.streamBad q (min buf.length 256) = true → exec (.vpop h q vd xd) s = .next (s.raise h 1 { code := .uncorrectable })) ∧
        (s.here.streamBad q (min buf.length 256) = false → ∃ t e f, exec (.vpop h q vd xd) s = .next t ∧ t.here.streams.get q.toFin = buf.drop (min buf.length 256) ∧
          (∀ k, k ≠ q.toFin → t.here.streams.get k = s.here.streams.get k) ∧ t.effs = s.effs ++ [e, f] ∧
          e.at_ = s.cyc + 4 + (if 32 ≤ vd.toNat ∧ vd.toNat ≤ 35 then 1 else 0) ∧
          e.op = .setTile s.cur.unit vd.toNat (buf.take (min buf.length 256) ++ List.replicate (256 - min buf.length 256) 0) ∧
          f.at_ = s.cyc + 2 ∧ f.op = .setX s.cur xd (BitVec.ofNat 64 (min buf.length 256)) false)) ∧
      (s.issues h { writes := [.x s.cur xd] } →
        exec (.vqcnt h xd q) s = .next ((s.laterX h xd 1 (BitVec.ofNat 64 buf.length)).retire 1 0))) ∧
    (s.issues h { reads := [.x s.cur xa] } →
      exec (.ftset h ft xa) s = .next ((s.later h (s.cyc + 1) true true (.setFt s.cur.unit ft ((s.xr xa).setWidth 12))).retire 1 0) ∧
      ((s.xr xa).toNat ≤ s.here.present →
        exec (.sqdrop h xa) s = .next ((s.modHere (fun c => { c with sq := c.sq.drop (s.xr xa).toNat })).retire 1 0)) ∧
      (s.here.present < (s.xr xa).toNat → s.here.sq.length < (s.xr xa).toNat →
        exec (.sqdrop h xa) s = .next (s.raise h 1 { code := .scaleq })) ∧
      (s.here.present < (s.xr xa).toNat → (s.xr xa).toNat ≤ s.here.sq.length →
        (s.me.aligned = true → exec (.sqdrop h xa) s = .next (s.raise h 1 { code := .timing })) ∧
        (s.me.aligned = false →
          exec (.sqdrop h xa) s = .next (s.setMe { s.me with base := max s.me.base (s.cyc + 1 - h.idle.toNat) })))) ∧
    (s.issues h { writes := [.x s.cur xd] } →
      exec (.ftget h xd ft) s = .next ((s.laterX h xd 1 ((s.here.ft.get ft.toFin).setWidth 64)).retire 1 0) ∧
      exec (.sqcnt h xd) s =
        .next ((s.laterX h xd 1 (BitVec.ofNat 64 (s.here.present + 256 * s.here.outstanding))).retire 1 0))

/-- Under a true guard, once the unit or pipe is free (else TIMING in aligned mode, a wait in free mode), EXP2, LOG2, RCP,
RSQ, SQRT and DIV write their lanes, and the last result ls, after 8, 8, 10, 10, 14, 14 cycles and one more for each
further 32 lanes. VRSUM and VRDOT write the padded tree sum of the lanes or of their products, VRISUM the saturated
exact sum, VRMAX, VRMIN, VRIMAX, VRIMIN the extreme lane of lowest number and its number; VRLSUM adds where the block
is valid; VMCNT counts; VRSCL rescales. (R170; R174; R175; R177; R178; R180; R181; R182) -/
def Obligations.SpecialFunctionAndReductionForms : Prop :=
  ∀ (h : Hdr) (vd va vb : TileCode) (nan : BitVec 1) (pg : PReg) (s : State),
    let n := lanesOf s.here.shp
    let a := fun j => laneAt (s.tile va) j
    let b := fun j => laneAt (s.tile vb) j
    let d := fun j => laneAt (s.tile vd) j
    let rs := List.range n
    (∀ k ∈ ([(Instr.exp2 h vd va pg, [va], 8, fun j => exp2Lane (a j)), (.log2 h vd va pg, [va], 8, fun j => log2Lane (a j)),
        (.rcp h vd va pg, [va], 10, fun j => rcpLane (a j)), (.rsq h vd va pg, [va], 10, fun j => rsqLane (a j)),
        (.sqrt h vd va pg, [va], 14, fun j => sqrtLane (a j)), (.div h vd va vb pg, [va, vb], 14, fun j => divLane (a j) (b j))] :
        List (Instr × List TileCode × Nat × (Nat → Word × Flags))),
      s.issuesIf h pg (s.vecAsk vd k.2.1 []) →
      (s.cyc < s.here.sfu → s.waitsFor h 1 s.here.sfu k.1) ∧
      (s.here.sfu ≤ s.cyc →
       exec k.1 s = .next (((s.modHere (fun c => { c with sfu := s.cyc + (n + 31) / 32 })).result h vd (k.2.2.1 + (n + 31) / 32 - 1)
        (some 38) true (rs.map k.2.2.2)).retire 1 0))) ∧
    (∀ k ∈ ([(Instr.vrsum h vd va pg, [va], 6, true, [paddedSum (rs.map a)]),
        (.vrisum h vd va pg, [va], 6, true, [clampLane ((rs.map (fun j => (a j).toInt)).sum)]),
        (.vrmax h vd va nan pg, [va], 6, false, indexLanes (fun x y => rankLt (nan == 1) (dec32 x) (dec32 y)) (rs.map a)),
        (.vrmin h vd va nan pg, [va], 6, false, indexLanes (fun x y => rankLt (nan == 1) (dec32 y) (dec32 x)) (rs.map a)),
        (.vrimax h vd va pg, [va], 6, false, indexLanes (fun x y => decide (x.toInt < y.toInt)) (rs.map a)),
        (.vrimin h vd va pg, [va], 6, false, indexLanes (fun x y => decide (y.toInt < x.toInt)) (rs.map a)),
        (.vrdot h vd va vb pg, [va, vb], 8, true,
          let ps := rs.map (fun j => fmul (dec32 (a j)) (dec32 (b j)))
          let t := paddedSum (ps.map (·.1))
          [(t.1, t.2 ||| laneFlags ps)]),
        (.vrlsum h vd va vb pg, [vd, va, vb], 3, true, rs.map (fun j => if b j = 0 then (d j, 0) else fadd (dec32 (d j)) (dec32 (a j)))),
        (.vmcnt h vd va pg, [vd, va], 3, true, rs.map (fun j => countLane (d j) (a j))),
        (.vrscl h vd va vb pg, [va, vb], 6, true, rs.map (fun j => rescaleLane (a j) (b j)))] :
        List (Instr × List TileCode × Nat × Bool × List (Word × Flags))),
      let p := pipeOf (vd :: k.2.1)
      s.issuesIf h pg { s.vecAsk vd k.2.1 [] with skip := if k.2.1 = [vd, va, vb] then s.unreadLanes vd va vb else [] } →
      (¬ s.pipeFree p → s.waitsFor h 1 (s.pipeTill p) k.1) ∧
      (s.pipeFree p →
       exec k.1 s = .next (((s.takePipe p).result h vd k.2.2.1 (some (if p then 37 else 36)) k.2.2.2.1 k.2.2.2.2).retire 1 0)))

/-- In FP32, BF16, FP16, E4M3, E5M2 and E2M1, rounding the value of an encoding that is no NaN to the same format gives
that encoding and no flag. An integer converted to INT32 with saturation is itself where it is in range, and the
nearest bound with the flag IOVF where it is not. (R61; R62; R69; R70) -/
def Obligations.NumbersRoundTrip : Prop :=
  (∀ f ∈ [fp32, bf16, fp16, e4m3, e5m2, e2m1], ∀ w : Nat, w < 2 ^ (1 + f.e + f.m) → decodeF f w ≠ .nan →
    roundF f false (decodeF f w) = (w, 0)) ∧
  (∀ v : Int, clampI 6 v = if v < -2 ^ 31 then (2 ^ 31, 0x10) else if 2 ^ 31 - 1 < v then (2 ^ 31 - 1, 0x10) else
    ((BitVec.ofInt 32 v).toNat, 0))

/-- With a legal format triple and row slots that fit, the engine free and the scale entries that a scaled format pops
present, MMA (dense) and MMAS (with its metadata slot) take the engine for the cycles of Table 10-2 a block, pop one
scale entry a block, and land their result six cycles after the last; an illegal triple raises ILLEGAL, an engine in
use or a scale entry still outstanding TIMING in aligned mode and a wait in free mode, too short a scale queue SCALEQ.
MCLR clears its accumulator, and ACCIN writes its window and kind, on t + 7, each taking the engine for one cycle.
ACCMV reads its window at issue, zero outside the accumulator, converted where the format differs, and lands after
four cycles. (R189; R192; R194; R198; R200; R201; R202) -/
def Obligations.MatrixForms : Prop :=
  ∀ (h : Hdr) (c : BitVec 2) (pa pb pm : BitVec 3) (fsrc : BitVec 1) (lvl : BitVec 2) (planes fa0 fb0 fmt : BitVec 4)
    (zero sat tr : BitVec 1) (kblk : BitVec 3) (vt : TileCode) (row0 : BitVec 7) (col0 : BitVec 8) (pg : PReg) (s : State),
    (∀ k ∈ [(Instr.mma h c pa pb fsrc lvl planes fa0 fb0 zero kblk, (none : Option (BitVec 3))),
            (.mmas h c pa pb fsrc lvl planes pm fa0 fb0 zero kblk, some pm)],
      let f := s.matrixShape fsrc lvl planes fa0 fb0
      let kb := kblk.toNat + 1
      let d := kb * blockCycles f.1 (planesOf f.1 f.2.2) k.2.isSome
      let pops := if scaledFmt f.1 || scaledFmt f.2.1 then kb else 0
      let slots := fun b => (rowSlots f.2.1 k.2.isSome pb.toNat b) ++ (k.2.map (·.toNat)).toList
      ((matrixTriple f.2.2 f.1 f.2.1 = false ∨ rowSlotsFit k.2.isSome f.2.1 kblk = false) → s.issues h {} →
        exec k.1 s = .next (s.raise h 2 { code := .illegal })) ∧
      (matrixTriple f.2.2 f.1 f.2.1 = true → rowSlotsFit k.2.isSome f.2.1 kblk = true →
        s.issues h { reads := ((List.range kb).flatMap (fun b => Dest.plane s.cur.unit ((pa.toNat + b) % 8) ::
          (slots b).map (Dest.row s.cur.unit))).eraseDups } →
        (s.cyc < s.here.engine → s.waitsFor h 2 s.here.engine k.1) ∧
        (s.here.engine ≤ s.cyc → s.here.present < pops →
          (s.here.sq.length < pops → exec k.1 s = .next (s.raise h 2 { code := .scaleq })) ∧
          (pops ≤ s.here.sq.length → s.waitsFor h 2 (s.cyc + 1) k.1)) ∧
        (s.here.engine ≤ s.cyc → pops ≤ s.here.present →
        ∃ t e, exec k.1 s = .next t ∧ t.here.engine = s.cyc + d ∧ t.here.sq = s.here.sq.drop pops ∧ t.me.pc = (s.me.advance 2 0 s.cyc).pc ∧
          e ∈ t.effs ∧ e.at_ = s.cyc + d + 6 ∧ e.dest = some (.acc s.cur.unit c) ∧
          (∃ scales blk, scales.length = pops ∧ e.op = .matrix s.cur.unit s.serial c f.1 f.2.1 (planesOf f.1 f.2.2) kb (zero == 1)
            k.2.isSome pb.toNat ((k.2.map (·.toNat)).getD 0) scales [blk])))) ∧
    (s.issues h {} → s.cyc < s.here.engine → s.waitsFor h 1 s.here.engine (.mclr h c)) ∧
    (s.issues h {} → s.here.engine ≤ s.cyc →
      ∃ t e, exec (.mclr h c) s = .next t ∧ t.here.engine = s.cyc + 1 ∧ t.effs = s.effs ++ [e] ∧ e.at_ = s.cyc + 7 ∧
        e.op = .clearAcc s.cur.unit c) ∧
    (s.issuesIf h pg { reads := [.acc s.cur.unit c], writes := s.tileDest vt } →
      let kind : BitVec 4 := match (s.here.accs.get c.toFin).kind with | .fp32 => 0 | .int32 => 6
      exec (.accmv h vt c row0 pg col0 fmt sat tr) s = .next ((s.result h vt 4 none true
        ((windowOf s.here.shp row0 col0 tr).map (fun p =>
          let x := match cellIndex p with | some i => s.here.accCell c i | none => (0, 0)
          if fmt = kind then x
          else (BitVec.ofNat 32 (convertV x.1.toNat kind fmt (sat == 1)).1, x.2 ||| (convertV x.1.toNat kind fmt (sat == 1)).2)))).retire 2 0)) ∧
    (s.issuesIf h pg { reads := s.tileDest vt, lanes := lanesOf s.here.shp } → s.cyc < s.here.engine →
      s.waitsFor h 2 s.here.engine (.accin h vt c row0 pg col0 fmt sat tr)) ∧
    (s.issuesIf h pg { reads := s.tileDest vt, lanes := lanesOf s.here.shp } → s.here.engine ≤ s.cyc →
      ∃ t e, exec (.accin h vt c row0 pg col0 fmt sat tr) s = .next t ∧ t.here.engine = s.cyc + 1 ∧ t.effs = s.effs ++ [e] ∧
        e.at_ = s.cyc + 7 ∧
        e.op = .setAcc s.cur.unit c (((windowOf s.here.shp row0 col0 tr).zipIdx).filterMap (fun p =>
          (cellIndex p.1).map (fun i => (i, laneAt (s.tile vt) p.2)))) (some (if fmt = 6 then .int32 else .fp32)))

/-- A shepherd of a node of the fabric partition whose operands pass checks 1 to 3 (an image with the destination and
length it holds at issue, log 26), whose source is not claimed and whose earlier accesses, for a release those that a
BAR put before it too, are performed by then, starts its send: one operation reads template and source on t + 20, or t
+ 48 where one lies on another die, to land on t + 40 or t + 96. Where check 1, 2 or 3 fails it raises that fault,
where the rest fails in aligned mode TIMING; off the fabric partition it raises PROTECTION. When the template of a
send of a live node has landed without a fault of check 5, a LOSSY send acts on its first route entry at once. An
EXACT one without a handle marks its slot with its destination rank, or finds it busy: TIMING where planned, else it
tries again a cycle later. An RSIG or RATM that an earlier unacknowledged RST or RATM of its shepherd to the same rank
holds back then waits with its slot marked; every other send leaves. The packet carries the rank of its node and part,
its tag and the twelve entries of the template. (R243; R245; R246; R256; R259; 12 Table 12-3; 12 Table 12-4; log 26;
R241; R253; R257) -/
def Obligations.SendForms : Prop :=
  (∀ (h : Hdr) (xa xb xc xr xd : XReg) (cls size : BitVec 1) (fn : BitVec 3) (s : State) (n : Node), s.here.node.bind s.node? = some n →
    ∀ k ∈ [(Instr.rst h xa xb xc cls xr, 2, ({ reads := [.x s.cur xa, .x s.cur xb, .x s.cur xc, .x s.cur xr] } : Ask),
             s.newPlan (some (cls == 1)) 0 (s.xr xr) (some (s.xr xa)) (some (s.xr xb)) (s.xr xc).toNat),
           (.psend h xa, 1, { reads := [.x s.cur xa] }, s.newPlan none 0 (s.xr xa) none none 0),
           (.rsig h xa xb xr, 1, { reads := [.x s.cur xa, .x s.cur xb, .x s.cur xr] },
             { s.newPlan (some true) 1 (s.xr xr) none (some (s.xr xa)) 256 with
               payload := leBytes 8 (s.xr xb).toNat ++ List.replicate 248 0 }),
           (.ratm h xd xa xb fn size xr xc, 2,
             { reads := [.x s.cur xa, .x s.cur xb, .x s.cur xr, .x s.cur xc], writes := [.x s.cur xd] },
             { s.newPlan (some true) 2 (s.xr xr) none (some (s.xr xa)) 256 with
               payload := leBytes 8 (s.xr xb).toNat ++ leBytes 8 (s.xr xc).toNat ++ List.replicate 240 0
               fn := fn.toNat
               size := size == 1
               reply := some xd })],
    let p := k.2.2.2
    s.issues h k.2.2.1 →
    (∀ r, s.sendFault n p = some r → exec k.1 s = .next (s.raise h k.2.1 r)) ∧
    (s.sendFault n p = none → (p.cls = none → s.me.aligned = true ∨ s.pends s.cur = []) →
      (∀ r, s.sendFault n (s.atIssue p) = some r → exec k.1 s = .next (s.raise h k.2.1 r)) ∧
      (s.sendFault n (s.atIssue p) = none → ∀ c ∈ [(true, 48, 96), (false, 20, 40)], p.far s.cur.unit = c.1 →
        let held := s.claimed1 p.source (max 256 (s.atIssue p).len) || !s.allPerformed (s.cyc + c.2.1) || !s.foldPerformed p (s.cyc + c.2.1)
        (held = true → s.me.aligned = true → exec k.1 s = .next (s.raise h k.2.1 { code := .timing })) ∧
        (held = false → ∃ t e, exec k.1 s = .next t ∧
          t = ({ s with effs := s.effs ++ [e] } : State).retire k.2.1 0 ∧ e.at_ = s.cyc + c.2.1 ∧ e.by_ = s.cur ∧ e.pc = s.me.pc ∧
          e.op = .send { p with first := s.cyc + c.2.2 }))) ∧
    (p.cls ≠ none → s.atIssue p = p) ∧
    (p.cls = none → let head := s.spadBytes (p.tmpl.toNat % 2 ^ 56) 64
      s.atIssue p = { p with dst := some (BitVec.ofNat 64 (leNat ((head.drop 8).take 8))), len := 256 * ((head.headD 0).toNat / 2 % 16 + 1) }) ∧
    (p.source.all (fun a => a.toNat % 256 == 0 && (win1Fault n a (max 256 p.len)).isNone) = true →
      p.tmpl.toNat % (if p.cls.isNone then 256 else 64) = 0 → win1Fault n p.tmpl 64 = none →
      p.dst.all (fun a => a.toNat % p.align == 0 && (win2Fault n a p.dstLen).isNone) = true →
      (p.kind = 0 → p.cls.isSome = true → p.len % 256 = 0 ∧ 256 ≤ p.len ∧ p.len ≤ 4096) →
      (some n.part ≠ s.fabric → exec k.1 s = .next (s.raise h k.2.1 { code := .protection })) ∧
      (some n.part = s.fabric → (p.cls = some false → s.me.aligned = true) → s.sendFault n p = none))) ∧
  (∀ (s : State) (e : Eff) (p : SendPlan) (n : Node), s.node? e.node = some n → e.at_ = s.cyc →
    let u := e.by_.unit
    let k := p.packet n (dieOf u)
    let slot : Idx64 := Fin.ofNat 64 k.slot
    let again : State := { s with effs := s.effs ++ [{ e with at_ := s.cyc + 1 }] }
    let waits := (p.kind = 1 ∨ p.kind = 2) ∧ s.unacked e (podRank p.dest) = true
    (∀ r, e.at_ = p.first → p.landFault n (dieOf u) = some r → s.landSend e p = s.raiseAt e.by_ e.pc e.node r) ∧
    ((e.at_ = p.first → p.landFault n (dieOf u) = none) →
      (k.rank = n.rank ∧ k.die = dieOf u ∧ k.tag = n.tag ∧ k.hop = 0 ∧ k.route.length = 12 ∧
        (∀ i, i < 12 → k.route[i]? = some (field16 p.head (0x10 + 2 * i)))) ∧
      (p.exact = false → s.landSend e p = s.firstHop e.org k) ∧
      (p.exact = true → p.marked = true → s.landSend e p =
        if s.unacked e (podRank p.dest) then again else s.firstHop e.org k) ∧
      (p.exact = true → p.marked = false → p.hd = none →
        (((s.core u).slots.get slot).busy = true → p.free = true → s.landSend e p = again) ∧
        (((s.core u).slots.get slot).busy = true → p.free = false →
          s.landSend e p = s.raiseAt e.by_ e.pc e.node { code := .timing }) ∧
        (((s.core u).slots.get slot).busy = false → ∃ t : State,
          (∀ v, v ≠ u → t.core v = s.core v) ∧ t.effs = s.effs ∧ ((t.core u).slots.get slot).busy = true ∧
          ((t.core u).slots.get slot).dest = podRank p.dest ∧
          (∀ j, j ≠ slot → (t.core u).slots.get j = (s.core u).slots.get j) ∧
          (¬ waits → s.landSend e p = State.firstHop t e.org k) ∧
          (waits → s.landSend e p =
            { t with effs := t.effs ++ [{ e with at_ := s.cyc + 1, op := .send { p with marked := true } }] })))))

/-- In a node of the fabric partition: COLL and A2A with an idle handle, earlier accesses performed and a list that passes
its checks make the handle busy and read the list 63, or 20 or 48, cycles later. RXARM with a legal record arms its
descriptor. RXMSK writes the blocks received to xd on t + 2. STEPREQ with room posts xa; with none it raises TIMING or
waits, and one that finds no room on its timeout cycle raises the timeout. STEPGET takes the oldest entry at once and
writes it to xd, with its unit and a one, on t + 2, zero where there is none; a squashable one in a shadow can give it
back (06 R119). LNKST writes the status of its port. GUARD of a port of its die schedules its interval for t + 40. All
but LNKST raise PROTECTION off the fabric partition: COLL, A2A and RXARM after the checks of alignment and window, an
order that the spec gives for sends and the model takes for RXARM too (log 26). (R245; R249; R262; R264; R265; R266;
R267; R291; log 26) -/
def Obligations.ShepherdForms : Prop :=
  ∀ (h : Hdr) (xa xb xd : XReg) (hd rx : BitVec 6) (port : BitVec 4) (beats : BitVec 8) (s : State) (n : Node),
    s.here.node.bind s.node? = some n →
    let a := s.xr xa
    let u := s.cur.unit
    let off := (a.toNat % 2 ^ 56)
    let far := dieOf (coreOf off) ≠ dieOf u
    (s.issues h { reads := [.x s.cur xa] } →
      (∀ r, s.listFault n a 32 = some r → exec (.coll h xa hd) s = .next (s.raise h 1 r)) ∧
      (a.toNat % 64 = 0 → win1Fault n a 32 ≠ some .window → some n.part ≠ s.fabric →
        exec (.coll h xa hd) s = .next (s.raise h 1 { code := .protection })) ∧
      (s.listFault n a 32 = none → (s.here.handles.get hd.toFin).busy = false → s.claimed off 32 = false →
        s.allPerformed (s.cyc + 63) = true →
        ∃ t, exec (.coll h xa hd) s = .next t ∧ (t.here.handles.get hd.toFin).busy = true ∧ (t.here.handles.get hd.toFin).addr = a ∧
          (∃ e ∈ t.effs, e.at_ = s.cyc + 63 ∧ e.by_ = s.cur ∧ e.op = .head hd.toFin) ∧ (∀ v, v ≠ u → t.core v = s.core v)) ∧
      (a.toNat % 32 ≠ 0 → exec (.rxarm h xa rx) s = .next (s.raise h 1 { code := .alignment, addr := a.toNat })) ∧
      (a.toNat % 32 = 0 → win1Fault n a 32 = some .window →
        exec (.rxarm h xa rx) s = .next (s.raise h 1 { code := .window, addr := a.toNat })) ∧
      (a.toNat % 32 = 0 → win1Fault n a 32 = none → some n.part ≠ s.fabric →
        exec (.rxarm h xa rx) s = .next (s.raise h 1 { code := .protection })) ∧
      (a.toNat % 32 = 0 → win1Fault n a 32 = none → some n.part = s.fabric → s.claimed off 32 = false →
        ∃ t, exec (.rxarm h xa rx) s = .next t ∧ (t.here.descs.get rx.toFin).state = .arming ∧
          (∀ j, j ≠ rx.toFin → t.here.descs.get j = s.here.descs.get j) ∧ (∀ v, v ≠ u → t.core v = s.core v) ∧
          ∃ e ∈ t.effs, e.by_ = s.cur ∧ (far → e.at_ = s.cyc + 48) ∧ (¬ far → e.at_ = s.cyc + 20) ∧
            ∃ ad dst ld ro, e.op = .load ad [] dst ld ro ∧ ad = span off 32)) ∧
    (s.issues h { reads := [.x s.cur xa, .x s.cur xb] } →
      let len := 64 + 16 * (s.xr xb).toNat
      (∀ r, s.listFault n a len = some r → exec (.a2a h xa xb hd) s = .next (s.raise h 1 r)) ∧
      (a.toNat % 64 = 0 → win1Fault n a len ≠ some .window → some n.part ≠ s.fabric →
        exec (.a2a h xa xb hd) s = .next (s.raise h 1 { code := .protection })) ∧
      (s.listFault n a len = none → n.size % 8 ≠ 0 → exec (.a2a h xa xb hd) s = .next (s.raise h 1 { code := .protection })) ∧
      (s.listFault n a len = none → n.size % 8 = 0 → (s.here.handles.get hd.toFin).busy = false → s.claimed off len = false →
        s.allPerformed (s.cyc + 48) = true → s.allPerformed (s.cyc + 20) = true →
        ∃ t, exec (.a2a h xa xb hd) s = .next t ∧ (t.here.handles.get hd.toFin).busy = true ∧
          (t.here.handles.get hd.toFin).exchange = true ∧ (t.here.handles.get hd.toFin).tokens = (s.xr xb).toNat ∧
          (∀ v, v ≠ u → t.core v = s.core v) ∧
          ∃ e ∈ t.effs, e.by_ = s.cur ∧ (far → e.at_ = s.cyc + 48) ∧ (¬ far → e.at_ = s.cyc + 20) ∧
            e.op = .exchange hd.toFin a (s.xr xb).toNat false)) ∧
    (s.issues h { writes := [.x s.cur xd] } →
      exec (.lnkst h xd port) s = .next ((s.laterX h xd 2 (s.linkStatus (Fin.ofNat 12 port.toNat))).retire 1 0) ∧
      (some n.part = s.fabric →
        exec (.rxmsk h xd rx) s = .next ((s.laterX h xd 2 (s.here.descs.get rx.toFin).gotBits).retire 1 0) ∧
        (s.here.mailbox = [] → exec (.stepget h xd) s = .next ((s.laterX h xd 2 0).retire 1 0)) ∧
        (∀ e l, s.here.mailbox = e :: l →
          let v := BitVec.ofNat 64 (2 ^ 63 + e.unit.val * 2 ^ 56 + e.value.toNat % 2 ^ 56)
          let t := (s.modHere (fun c => { c with mailbox := l })).laterX h xd 2 v
          (s.unresolved = none ∨ h.sq = false → exec (.stepget h xd) s = .next (t.retire 1 0)) ∧
          (∀ b, s.unresolved = some b → h.sq = true →
            exec (.stepget h xd) s = .next ((t.later h b false true (.takeStep e)).retire 1 0)))) ∧
      (some n.part ≠ s.fabric → exec (.rxmsk h xd rx) s = .next (s.raise h 1 { code := .protection }) ∧
        exec (.stepget h xd) s = .next (s.raise h 1 { code := .protection }))) ∧
    (s.me.wait = none → s.issues h { reads := [.x s.cur xa, .x s.cur xb] } →
      (some n.part ≠ s.fabric → exec (.stepreq h xa xb) s = .next (s.raise h 1 { code := .protection })) ∧
      (some n.part = s.fabric → s.releaseHeld = false →
        (s.posts (s.shepFor u) < 16 → exec (.stepreq h xa xb) s = .next ((s.post h a).retire 1 0)) ∧
        (16 ≤ s.posts (s.shepFor u) → s.me.aligned = true → exec (.stepreq h xa xb) s = .next (s.raise h 1 { code := .timing })) ∧
        (16 ≤ s.posts (s.shepFor u) → s.me.aligned = false → ∃ t, exec (.stepreq h xa xb) s = .next t ∧ t.me.pc = s.me.pc ∧
          t.me.wait = some { t0 := s.cyc, tmo := (s.xr xb).toNat, what := .mailbox, sq := h.sq }))) ∧
    (∀ w, s.me.wait = some w → w.what = .mailbox →
      (s.posts (s.shepFor u) < 16 → exec (.stepreq h xa xb) s = .next ((s.post h a).retire 1 0)) ∧
      (16 ≤ s.posts (s.shepFor u) → w.tmo ≠ 0 → w.t0 + w.tmo ≤ s.cyc →
        exec (.stepreq h xa xb) s = .next (s.timeoutNow s.cur w))) ∧
    (s.issues h {} →
      ((some n.part ≠ s.fabric ∨ portDie port.toNat ≠ dieOf u) →
        exec (.guard h port beats) s = .next (s.raise h 1 { code := .protection })) ∧
      (some n.part = s.fabric → portDie port.toNat = dieOf u → exec (.guard h port beats) s =
        .next ((s.postMine 40 (.guardIntervalStart u (Fin.ofNat 12 port.toNat) beats.toNat s.me.aligned s.me.pc)).retire 1 0)))

/-- The walk of a request of a running node that has not been performed: held in order it is tried again on the next
cycle; else a load takes the bytes the node reads, extended to 64 bits, a store writes them, and their answer is due
on a later cycle; a fault of the access is raised, with the address, at the instruction, which is no squashable one
behind a branch. A node reads its shadow of a page where it has one, else the live page: an unmapped one is
TRANSLATION, one of a key that is not loaded PROTECTION. An answer that returns ends the request; the value of a load
or atomic lands in xd with the landings of the next cycle, a store writes nothing. (R85; R210; R211; R340; R341; R343) -/
def Obligations.RequestEvents : Prop :=
  (∀ (id : Nat) (s : State) (u : UnitId) (idx : Nat) (r : Req) (n : Node), s.reqOf id = some (u, idx, r) →
    (s.core u).node.bind s.node? = some n →
    (r.done.isSome = true → exec (.pageWalk id) s = .next s) ∧
    (r.done = none → s.reqBlocked u idx r = true → exec (.pageWalk id) s = .next { s with agenda := s.agenda ++
        [{ due := .cyc (s.cyc + 1), ev := .pageWalk id, node := some n.nd, iss := r.iss }] }) ∧
    (r.done = none → s.reqBlocked u idx r = false →
      (∀ xd len sx, r.op = .load xd len sx →
        (∀ c i, s.readNode n r.addr len r.id = .bad c i → (r.sq = false ∨ (s.core u).lastBranch = none) → exec (.pageWalk id) s =
          .next ((s.dropReq u r.id).raiseAt ⟨u, r.q⟩ r.pc n.nd { code := c, addr := (s.faultAddr n r.addr c).toNat, info := i })) ∧
        (∀ bs, s.readNode n r.addr len r.id = .bytes bs →
          exec (.pageWalk id) s = .next (s.reqDone u r (if sx ∧ 2 ^ (8 * len - 1) ≤ leNat bs
            then BitVec.ofInt 64 ((leNat bs : Int) - 2 ^ (8 * len)) else BitVec.ofNat 64 (leNat bs))))) ∧
      (∀ bs t, r.op = .store bs →
        (∀ c, s.writeNode n r.addr bs r.id = (t, some c) → (r.sq = false ∨ (t.core u).lastBranch = none) → exec (.pageWalk id) s =
          .next ((t.dropReq u r.id).raiseAt ⟨u, r.q⟩ r.pc n.nd { code := c, addr := (t.faultAddr n r.addr c).toNat })) ∧
        (s.writeNode n r.addr bs r.id = (t, none) → exec (.pageWalk id) s = .next (t.reqDone u r 0))))) ∧
  (∀ (s : State) (n : Node) (a : Dword) (len id : Nat), a.toNat / 2 ^ 56 = 0x10 →
    let o := a.toNat % 2 ^ 56
    (s.shadowAt n o = none →
      (s.walk n.pasid o = none → s.readNode n a len id = .bad .translation 0) ∧
      (∀ l, s.walk n.pasid o = some l → s.keys.contains (pteKey l.e) = false → s.readNode n a len id = .bad .protection 0) ∧
      (∀ l, s.walk n.pasid o = some l → s.keys.contains (pteKey l.e) = true → s.devBad (pteAddr l.e + (o - l.va)) len = false →
        s.readNode n a len id = .bytes (s.readKey (pteKey l.e) (pteAddr l.e + (o - l.va)) len))) ∧
    (∀ g, s.shadowAt n o = some g → s.keys.contains (pteKey (s.entryAt g.leaf)) = true → s.devBad (g.frame + (o - g.va)) len = false →
      s.readNode n a len id = .bytes (s.readKey (pteKey (s.entryAt g.leaf)) (g.frame + (o - g.va)) len))) ∧
  (∀ (s : State) (u : UnitId) (r : Req) (v : Dword), ∃ t, s.reqDone u r v = t ∧
    (∃ e ∈ t.agenda, e.ev = .requestReturn r.id ∧ ∃ c, e.due = .cyc c ∧ s.cyc < c) ∧
    (∀ q ∈ (t.core u).reqs, q.id = r.id → q.done = some v) ∧ (∀ w, w ≠ u → t.core w = s.core w)) ∧
  (∀ (id : Nat) (s : State) (u : UnitId) (idx : Nat) (r : Req) (v : Dword), s.reqOf id = some (u, idx, r) → r.done = some v →
    let t := s.modCore u (fun c => { c with reqs := c.reqs.filter (fun x => x.id != id) })
    (∀ xd, ((∃ len sx, r.op = .load xd len sx) ∨ ∃ fn w b c, r.op = .atomic xd fn w b c) →
      ∃ f, exec (.requestReturn id) s = .next { t with effs := t.effs ++ [f] } ∧ f.at_ = s.cyc + 1 ∧ f.iss = r.iss ∧
        f.op = .setX ⟨u, r.q⟩ xd v false) ∧
    (∀ bs, r.op = .store bs → exec (.requestReturn id) s = .next t) ∧
    (∀ t0, r.op = .waitRead t0 → exec (.requestReturn id) s = .next (t.readMet ⟨u, r.q⟩ t0)))

/-- After a failed power-on step nothing happens. The beats of a packet occupy its port. A stray packet is counted in the
saturating STRAY field of its port and has no other effect. An EXACT one that finds no buffer, or stands behind one
that has found none, holds its link, in its place. Else FWD makes it ready to leave 16, or on another die 44, cycles
after its header c; DLV delivers it; DUP does both, but is stray where its delivery is; ROUTE_END drops it, as stray
where nothing delivered it. At RDC_HOP a packet with no open reduce descriptor that has its blocks is stray; one whose
last block comes after the close of a LOSSY one counts its blocks as late; else it is ready to leave on c + 32 or c +
60, each block combined with its buffer block 24 or 52 cycles after its last beat. A LOSSY block that its descriptor
takes reaches the array 24 or 52 cycles after its last beat. An EXACT packet that is delivered takes one of the
buffers. Of the model (log 24, DEDUCED): a LOSSY delivery or an RDC block that its descriptor does not take is judged
at the header event and makes the whole packet stray, and a DUP is stray as a whole. (R242; R243; R244; R249; R250;
R251; R253; R254; 12 Table 12-3; log 24) -/
def Obligations.PacketEvents : Prop :=
  ∀ (a : Arrival) (s : State),
    let e := a.pkt.entry
    let u := s.portShep a.port
    let c := s.modPort a.port (fun q => { q with quietFrom := max q.quietFrom (a.cyc + 2 * (1 + 4 * a.pkt.blocks.length)) })
    let held := a.pkt.exact && (s.linkHeld a.port || (s.needsBuffer a.pkt && !s.bufferFree u))
    (s.errV = true → ∀ i ∈ [Instr.fwd a, .dlv a, .dup a, .rdcHop a, .routeEnd a], exec i s = .next s) ∧
    (s.errV = false → s.strayHeader a.pkt = true → ∀ i ∈ [Instr.fwd a, .dlv a, .dup a, .rdcHop a, .routeEnd a],
      exec i s = .next (c.modPort a.port (fun q => { q with stray := min 0xFFF (q.stray + 1) }))) ∧
    (s.errV = false → s.strayHeader a.pkt = false → ∀ k ∈ [(Instr.routeEnd a, 0), (.fwd a, 1), (.dlv a, 2), (.rdcHop a, 3), (.dup a, 4)],
      e / 2 ^ 13 = k.2 → held = true → ∃ t, exec k.1 s = .next t ∧ t.serial = s.serial + 1 ∧ t.effs = s.effs ∧ t.transit = s.transit ∧
        (t.core u).exbuf = (s.core u).exbuf ++ [⟨s.serial, a, false⟩]) ∧
    (s.errV = false → s.strayHeader a.pkt = false → held = false →
      (e / 2 ^ 13 = 1 → exec (.fwd a) s = .next (c.forwardPkt (hopOrg u) a.port.val a)) ∧
      (e / 2 ^ 13 = 2 → exec (.dlv a) s = .next (c.deliverPkt a)) ∧
      (e / 2 ^ 13 = 3 → exec (.rdcHop a) s = .next (c.combinePkt (hopOrg u) a.port.val a)) ∧
      (e / 2 ^ 13 = 4 →
        let drop := if a.pkt.exact then decide (a.pkt.kind < 3) && !c.destGranted (a.pkt.dest.toNat % 2 ^ 34) else c.lossyStray a
        (drop = true → exec (.dup a) s = .next (c.modPort a.port (fun q => { q with stray := min 0xFFF (q.stray + 1) }))) ∧
        (drop = false → exec (.dup a) s = .next ((c.deliverPkt a).forwardPkt (hopOrg u) a.port.val a))) ∧
      (e / 2 ^ 13 = 0 →
        (a.pkt.kind = 3 ∨ a.pkt.kind = 4 → exec (.routeEnd a) s = .next (c.deliverPkt a)) ∧
        (a.pkt.kind ≠ 3 → a.pkt.kind ≠ 4 → a.pkt.delivered = true → exec (.routeEnd a) s = .next c) ∧
        (a.pkt.kind ≠ 3 → a.pkt.kind ≠ 4 → a.pkt.delivered = false →
          exec (.routeEnd a) s = .next (c.modPort a.port (fun q => { q with stray := min 0xFFF (q.stray + 1) }))))) ∧
    (∀ o src, ∃ t f, s.forwardPkt o src a = t ∧ t.effs = s.effs ++ [f] ∧ t.transit = s.transit ++ [(s.serial, { a.pkt with hop := a.pkt.hop + 1 })] ∧
      f.at_ = a.cyc + (if portDie (entryPort e) = portDie a.port.val then 16 else 44) ∧
      f.op = .depart s.serial (Fin.ofNat 12 (entryPort e)) (entryChan e) f.at_ src ∧ (∀ v, t.core v = s.core v)) ∧
    (let rx : Idx64 := Fin.ofNat 64 (entryRx e)
     let d := (s.core u).descs.get rx
     let base := d.base.toNat % 2 ^ 56
     let x := a.pkt.dest.toNat % 2 ^ 29
     let b := base % 2 ^ 29
     let n := a.pkt.blocks.length
     let lim := if dieOf (coreOf base) = portDie a.port.val then 24 else 52
     let last := a.cyc + 8 * (n - 1 + 1) + lim
     let takes := d.state = .open_ ∧ d.red = true ∧ b ≤ x ∧ (x - b) % 256 = 0 ∧ (x - b) / 256 + n ≤ d.e
     ∀ o src,
      (¬ takes → s.combinePkt o src a = s.modPort a.port (fun q => { q with stray := min 0xFFF (q.stray + 1) })) ∧
      (takes → d.ex = false → d.close < last → s.combinePkt o src a = s.modPort a.port (fun q => { q with late := min 0xFFF (q.late + n) })) ∧
      (takes → (d.ex = true ∨ last ≤ d.close) → ∃ t, s.combinePkt o src a = t ∧
        t.transit = s.transit ++ [(s.serial, { a.pkt with hop := a.pkt.hop + 1 })] ∧
        (∃ f ∈ t.effs, f.at_ = a.cyc + (if lim = 24 then 32 else 60) ∧
          f.op = .depart s.serial (Fin.ofNat 12 (entryPort e)) (entryChan e) f.at_ src) ∧
        (∀ j, j < n → ∃ f ∈ t.effs, f.at_ = a.cyc + 8 * (j + 1) + lim ∧
          f.op = .combine a.port s.serial j rx d.serial ((x - b) / 256 + j) (base + 256 * ((x - b) / 256 + j)) (e % 2 == 1)) ∧
        (∀ v, t.core v = s.core v))) ∧
    (let rx : Idx64 := Fin.ofNat 64 (entryRx e)
     let d := (s.core u).descs.get rx
     let off := a.pkt.dest.toNat % 2 ^ 34
     let base := d.base.toNat % 2 ^ 56
     a.pkt.exact = false → a.pkt.kind = 0 → s.destGranted off = true → d.state = .open_ → d.ex = false → (d.any = true ∨ d.rank = a.pkt.rank) →
      base ≤ off → (off - base) % 256 = 0 → (off - base) / 256 + a.pkt.blocks.length ≤ d.e →
      (∀ v, (s.deliverPkt a).core v = s.core v) ∧
      (∀ j b, a.pkt.blocks[j]? = some b → b.crcOk = true → ∃ f ∈ (s.deliverPkt a).effs,
        f.at_ = a.cyc + 8 * (j + 1) + (if dieOf (coreOf base) = portDie a.port.val then 24 else 52) ∧
        f.op = .deliver a.port rx d.serial ((off - base) / 256 + j) (a.pkt.counts.getD j 1) (off + 256 * j) b.data)) ∧
    (a.pkt.exact = true → a.pkt.kind = 0 → s.destGranted (a.pkt.dest.toNat % 2 ^ 34) = true → e / 2 ^ 13 = 2 ∨ e / 2 ^ 13 = 4 →
      ((s.deliverPkt a).core u).exbuf = (s.core u).exbuf ++ [⟨s.serial, a, true⟩])

/-- A slot-free notice frees its slot, or takes the oldest send in flight off its handle, with its tokens (log 27). An
atomic reply frees its slot and lands its value on the next cycle in the register that waits for it. A buffered signal
or atomic is tried on the next cycle and waits while an open descriptor covers its sender; else it reads its word,
writes the sum or the result of its function, answers with the old value and leaves its buffer. A stage 1 packet waits
for the A2A of its exchange (log 25); stage 2 writes its tokens. A step of a busy program is read, then run. An open
LOSSY descriptor of that arming closes. A guard interval of 2 × beats cycles starts when its port is idle; an aligned
one that finds it busy raises TIMING, a free one tries again. (R235; R250; R253; R257; R260; R261; R264; R265; R291;
log 25; log 27) -/
def Obligations.ShepherdEvents : Prop :=
  ∀ (s : State) (u : UnitId),
    (∀ slot : Idx64, exec (.slotFreeNotice u slot none) s =
      .next (s.modCore u (fun c => { c with slots := c.slots.set slot.val {} slot.isLt }))) ∧
    (∀ (slot : Idx64) (old : Dword) q r w, ((s.core u).slots.get slot).reply = some (q, r, w) →
      let t := s.modCore u (fun c => { c with slots := c.slots.set slot.val {} slot.isLt })
      ∃ f, exec (.atomicReply u slot old) s = .next { t with effs := t.effs ++ [f] } ∧ f.at_ = s.cyc + 1 ∧
        f.op = .setX ⟨u, q⟩ r (if w then old else (old.setWidth 32).setWidth 64) false) ∧
    (∀ (slot hd : Idx64) (kind dest relay n : Nat) (rest : List (Nat × Nat × Nat × Nat)),
      let h := (s.core u).handles.get hd
      (h.flight = [] → exec (.slotFreeNotice u slot (some hd)) s = .next s) ∧
      (h.flight = (kind, dest, relay, n) :: rest → kind < 5 ∨ relay = 0 → ∃ t, exec (.slotFreeNotice u slot (some hd)) s = .next t ∧
        (t.core u).handles.get hd = { h with flight := rest, tokens := if kind = 5 ∨ kind = 6 then h.tokens - n else h.tokens } ∧
        (∀ j, j ≠ hd → (t.core u).handles.get j = (s.core u).handles.get j) ∧ (∀ v, v ≠ u → t.core v = s.core v))) ∧
    (∀ id k h, s.heldOf id = some (k, h) → ∀ i ∈ [Instr.signalAdd id, .remoteAtomic id],
      ∃ t f, exec i s = .next t ∧ t = { s with effs := s.effs ++ [f] } ∧ f.at_ = s.cyc + 1 ∧ f.op = .perform id) ∧
    (∀ (e : Eff) id k h, s.heldOf id = some (k, h) → s.covered h.a.pkt.rank = true →
      s.performHeld e id = { s with effs := s.effs ++ [{ e with at_ := s.cyc + 1 }] }) ∧
    (∀ (e : Eff) id k h, s.heldOf id = some (k, h) → s.covered h.a.pkt.rank = false → (∀ x ∈ (s.core k).exbuf, x.admitted = true) →
      let p := h.a.pkt
      let off := p.dest.toNat % 2 ^ 34
      let data := (p.blocks.map (·.data)).headD []
      let wide := decide (p.kind = 1) || p.size
      let old := s.spadBytes off (if wide then 8 else 4)
      let new := atomicBytes (if p.kind = 1 then 0 else BitVec.ofNat 3 p.fn) wide old (BitVec.ofNat 64 (leNat (data.take 8)))
        (BitVec.ofNat 64 (leNat ((data.drop 8).take 8)))
      s.spadBad off (if wide then 8 else 4) = false →
      s.performHeld e id = ((match new with | some bs => s.writeSpad ((List.range' off bs.length).zip bs) | none => s).answer h
          (if p.kind = 1 then 4 else 3) (BitVec.ofNat 64 (leNat old))).modCore k
        (fun c => { c with exbuf := c.exbuf.filter (fun x => x.id != id) })) ∧
    (∀ a : Arrival,
      let hd : Idx64 := Fin.ofNat 64 a.pkt.slot
      let h := (s.core (s.portShep a.port)).handles.get hd
      let ahead := (a.pkt.fn + 8 - h.count % 8) % 8
      (h.xw = 0 ∨ (1 ≤ ahead ∧ ahead < 4) → exec (.exchangeStage1 a) s = .next (s.postIn 1 (.exchangeStage1 a))) ∧
      (h.xw ≠ 0 → (ahead = 0 ∨ 4 ≤ ahead) → (∀ x ∈ (s.core (s.portShep a.port)).exbuf, x.admitted = true) →
        ∀ n, s.groupNode = some n → ∃ t, exec (.exchangeStage1 a) s = .next t ∧ s.serial < t.serial ∧
        ∃ r ∈ ((t.core (s.portShep a.port)).handles.get hd).relays, r.1 = s.serial ∧ r.2.2 = (a.pkt, a.port)) ∧
      (∀ b c, a.pkt.blocks = [b, c] → (s.heldId (s.portShep a.port) a) = none →
        exec (.exchangeStage2 a) s = .next (s.tokenHere (s.portShep a.port) (field64 b.data 0, c.data) none))) ∧
    (∀ (hd : Idx64) (j : Nat),
      let h := (s.core u).handles.get hd
      (h.busy = false ∨ h.s ≤ j → exec (.collStep u hd j) s = .next s) ∧
      (h.busy = true → j < h.s → h.steps[j]? = none → exec (.collStep u hd j) s = .next (s.readStep u hd j)) ∧
      (h.busy = true → j < h.s → ∀ r n, h.steps[j]? = some r → s.node? h.node = some n →
        exec (.collStep u hd j) s = .next (s.runStep u hd j r) ∧
        (h.exact = true → j ≠ h.done → s.runStep u hd j r = s.stepAt (s.cyc + 1) u hd j) ∧
        (h.exact = false → r.length = 32 → (r.getD 4 0).toNat = 1 → (r.getD 5 0).toNat < 128 →
          ((s.core u).descs.get (Fin.ofNat 64 ((r.getD 5 0).toNat % 64))).settled = false →
          s.runStep u hd j r = s.raiseAt ⟨u, .st⟩ h.pc h.node { code := .timing }))) ∧
    (∀ (rx : Idx64) (k : Nat),
      let d := (s.core u).descs.get rx
      (d.serial = k → d.state = .open_ → d.ex = false → ∃ t, exec (.descriptorClose u rx k) s = .next t ∧ (∀ v, t.core v = s.core v) ∧
        (∃ f ∈ t.effs, f.op = .closed rx k ∧ (f.at_ = s.cyc + 25 ∨ f.at_ = s.cyc + 53)) ∧
        (∀ b, b < d.e → lookup d.got b = none → ∃ f ∈ t.effs, ∃ rk w,
          f.op = .store rk (cellsAt (d.base.toNat % 2 ^ 56 + 256 * b) (List.replicate 256 0)) w)) ∧
      ((d.serial ≠ k ∨ d.state ≠ .open_ ∨ d.ex = true) → exec (.descriptorClose u rx k) s = .next s)) ∧
    (∀ (p : PortId) (beats : Nat) (al : Bool) (pc : Dword),
      let q := s.port p
      let busy := q.chan.toList.any (fun l => l.any (fun r => decide (r.1 ≤ s.cyc) && decide (s.cyc ≤ r.2)))
      (q.up = false → exec (.guardIntervalStart u p beats al pc) s = .next s) ∧
      (q.up = true → busy = false → ∃ t, exec (.guardIntervalStart u p beats al pc) s = .next t ∧
        (s.cyc, s.cyc + 2 * beats - 1) ∈ (t.port p).guards ∧ t.cores = s.cores) ∧
      (q.up = true → busy = true → al = true →
        (∀ n, (s.core u).node.bind s.node? = some n → n.t0 ≤ s.evIss →
          exec (.guardIntervalStart u p beats al pc) s = .next (s.raiseAt ⟨u, .st⟩ pc n.nd { code := .timing })) ∧
        ((∀ n, (s.core u).node.bind s.node? = some n → s.evIss < n.t0) → exec (.guardIntervalStart u p beats al pc) s = .next s)) ∧
      (q.up = true → busy = true → al = false → ∃ t e, exec (.guardIntervalStart u p beats al pc) s = .next t ∧
        t = { s with agenda := s.agenda ++ [e] } ∧ e.due = .cyc (s.cyc + 1) ∧ e.ev = .guardIntervalStart u p beats al pc))

/-- Eight failed replays, a fill of at most 16 or at least 240, raise LINK in the nodes of the fabric partition; training
to a reach of 1 to 255 brings a port up with fill 128 at bring-up, with the same reach after going down or within a
guard interval, and with another reach within a guard interval while no node of the fabric partition runs; else a
change of reach is deferred; a port that goes down is down and not trained; a host port that goes down is recorded; a
retraining keeps to the same rule. An exchange of a member sets slew and offset, beyond 32 ns an emergency throttle
follows. A droop advances drone time and N by its cycles; it ends with catch-up until every cycle lost is made up for.
A throttle is a group of one at the admissible code of the limit and of the forecasts sooner than the lead, or at 250,
slip cleared. After a failed power-on step none of this happens. Of the model (logs 3, 24, 29, 39): who takes LINK;
slew 0 and the epoch one higher on entry to a throttle; the deferred reach kept in its port. (R239; R252; R255; R268;
R269; R272; R273; R275; R277; R283; 17 R359, R367; logs 3, 24, 29, 39) -/
def Obligations.LinkAndClockEvents : Prop :=
  ∀ (s : State),
    (s.errV = true → (∀ (p : PortId) (ok : Bool) (n : Nat), ∀ i ∈ [Instr.linkReplay p ok, .elasticBufferLimit p n, .linkTraining p n, .linkRetrain p n, .linkDown n,
      .supplyDroop n, .catchUp, .catchUpEnd, .emergencyThrottle], exec i s = .next s) ∧
      ∀ (a b c d : Nat) (e : Int), exec (.droneExchange a b c d e) s = .next s) ∧
    (∀ (p : PortId) (ok : Bool) (fill reach : Nat), s.errV = false →
      let n := (s.port p).replays + 1
      (ok = true → exec (.linkReplay p ok) s = .next (s.modPort p (fun q => { q with replay := false, replays := 0 }))) ∧
      (ok = false → n < 8 → exec (.linkReplay p ok) s = .next (s.modPort p (fun q => { q with replay := true, replays := n }))) ∧
      (ok = false → 8 ≤ n → exec (.linkReplay p ok) s =
        .next ((s.modPort p (fun q => { q with replay := false, replays := 0 })).raiseLink (s.portShep p).val)) ∧
      (16 < fill → fill < 240 → exec (.elasticBufferLimit p fill) s = .next (s.modPort p (fun q => { q with fill := fill }))) ∧
      (fill ≤ 16 ∨ 240 ≤ fill → exec (.elasticBufferLimit p fill) s =
        .next ((s.modPort p (fun q => { q with fill := fill })).raiseLink (s.portShep p).val)) ∧
      (let inGuard := ∃ r ∈ (s.port p).guards, r.1 ≤ s.cyc ∧ s.cyc ≤ r.2
       let idle := ∀ n ∈ s.nodes, some n.part = s.fabric → n.live = false
       let may := (s.port p).reach = 0 ∨ ((s.port p).reach = reach ∧ ((s.port p).trained = false ∨ inGuard)) ∨
         ((s.port p).reach ≠ reach ∧ inGuard ∧ idle)
       (1 ≤ reach → reach ≤ 255 → may → exec (.linkTraining p reach) s = .next (s.modPort p (fun q =>
        { q with reach := reach, trained := true, up := true, fill := 128, replays := 0, replay := false, quietFrom := s.cyc }))) ∧
       (1 ≤ reach → reach ≤ 255 → ¬ may → inGuard → exec (.linkTraining p reach) s =
        .next (s.modPort p (fun q => { q with deferred := some reach }))) ∧
       ((reach = 0 ∨ 255 < reach ∨ (¬ may ∧ ¬ inGuard)) → exec (.linkTraining p reach) s = .next s)) ∧
      exec (.linkDown p.val) s = .next (s.modPort p (fun q => { q with up := false, trained := false })) ∧
      (1 ≤ reach → reach ≤ 255 →
        let inGuard := ∃ r ∈ (s.port p).guards, r.1 ≤ s.cyc ∧ s.cyc ≤ r.2
        let idle := ∀ n ∈ s.nodes, some n.part = s.fabric → n.live = false
        (inGuard → (reach ≠ (s.port p).reach → idle) → exec (.linkRetrain p reach) s =
          .next (s.modPort p (fun q => { q with reach := reach, fill := 128, trained := true, up := true, deferred := none }))) ∧
        (reach ≠ (s.port p).reach → ¬ (inGuard ∧ idle) →
          exec (.linkRetrain p reach) s = .next (s.modPort p (fun q => { q with deferred := some reach }))))) ∧
    (∀ k, k < 2 → s.errV = false → s.hostDown.contains k = false → exec (.linkDown (12 + k)) s = .next { s with hostDown := s.hostDown ++ [k] }) ∧
    (∀ (t1 t2 t3 t4 : Nat) (asym : Int),
      let off := (((t2 : Int) - t1) - ((t4 : Int) - t3)) / 2 - asym
      s.errV = false → s.group.member = true → s.group.bell = false →
      ∃ t, exec (.droneExchange t1 t2 t3 t4 asym) s = .next t ∧ t.group.lastOffset = some off ∧
        t.group.sync = decide (-4 ≤ off ∧ off ≤ 4) ∧ t.slew.natAbs ≤ 858993 ∧ t.drone = s.drone ∧ t.pitch = s.pitch ∧
        (32 < off.natAbs → ∃ e ∈ t.agenda, e.ev = .emergencyThrottle ∧
          ((∀ x ∈ s.agenda, x.ev ≠ .emergencyThrottle) → e.due = .cyc (s.cyc + 1))) ∧
        (off.natAbs ≤ 32 → t.agenda = s.agenda)) ∧
    (∀ lost : Nat, s.errV = false → ∃ t, exec (.supplyDroop lost) s = .next t ∧ t.n65 = s.n65 + 65 * lost ∧ t.droop = true ∧ t.catchUp = false ∧
      t.cyc = s.cyc ∧ t.pitch = s.pitch ∧ s.drone ≤ t.drone ∧
      (0 < s.pitch → t.drone * (s.pitch * 65) + t.droneRem = s.drone * (s.pitch * 65) + s.droneRem + lost * (250 * 65))) ∧
    (s.errV = false → exec .catchUp s = .next { s with droop := false, catchUp := decide (65 * s.cyc < s.n65) }) ∧
    (s.errV = false → s.n65 ≤ 65 * s.cyc → exec .catchUpEnd s = .next { s with catchUp := false }) ∧
    (65 * s.cyc < s.n65 → exec .catchUpEnd s = .next s) ∧
    (let soon := s.forecasts.filter (fun f => decide (f.1 < s.drone + 1000 * s.group.leadUs))
     let a := soon.foldl (fun m f => min m (min 1000 (64 * f.2 / 65))) (min 1000 (64 * s.limit / 65))
     s.errV = false → ∃ t, exec .emergencyThrottle s = .next t ∧ t.pitch = max 250 (min s.pitch a) ∧ t.n65 = 65 * s.cyc ∧
      t.catchUp = false ∧ t.emerg = true ∧ (s.epoch + 1 = t.epoch) ∧ t.group.member = false ∧ t.group.rank = 0 ∧ t.group.members = [0] ∧
      t.group.bell = true ∧ (s.forecasts = [] → t.group.notices = []) ∧ t.slew = 0 ∧ (∃ e ∈ t.agenda, e.ev = .raiseProposal))

/-- A member forwards the first copy of a notice on every port that is up and holds it for its instant; a late one
throttles; a second copy does nothing; a joiner listens, another package ignores it, and after a failed power-on step
nothing happens. At its instant the pitch takes the code of the notices of that instant and the epoch rises by one. A
forecast gives the highest code within power, tray cap and temperature, and is kept; where the notices then let the
pitch pass an admissible code, the package throttles if that comes sooner than the lead, and else issues a LOWER, with
exactly the lead, or for a code below 250 waits until it falls (log 29). A bellwether whose group's lowest limit code
admits more than the pitch issues a RAISE. The beacon of a member, and the silences of members that it names, are
noted, its silence looked for 200 µs later; a silent member is named in a fault notice; at its instant the named ranks
leave and the epoch rises. (R271; R275; R276; R277; R278; R279; R280; R281; 17 R357; 17 R368; log 29) -/
def Obligations.NoticeEvents : Prop :=
  ∀ (s : State),
    (∀ n : NoticeWord, (n.origin, n.num) ∈ s.group.seen → exec (.notice n) s = .next s) ∧
    (∀ n : NoticeWord, s.group.member = false → s.group.joining = none → exec (.notice n) s = .next s) ∧
    (∀ n : NoticeWord, s.errV = false → (n.origin, n.num) ∉ s.group.seen → s.group.member = true → ∃ t, exec (.notice n) s = .next t ∧
      .notice s.upPorts n ∈ t.outbox ∧ (n.origin, n.num) ∈ t.group.seen ∧ t.cores = s.cores ∧ t.pitch = s.pitch ∧
      ((∀ j, n.kind ≠ .ask j) →
        (s.drone < n.x → n ∈ t.group.notices ∧ (∃ e ∈ t.agenda, e.ev = .noticeApply n.x) ∧
          ((∀ e ∈ s.agenda, e.ev ≠ .noticeApply n.x) → ∃ e ∈ t.agenda, e.due = .ns n.x ∧ e.ev = .noticeApply n.x)) ∧
        (n.x ≤ s.drone → t.group.notices = s.group.notices ∧ ∃ e ∈ t.agenda, e.ev = .emergencyThrottle ∧
          ((∀ y ∈ s.agenda, y.ev ≠ .emergencyThrottle) → e.due = .cyc (s.cyc + 1))))) ∧
    (∀ n : NoticeWord, s.errV = false → (n.origin, n.num) ∉ s.group.seen → s.group.member = false → s.group.joining ≠ none →
      ∃ t, exec (.notice n) s = .next t ∧ t.group.notices = s.group.notices ∧ t.outbox = s.outbox ∧
        ((∀ j, n.kind ≠ .ask j) → n ∈ t.group.listen ∧ ∃ e ∈ t.agenda, e.ev = .noticeApply n.x)) ∧
    (∀ x : Nat, (s.drone < x ∨ s.ready = false → exec (.noticeApply x) s = .next s) ∧
      (x ≤ s.drone → s.ready = true → s.group.joining = none →
        ((∀ n ∈ s.group.notices, n.x ≠ x) → exec (.noticeApply x) s = .next s) ∧
        ((∃ n ∈ s.group.notices, n.x = x) → (∀ n ∈ s.group.notices, n.x = x → n.kind = .raise ∨ n.kind = .lower) →
          ∃ t, exec (.noticeApply x) s = .next t ∧ t.epoch = s.epoch + 1 ∧ t.pitch = max 250 (min 1000 (codeAt s.group.notices s.pitch x)) ∧ t.drone = s.drone ∧
            t.cores = s.cores ∧ t.group = s.group))) ∧
    (∀ (f : Forecast) (y : Nat),
      let code := s.limitFor f
      let s1 : State := { s with forecasts := s.forecasts ++ [(y, code)] }
      let x := s.drone + 1000 * s.group.leadUs
      (∀ p ∈ f.points, p.1 ≤ 1023 → p.2.1 ≤ min 2800 (s.trayCap.getD 2800) → p.2.2 ≤ 105 → p.1 ≤ code) ∧
      (code = 0 ∨ ∃ p ∈ f.points, p.1 = code ∧ p.1 ≤ 1023 ∧ p.2.1 ≤ min 2800 (s.trayCap.getD 2800) ∧ p.2.2 ≤ 105) ∧
      (s.errV = true → exec (.lowerNotice f y) s = .next s) ∧
      (s.errV = false → (s1.breach = none → exec (.lowerNotice f y) s = .next s1) ∧
        (∀ i a, s1.breach = some (i, a) →
          (i < x → (∃ e ∈ s.agenda, e.ev = .emergencyThrottle) → exec (.lowerNotice f y) s = .next s1) ∧
          (i < x → (∀ e ∈ s.agenda, e.ev ≠ .emergencyThrottle) → ∃ t e, exec (.lowerNotice f y) s = .next t ∧
            t = { s1 with agenda := s1.agenda ++ [e] } ∧ e.due = .cyc (s.cyc + 1) ∧ e.ev = .emergencyThrottle) ∧
          (x ≤ i → a < 250 → exec (.lowerNotice f y) s = .next s1) ∧
          (x ≤ i → 250 ≤ a → ∃ t, exec (.lowerNotice f y) s = .next t ∧ t.forecasts = s1.forecasts ∧ t.limit = s.limit ∧
            ∃ n ∈ t.group.notices, n.kind = .lower ∧ n.code = a ∧ n.x = x ∧ n.issue = s.drone)))) ∧
    (∀ i a, s.breach = some (i, a) → s.drone ≤ i ∧ a = min 1000 (64 * s.limitAt i / 65) ∧
      a < codeThrough s.group.notices s.pitch s.drone i) ∧
    (s.breach = none → s.emerg = false → codeThrough s.group.notices s.pitch s.drone s.drone ≤ min 1000 (64 * s.limitAt s.drone / 65) ∧
      (∀ i, (∃ f ∈ s.forecasts, f.1 = i) ∨ (∃ n ∈ s.group.notices, n.x = i) → s.drone < i →
        codeThrough s.group.notices s.pitch s.drone i ≤ min 1000 (64 * s.limitAt i / 65))) ∧
    ((s.group.bell = false → exec .raiseProposal s = .next s) ∧
      (s.errV = false → s.group.bell = true → s.ready = true → ∀ l, s.lowestLimit = some l → s.pitch < min 1000 (64 * l / 65) →
        ∃ t, exec .raiseProposal s = .next t ∧ (∃ n ∈ t.group.notices, n.kind = .raise ∧ n.code = min 1000 (64 * l / 65) ∧
          n.x = s.drone + 1000 * s.group.leadUs) ∧ ∃ e ∈ t.agenda, e.ev = .raiseProposal)) ∧
    (∀ (b : Neighbour) (lim sl low : Nat) (si : List Nat), (s.group.knows b.rank = false → exec (.beacon b lim sl low si) s = .next s) ∧
      (s.errV = false → s.group.knows b.rank = true → ∃ t, exec (.beacon b lim sl low si) s = .next t ∧
      lookup t.group.heard b.rank = some s.drone ∧ lookup t.group.limits b.rank = some (min lim low) ∧
      lookup t.group.tree b.rank = some b.port.val ∧ (∀ x, x ∈ t.group.silent ↔ x ∈ s.group.silent ∨ (x ∈ si ∧ s.group.knows x = true)) ∧
      (∃ e ∈ t.agenda, e.due = .ns (s.drone + 200000) ∧ e.ev = .silence b.rank) ∧ t.cores = s.cores)) ∧
    (∀ r : Nat, s.group.knows r = true ↔ (s.group.member = true ∧ r ∈ s.group.members) ∨ (s.group.member = false ∧ s.group.joining ≠ none)) ∧
    (∀ r h : Nat, lookup s.group.heard r = some h →
      (s.drone < h + 200000 → exec (.silence r) s = .next s) ∧
      (h + 200000 ≤ s.drone → s.group.member = true → r ∈ s.group.members → r ∉ s.group.silent →
        ∃ t, exec (.silence r) s = .next t ∧ r ∈ t.group.silent ∧
          (∃ f ∈ t.group.faults, f.ranks = [r] ∧ f.g = s.drone + 100000 ∧ .faultWord s.upPorts f ∈ t.outbox) ∧
          ∃ e ∈ t.agenda, e.due = .ns (s.drone + 100000) ∧ e.ev = .groupFault)) ∧
    (∀ f : FaultWord, ((f.origin, f.num) ∈ s.group.seen → exec (.faultNotice f) s = .next s) ∧
      (s.group.member = false → s.group.joining = none → exec (.faultNotice f) s = .next s) ∧
      (s.errV = false → (f.origin, f.num) ∉ s.group.seen → s.group.member = false → s.group.joining ≠ none → ∃ t, exec (.faultNotice f) s = .next t ∧
        t.outbox = s.outbox ∧ f ∈ t.group.faults ∧ ∃ e ∈ t.agenda, e.ev = .groupFault ∧ e.due = .ns f.g) ∧
      (s.errV = false → (f.origin, f.num) ∉ s.group.seen → s.group.member = true → ∃ t, exec (.faultNotice f) s = .next t ∧ .faultWord s.upPorts f ∈ t.outbox ∧
        f ∈ t.group.faults ∧ ∃ e ∈ t.agenda, e.ev = .groupFault ∧ (e.due = .ns f.g ∨ e.due = .cyc s.cyc))) ∧
    (((∀ f ∈ s.group.faults, s.drone < f.g) ∨ s.group.joining ≠ none) → exec .groupFault s = .next s) ∧
    (s.group.joining = none → (∃ f ∈ s.group.faults, f.g ≤ s.drone) → ∃ t, exec .groupFault s = .next t ∧ t.epoch = s.epoch + 1 ∧ t.pitch = s.pitch ∧
      ((∀ f ∈ s.group.faults, s.group.rank ∉ f.ranks) → t.group.faults = [] ∧
        ∀ r, r ∈ t.group.members ↔ r ∈ s.group.members ∧ ∀ f ∈ s.group.faults, r ∉ f.ranks))

/-- A TAIL write in range of a resident queue sets the tail; out of range it makes OVERRUN with cause 3 and a record;
switched out it is captured; before READY, or without a queue, it is dropped; a stopped or overrun queue takes or
ignores it (log 31). RESUME lets a stopped or overrun queue go on, RESET moves HEAD to the tail, or to a captured tail
in range, and drops a node that waits at the head to run again (log 31); QCTL with both bits does both. 8-byte writes
at 000, 018 and 028 act as TAIL, QCTL and CHEAD; nothing else acts. A due record with room goes to the ring place of
CTAIL, which rises by one, unless the ring waits for memory that re-trains (log 13) or a store of the stopped node
that the record names has still to act (R224). A queue is created where there is none, its context is in range and the
plug-in admits it (17 R360, log 39), or destroyed; the refusals are log 34 (PRESUMED). (R292; R294; R295; R296; R297;
R310; R315; R329; R356; 11 R224; 17 R360) -/
def Obligations.QueueRegisterEvents : Prop :=
  ∀ (q : QueueId) (s : State),
    let u := s.queue q
    (∀ v : Word,
      (s.ready = false ∨ u.cfg = none → exec (.tail q v) s = .next s) ∧
      (∀ c, u.cfg = some c → s.ready = true → (u.state = .idle ∨ u.state = .run ∨ u.state = .parked) →
        (u.out = true → exec (.tail q v) s = .next (s.setQueue q { u with captured := some v })) ∧
        (u.out = false → (v - u.head).toNat ≤ c.ringWords → (u.tail - u.head).toNat ≤ (v - u.head).toNat →
          exec (.tail q v) s = .next (s.setQueue q { u with tail := v })) ∧
        (u.out = false → (c.ringWords < (v - u.head).toNat ∨ (v - u.head).toNat < (u.tail - u.head).toNat) →
          ∃ t, exec (.tail q v) s = .next t ∧ (t.queue q).state = .overrun ∧ (t.queue q).cause = 3 ∧ (t.queue q).out = true ∧
            (t.queue q).tail = u.tail ∧ (t.queue q).head = u.head ∧ (t.queue q).due.length = u.due.length + 1)) ∧
      (∀ c, u.cfg = some c → s.ready = true → (u.state = .stopped ∨ u.state = .overrun) →
        ((c.ringWords < (v - u.head).toNat ∨ (v - u.head).toNat < (u.tail - u.head).toNat) → exec (.tail q v) s = .next s) ∧
        ((v - u.head).toNat ≤ c.ringWords → (u.tail - u.head).toNat ≤ (v - u.head).toNat →
          exec (.tail q v) s = .next (s.setQueue q (if u.captured.isSome then { u with captured := some v } else { u with tail := v }))))) ∧
    (s.ready = true → (u.state = .stopped ∨ u.state = .overrun) →
      exec (.resume q) s = .next (s.setQueue q { u with state := .idle, cause := 0 }) ∧
      ∃ t, exec (.reset q) s = .next t ∧
        t.queue q = { u with state := .idle, cause := 0, head := u.fullTail, tail := u.fullTail, captured := none, heldBack := false } ∧
        t.cores = s.cores ∧ ∀ n, n ∈ t.nodes ↔ (n ∈ s.nodes ∧ ¬ (n.queue = q ∧ ∃ h, n.state = .waiting h))) ∧
    (u.captured = none → u.fullTail = u.tail) ∧
    (∀ c v, u.cfg = some c → u.captured = some v → u.fullTail =
      if c.ringWords < (v - u.head).toNat ∨ (v - u.head).toNat < (u.tail - u.head).toNat then u.tail else v) ∧
    (u.state ≠ .stopped → u.state ≠ .overrun → exec (.resume q) s = .next s ∧ exec (.reset q) s = .next s) ∧
    (∀ (off size : Nat) (v : Dword),
      (size ≠ 8 ∨ s.ready = false ∨ u.cfg = none → exec (.registerWrite q off size v) s = .next s) ∧
      (s.ready = true → u.cfg ≠ none →
        exec (.registerWrite q 0x000 8 v) s = exec (.tail q (v.setWidth 32)) s ∧
        (∃ t, exec (.registerWrite q 0x028 8 v) s = .next t ∧ t.queue q = { u with chead := v.setWidth 32 } ∧
          (u.due ≠ [] → ∃ e ∈ t.agenda, e.due = .cyc (s.cyc + 1) ∧ e.ev = .completionRecordWrite q)) ∧
        (v.getLsbD 1 = false → v.getLsbD 0 = true → exec (.registerWrite q 0x018 8 v) s = exec (.resume q) s) ∧
        (v.getLsbD 1 = true → v.getLsbD 0 = false → exec (.registerWrite q 0x018 8 v) s = exec (.reset q) s) ∧
        (v.getLsbD 1 = true → v.getLsbD 0 = true → (u.state = .stopped ∨ u.state = .overrun) →
          ∃ t, exec (.registerWrite q 0x018 8 v) s = .next t ∧
            t.queue q = { u with state := .idle, cause := 0, head := u.fullTail, tail := u.fullTail, captured := none, heldBack := false }) ∧
        (off ≠ 0x000 → off ≠ 0x018 → off ≠ 0x028 → exec (.registerWrite q off 8 v) s = .next s))) ∧
    (∀ c r rest, u.cfg = some c → u.due = r :: rest →
      (s.awaits c.cring = false → s.writing r.after = false → c.cringRecs ≤ (u.ctail - u.chead).toNat →
        exec (.completionRecordWrite q) s = .next s) ∧
      (s.awaits c.cring = true ∨ s.writing r.after = true →
        exec (.completionRecordWrite q) s = .next (s.postIn 1 (.completionRecordWrite q))) ∧
      (s.awaits c.cring = false → s.writing r.after = false → (u.ctail - u.chead).toNat < c.cringRecs →
        let a := c.cring + BitVec.ofNat 64 (64 * (u.ctail.toNat % c.cringRecs))
        ∃ t, exec (.completionRecordWrite q) s = .next t ∧ t.queue q = { u with ctail := u.ctail + 1, due := rest } ∧
          (rest ≠ [] → ∃ e ∈ t.agenda, e.due = .cyc (s.cyc + 1) ∧ e.ev = .completionRecordWrite q) ∧
          t.dev = (s.writeFor c.part c.pasid a (r.bytes s.drone)).dev ∧ t.host = (s.writeFor c.part c.pasid a (r.bytes s.drone)).host)) ∧
    (s.ready = true → u.cfg ≠ none → exec (.queueCreate q none) s = .next (s.setQueue q {})) ∧
    (∀ c, s.ready = true → u.cfg = none → QueueCfgOk c = true → s.admitted c.part q = true → ∃ t, exec (.queueCreate q (some c)) s = .next t ∧
      t.queue q = { cfg := some c } ∧ (∀ k, k ≠ q → t.queue k = s.queue k) ∧ (lookup t.bound c.pasid).isSome = true) ∧
    (∀ c, (QueueCfgOk c = false ∨ u.cfg ≠ none ∨ s.admitted c.part q = false) → exec (.queueCreate q (some c)) s = .next (s.emit (.refusedCall 292))) ∧
    (∀ on, s.errV = false → exec (.debuggable q on) s = .next (s.modQueue q (fun v => { v with debuggable := on }))) ∧
    (∀ r, u.faultRec = some r → exec (.faultRecordRead q) s = .next (s.emit (.faultRead q r))) ∧
    (u.faultRec = none → exec (.faultRecordRead q) s = .next (s.emit (.refusedCall 315)))

/-- A packet of its type at HEAD of a resident queue that runs, is not held back, has no launched or re-queued node at its
head and has eight places left in its completion ring, which its ring does not keep waiting (17 R367), starts: once
its header is legal, all its words are there, its body is legal and, with its order bit, no earlier launch is open. A
reserved header or an illegal body is a bad packet: a BADPKT record, the queue stopped with cause 2 and HEAD at the
packet. A packet that starts keeps the partition's key set of that cycle (17 R363). Started or not, nothing else
changes. (R293; R298; R300; R301; R310; 17 R363) -/
def Obligations.PacketStart : Prop :=
  ∀ (q : QueueId) (typ : Nat) (s : State) (c : QueueCfg),
    let u := s.queue q
    let w0 := s.ringWord c u.head
    let may := u.started = none ∧ u.out = false ∧ u.state = .run ∧ u.heldBack = false ∧ u.tail ≠ u.head ∧ s.headNode q = none ∧
      (u.ctail - u.chead).toNat + 8 ≤ c.cringRecs ∧ s.awaits c.ring = false
    u.cfg = some c →
    (∀ p, u.started = some p → s.startPacket q typ = s) ∧
    (may → w0.toNat / 2 ^ 24 = typ →
      let len := w0.toNat / 2 ^ 16 % 2 ^ 8
      let ws := (List.range len).map (fun i => s.ringWord c (u.head + BitVec.ofNat 32 i))
      (headerOk w0 = false → ∃ t, s.startPacket q typ = t ∧ (t.queue q).state = .stopped ∧ (t.queue q).cause = 2 ∧
        (t.queue q).head = u.head ∧ (t.queue q).started = none ∧ t.nodes = s.nodes ∧
        ∃ r, (t.queue q).due = u.due ++ [r] ∧ r.status = 0x12 ∧ r.seq = u.head.toNat) ∧
      (headerOk w0 = true → (u.tail - u.head).toNat < len → s.startPacket q typ = s) ∧
      (headerOk w0 = true → len ≤ (u.tail - u.head).toNat → bodyOk ws = false →
        ∃ t, s.startPacket q typ = t ∧ (t.queue q).state = .stopped ∧ (t.queue q).cause = 2 ∧
          (t.queue q).head = u.head ∧ (t.queue q).started = none ∧ t.nodes = s.nodes ∧ t.cores = s.cores ∧ t.dev = s.dev ∧
          ∃ r, (t.queue q).due = u.due ++ [r] ∧ r.status = 0x12 ∧ r.seq = u.head.toNat ∧ r.typ = typ) ∧
      (headerOk w0 = true → len ≤ (u.tail - u.head).toNat → bodyOk ws = true →
        ((w0.getLsbD 14 = true ∧ s.launchesOpen q = true) → s.startPacket q typ = s) ∧
        (¬ (w0.getLsbD 14 = true ∧ s.launchesOpen q = true) →
          s.startPacket q typ = { s.setQueue q { u with started := some ⟨s.serial, u.head.toNat, typ, ws, s.drone⟩, keys := (s.part c.part).keys, reqSig := (s.part c.part).reqSig } with serial := s.serial + 1 }))) ∧
    (may → headerOk w0 = false → exec (.reservedTypePacket q) s = .next (s.badPacket q)) ∧
    (¬ (may ∧ headerOk w0 = false) → exec (.reservedTypePacket q) s = .next s)

/-- NOP and MARK complete at once, FENCE once its launches, or nodes, have, SEMSIG once its write is made, SEMWAIT when
the semaphore holds its value: it polls every 2 µs, parks after 1 ms and fails at its timeout. LAUNCH with a legal
family makes a node that waits for placement; else the record carries the first check that fails. SNAP records its
leaves, ROLL puts each entry back with its S bit, COMMIT settles a node in doubt, GJOIN listens, GLEAVE of a group of
one completes, PIN completes with its status, UNPIN retires its image. The interval of 2 µs, HEAD past a failed LAUNCH
or SEMWAIT and GJOIN blocks with reserved bytes are log 31, the handle of an image log 30 (DESIGN CHOICE), the
statuses of PIN log 23, corners of ROLL log 35; what re-training memory holds back is log 13. (03 R56; 03 R58; R278;
R299; R301; R302; R303; R322; 16 R347; 16 R348) -/
def Obligations.PacketForms : Prop :=
  ∀ (q : QueueId) (s : State),
    (∀ typ s1 c p, s.startPacket q typ = s1 → (s1.queue q).inHand typ = some (c, p) →
      let rec_ : Option Record := if (p.words.getD 0 0).getLsbD 15 then some (plainRecord 0 p.seq typ 0) else none
      (typ = 0 → exec (.nopPacket q) s = .next (s1.completePacket q rec_ false p.words.length)) ∧
      (typ = 4 → exec (.mark q) s = .next ((s1.completePacket q (some (plainRecord (pkt64 p.words 1) p.seq 4 0)) false 3).writeRecords q)) ∧
      (typ = 5 → (s1.launchesOpen q = true ∨ (pkt32 p.words 1 = 1 ∧ s1.nodesOpen q = true) → exec (.fencePacket q) s = .next s1) ∧
        (¬ (s1.launchesOpen q = true ∨ (pkt32 p.words 1 = 1 ∧ s1.nodesOpen q = true)) →
          exec (.fencePacket q) s = .next (s1.completePacket q rec_ false 2))) ∧
      (typ = 3 → ((s1.launchesOpen q = true ∨ s1.committingIn c.part = true ∨ s1.awaits (pkt64 p.words 1) = true) → exec (.semsig q) s = .next s1) ∧
        (s1.launchesOpen q = false → s1.committingIn c.part = false → s1.awaits (pkt64 p.words 1) = false →
          s1.semFault c (pkt64 p.words 1) true = none →
          let own := (s1.nextFree.ownAt c.part c.pasid (offOf (pkt64 p.words 1))).bind (fun x => x.ownAt c.part c.pasid (offOf (pkt64 p.words 1) + 7))
          (winOf (pkt64 p.words 1) = 0x20 → exec (.semsig q) s = .next ((s1.nextFree.semWrite c p).completePacket q rec_ false 6)) ∧
          (winOf (pkt64 p.words 1) = 0x10 → (∀ x, own = some x → exec (.semsig q) s = .next ((x.semWrite c p).completePacket q rec_ false 6)) ∧
            (own = none → exec (.semsig q) s = .next (s1.nextFree.packetFault q c p 0x07))))) ∧
      (typ = 2 → (s.queue q).started = none → s1.awaits (pkt64 p.words 1) = false → s1.semFault c (pkt64 p.words 1) false = none →
        (s1.nextFree.semHolds c p = true → exec (.semwait q) s = .next (s1.nextFree.completePacket q rec_ false 6)) ∧
        (s1.nextFree.semHolds c p = false → ∃ t, exec (.semwait q) s = .next t ∧ t.queue q = s1.queue q ∧
          (∃ e ∈ t.agenda, e.due = .ns (s1.drone + 2000) ∧ e.ev = .semaphorePoll q p.id) ∧
          (∃ e ∈ t.agenda, e.due = .ns (s1.drone + 1000000) ∧ e.ev = .park q p.id) ∧
          (∃ e ∈ t.agenda, e.due = .ns (p.at_ + 1000 * pkt32 p.words 5) ∧ e.ev = .semwaitTimeout q p.id))) ∧
      (typ = 1 → s1.headNode q = none → (s1.queue q).halted = false →
        (∀ f, (s1.launchCheck c.part p.words).2 = some f → ∃ t, exec (.launch q) s = .next t ∧
          t.nodes = s1.nodes ++ [{ newNode s1.serial q c p f s1.drone with announced := if f.group then s1.group.early else [] }] ∧ t.cores = s1.cores ∧
          ∃ e ∈ t.agenda, e.due = .cyc (s1.cyc + 1) ∧ e.ev = .variantPlacement s1.serial) ∧
        ((s1.launchCheck c.part p.words).2 = none → ∃ t, exec (.launch q) s = .next t ∧ t.nodes = s1.nodes ∧
          (t.queue q).state = .stopped ∧ (t.queue q).head = (s1.queue q).head + 9 ∧
          ∃ r ∈ (t.queue q).due, r.status = (s1.launchCheck c.part p.words).1 ∧ r.seq = p.seq)) ∧
      (typ = 6 → s1.launchesOpen q = false → s1.committingIn c.part = false → s1.retraining = false → offOf (pkt64 p.words 1) % 2 ^ 16 = 0 → (pkt64 p.words 3).toNat % 2 ^ 16 = 0 →
        (∀ k ∈ (s1.part c.part).snapshots, k.id ≠ pkt32 p.words 5) → (s1.part c.part).snapshots.length < 256 →
        ∃ t, exec (.snap q) s = .next t ∧ (t.queue q).head = (s1.queue q).head + 6 ∧
          ∃ k ∈ (t.part c.part).snapshots, k.id = pkt32 p.words 5 ∧ k.pasid = c.pasid ∧ k.base = offOf (pkt64 p.words 1) ∧ k.len = (pkt64 p.words 3).toNat) ∧
      (typ = 7 → s1.launchesOpen q = false → s1.committingIn c.part = false → s1.retraining = false → ∀ k, (s1.part c.part).snapshots.find? (fun k => k.id == pkt32 p.words 1) = some k →
        (∀ x, k.leaves.foldl (fun o l => o.bind (fun y => y.rollPage c.part k l)) (some s1) = some x →
          exec (.roll q) s = .next (x.completePacket q (some (plainRecord 0 p.seq 7 0)) false 2)) ∧
        (k.leaves.foldl (fun o l => o.bind (fun y => y.rollPage c.part k l)) (some s1) = none → exec (.roll q) s = .next s1)) ∧
      (typ = 8 → some c.part = s1.fabric → (∀ n ∈ s1.nodes, n.voteOf ≠ some (q, p.seq)) →
        ∀ n, s1.nodes.find? (fun n => n.state == .inDoubt && n.id == pkt64 p.words 1) = some n →
        (pkt32 p.words 3 ≠ 1 → exec (.commitVote q) s =
          .next ((s1.abortDoubt n).completePacket q (some (plainRecord 0 p.seq 8 0)) false 4)) ∧
        (pkt32 p.words 3 = 1 → exec (.commitVote q) s =
          .next ((s1.modNode n.nd (fun n => { n with voteOf := some (q, p.seq) })).beginCommit n))) ∧
      (typ = 9 → some c.part = s1.fabric → s1.group.joining = none → s1.group.member = false → s1.awaits (pkt64 p.words 1) = false →
        let b := s1.bytesFor c.pasid (pkt64 p.words 1) 32
        (byteAt b 2 < 12 ∨ byteAt b 2 = 255) → (byteAt b 3 < 12 ∨ byteAt b 3 = 255) → u16 b 6 = 0 → 64 ≤ u32 b 8 → u32 b 8 ≤ 10000 →
        (b.drop 12).all (fun x => x == 0) = true → ∃ t, exec (.gjoin q) s = .next t ∧ t.group.joining = some (q, p.seq) ∧
          t.group.tag = u16 b 0 ∧ t.group.parent = byteAt b 2 ∧ t.group.leadUs = u32 b 8 ∧ t.queues = s1.queues) ∧
      (typ = 10 → some c.part = s1.fabric → s1.group.leaving = none → s1.inGroup = false →
        exec (.gleave q) s = .next ((if s1.group.member then s1.groupOfOne.heed else s1).completePacket q (some (plainRecord 0 p.seq 10 0)) false 1)) ∧
      (typ = 11 → s1.awaits (pkt64 p.words 1) = false → s1.awaits (pkt64 p.words 5) = false →
        let b := s1.bytesFor c.pasid (pkt64 p.words 1) (pkt64 p.words 3).toNat
        let r := s1.pinCheck q c.pasid (pkt64 p.words 1) (pkt64 p.words 3).toNat b
        (r.1 ≠ 0 → exec (.pin q) s = .next (s1.nextFree.completePacket q (some (plainRecord 0 p.seq 11 r.1)) false 8)) ∧
        (r.1 = 0 → exec (.pin q) s =
          .next (((s1.nextFree.emit (.pinned s1.freeHandle ((b.drop 0x20).take 16))).pinImage c.part c.pasid (b.take (u64 b 0x18)) (pkt64 p.words 5) r.2).completePacket q
            (some (plainRecord (BitVec.ofNat 64 s1.freeHandle) p.seq 11 0)) false 8))) ∧
      (typ = 12 → (∀ i ∈ s1.images, (q, p.seq) ∉ i.unpins) →
        (∀ i ∈ s1.images, i.handle = pkt32 p.words 1 % 2 ^ 16 → i.part = c.part →
          ∃ t, exec (.unpin q) s = .next t ∧ ∃ k ∈ t.images, k.handle = i.handle ∧ k.retiring = true ∧ (q, p.seq) ∈ k.unpins) ∧
        ((∀ i ∈ s1.images, i.handle = pkt32 p.words 1 % 2 ^ 16 → i.part ≠ c.part) →
          exec (.unpin q) s = .next (s1.completePacket q (some (plainRecord 0 p.seq 12 0x15)) true 2)))) ∧
    (∀ c p, (s.queue q).inHand 2 = some (c, p) →
      ((s.queue q).state ≠ .parked → s.awaits (pkt64 p.words 1) = false → s.semFault c (pkt64 p.words 1) false = none → s.nextFree.semHolds c p = false →
        exec (.semaphorePoll q p.id) s = .next (s.nextFree.postAt (.ns (s.drone + 2000)) (.semaphorePoll q p.id))) ∧
      exec (.park q p.id) s =
        .next ((s.modQueue q (fun u => { u with state := .parked, out := true })).postAt (.ns (s.drone + 100000)) (.parkedPoll q p.id)) ∧
      ((s.queue q).state = .parked → s.awaits (pkt64 p.words 1) = false → s.semFault c (pkt64 p.words 1) false = none → s.nextFree.semHolds c p = false →
        exec (.parkedPoll q p.id) s = .next (s.nextFree.postAt (.ns (s.drone + 100000)) (.parkedPoll q p.id))) ∧
      exec (.semwaitTimeout q p.id) s = .next (s.completePacket q (some (plainRecord 0 p.seq 2 0x14)) true 6)) ∧
    (∀ (part : PartId) (pasid off : Nat) (l : Leaf), s.walk pasid off = some l →
      (s.frameHeld (pteAddr l.e) l.size = false → s.isPreImage (pteAddr l.e) l.size = false → s.ownAt part pasid off = some s) ∧
      (s.frameHeld (pteAddr l.e) l.size = true ∨ s.isPreImage (pteAddr l.e) l.size = true → ∀ f rest,
        takeFrame (l.size == 2 ^ 25) (s.part part).pool = some (f, rest) → ∃ t, s.ownAt part pasid off = some t ∧ (t.part part).pool = rest)) ∧
    (∀ (part : PartId) (k : Snapshot) (va a : Nat) (e : Dword),
      let old := s.entryAt a
      (pteV e = true → pteG e = false → s.slot2 k.pasid va = some a → ptePointer old = true →
        s.rollPage part k (va, e) = some (s.rollEntry part (pteAddr old + 8 * (va / 2 ^ 16 % 2 ^ 9)) e)) ∧
      (s.rollEntry part a e).dev = (s.setEntry a (if pteV e then pteSet e 60 (pteS old) else pteSet old 63 false)).dev)

/-- A node at the head of a queue that runs, with no alarm, no kept request and no commit of its partition, is placed
where it can be, and waits else; so it does (of the model, log 23) while a context is lost with slot 0 or a leaf
stands under an erased slot: its cores and shepherds are its own, its arm cycle is 1,024 cycles away. On it, all of
them ready, the node runs, its later start cycles and its budget are due; a unit that is not ready on a start cycle is
a SLIP (that it may be a later start cycle: log 33). In which order and with which room it is placed is log 32, the
answers log 34. A legal grant gives a core at once, or begins a border move of 2^19 cycles, at whose end its
scratchpad and counters are zero. A budget that expires raises DEADLINE. A pre-emption request stops a node that may
be, and is kept. A retiring image no node uses is released. (R82; R304; R305; R306; R307; R308; R318; R353; R366; 03
R58; logs 23, 32, 33) -/
def Obligations.SchedulingEvents : Prop :=
  ∀ (s : State),
    (∀ nd n v cs sh, s.node? nd = some n → n.isWaiting = true → s.alarm = false → s.lost = [] → 0 ∉ s.erased →
      (∀ r, lookup s.roots n.pasid = some r → ∀ l ∈ s.leavesOf n.pasid r, pteKey l.e ∉ s.erased) → (s.queue n.queue).kept = none →
      (s.queue n.queue).halted = false → s.committingIn n.part = false → (s.headNode n.queue).map (·.nd) = some nd → s.choose n = some (v, cs, sh) →
      ∃ t, exec (.variantPlacement nd) s = .next t ∧
        (∃ m, t.node? nd = some m ∧ m.state = .armed ∧ m.variant = v ∧ m.cores = cs ∧ m.sheps = sh ∧ m.t0 = s.cyc + 1024) ∧
        (∀ u, u ∈ cs ∨ u ∈ sh.map (·.2) → (t.core u).node = some nd ∧ (t.core u).owner = some n.part) ∧
        (∀ u, u ∉ cs → u ∉ sh.map (·.2) → t.core u = s.core u) ∧
        (∃ e ∈ t.agenda, e.due = .cyc (s.cyc + 1024) ∧ e.ev = .nodeArm nd)) ∧
    (∀ nd n, s.node? nd = some n → n.isWaiting = true →
      (s.alarm = true ∨ s.lost ≠ [] ∨ 0 ∈ s.erased ∨ (s.queue n.queue).kept ≠ none ∨ (s.queue n.queue).halted = true ∨ s.committingIn n.part = true ∨
        (∃ r, lookup s.roots n.pasid = some r ∧ ∃ l ∈ s.leavesOf n.pasid r, pteKey l.e ∈ s.erased)) →
      exec (.variantPlacement nd) s = .next (s.postIn 1 (.variantPlacement nd))) ∧
    (∀ nd n, s.node? nd = some n → n.state = .armed →
      (s.notReady n = none → (n.cores ++ n.sheps.map (·.2)).Nodup → ∃ t, exec (.nodeArm nd) s = .next t ∧
        (∃ m, t.node? nd = some m ∧ m.state = .running) ∧
        (∀ u ∈ n.cores, (t.core u).nodeId = n.id ∧ (t.core u).scl.xr 1 = n.args ∧ (t.core u).tags = 0 ∧ (t.core u).flags = 0 ∧
          (t.core u).sq = [] ∧ (t.core u).tlc = (s.core u).tlc) ∧
        (∀ x ∈ n.variant.entries, x.offset ≠ 0 → ∃ e ∈ t.agenda, e.due = .cyc (s.cyc + x.offset) ∧ e.ev = .nodeArm nd) ∧
        (∃ e ∈ t.agenda, e.due = .cyc (s.cyc + n.family.budget) ∧ e.ev = .nodeBudgetExpiry nd n.attempt))) ∧
    (∀ nd n, s.node? nd = some n →
      (n.state = .running → s.notReady n = none → exec (.nodeArm nd) s = .next s) ∧
      (n.state = .armed ∨ n.state = .running → (s.queue n.queue).halted = false →
        ∀ u, s.notReady n = some u → ∃ t, exec (.nodeArm nd) s = .next t ∧ t.node? nd = none ∧ (t.queue n.queue).state = .stopped ∧
          ∃ r ∈ (t.queue n.queue).due, r.status = 0x10 ∧ r.fault = 0x10 ∧ r.unit = u.val)) ∧
    (∀ p u, s.errV = false → isShep u = false → (s.core u).owner = none → (s.core u).node = none → (s.core u).outOfService = false → s.room p ≠ 0 →
      ((s.core u).atOnce p = true →
        exec (.coreGrant p u) s = .next (s.modCore u (fun c => { c with owner := some p, lastOwner := some p }))) ∧
      ((s.core u).atOnce p = false → exec (.coreGrant p u) s =
        .next ((s.modCore u (fun c => { c with moving := true })).postIn (2 ^ 19) (.borderMove p u)))) ∧
    (∀ p u, (s.core u).moving = true → u.val < 32 → ∃ t, exec (.borderMove p u) s = .next t ∧
      (∀ a, a < 2 ^ 29 → t.spadByte (u.val * 2 ^ 29 + a) = 0) ∧ (∀ i, (t.core u).tlc.get i = 0 ∧ (t.core u).ticket.get i = 0) ∧
      (t.core u).owner = some p ∧ (t.core u).moving = false ∧ (∀ v, v ≠ u → t.core v = s.core v)) ∧
    (∀ nd n, s.node? nd = some n →
      (n.state = .running ∨ n.state = .ending → ∀ d c, (s.queue n.queue).cfg = some c → c.drover = d →
        exec (.nodeBudgetExpiry nd n.attempt) s = .next (s.raiseNode nd (0x28 + d) { code := .deadline })) ∧
      (∀ k, k ≠ n.attempt → exec (.nodeBudgetExpiry nd k) s = .next s)) ∧
    (∀ nd n p, s.node? nd = some n →
      (n.live = false → exec (.preemptionRequest nd p) s = .next s) ∧
      (n.state = .running → n.family.nonidem = false → n.family.group = false → ∃ t c, exec (.preemptionRequest nd p) s = .next t ∧
        t.causes = s.causes ++ [c] ∧ c.node = nd ∧ c.rank = 7 ∧ (t.queue n.queue).kept = some (p.part, p.node)) ∧
      (n.live = true → (n.state ≠ .running ∨ n.family.nonidem = true ∨ n.family.group = true) →
        exec (.preemptionRequest nd p) s = .next (s.modQueue n.queue (fun q => { q with kept := some (p.part, p.node) })))) ∧
    (∀ i ∈ s.images, (∀ k ∈ s.images, k.handle = i.handle → k = i) → i.retiring = true → (∀ n ∈ s.nodes, n.image ≠ i.handle) →
      ∃ t, exec (.imageRelease i.handle) s = .next t ∧ (∀ k ∈ t.images, k.handle ≠ i.handle) ∧ t.nodes = s.nodes)

/-- A node in its end waits until it is quiet; then a strict one with MXERR set fails, a group node votes, any other
begins its commit once no node of its partition is armed: its pages are swapped one by one, then it is committed, its
record due, its cores free. A coordinator decides abort at a no vote or its timeout, commit when all have voted. A
decision commits a voted part or aborts a part; without one it is held in doubt. The next core in turn begins a muster
run, or is wanted at its node's end; a passing run clears its nodes, a failing one quarantines the unit, which three
passing runs may reinstate. The muster interval counts from each run's start (log 32), a quarantined unit runs at the
scheduler's request (log 33), and the answer to a refused reinstatement is log 34 (PRESUMED). (R319; R320; R321; R322;
R323; R324; R325; R327; R367; 16 R344) -/
def Obligations.NodeEndEvents : Prop :=
  ∀ (s : State),
    (∀ nd n, s.node? nd = some n → n.state = .ending →
      (s.quiet n = false → exec (.nodeEnd nd) s = .next (s.postIn 1 (.nodeEnd nd))) ∧
      (s.quiet n = true →
        (n.strict = true → n.family.tolerant = false → (s.nodeFlags n).getLsbD 6 = true → ∃ t c, exec (.nodeEnd nd) s = .next t ∧
          t.causes = s.causes ++ [c] ∧ c.node = nd ∧ c.r.code = .uncorrectable) ∧
        (¬ (n.strict = true ∧ n.family.tolerant = false ∧ (s.nodeFlags n).getLsbD 6 = true) → n.family.group = false →
          ∃ t, exec (.nodeEnd nd) s = .next t ∧ t.cores = s.cores ∧
            (s.armedIn n.part = true → ∃ e ∈ t.agenda, e.ev = .nodeEnd nd ∧ e.due = .cyc (s.cyc + 1)) ∧
            (s.armedIn n.part = false → (∃ m, t.node? nd = some m ∧ m.state = .committing) ∧
              ∃ e ∈ t.agenda, e.ev = .commit nd ∧ ∃ k, e.due = .cyc k ∧ s.cyc < k)) ∧
        (¬ (n.strict = true ∧ n.family.tolerant = false ∧ (s.nodeFlags n).getLsbD 6 = true) → n.family.group = true → n.coord ≠ n.rank →
          ∃ t, exec (.nodeEnd nd) s = .next t ∧ (∃ m, t.node? nd = some m ∧ m.state = .voted) ∧ .vote nd true ∈ t.outbox ∧
            ∃ e ∈ t.agenda, e.due = .ns (s.drone + 2000000) ∧ e.ev = .inDoubt nd))) ∧
    (∀ nd n g gs, s.node? nd = some n → n.state = .committing → s.armedIn n.part = false → s.retraining = false → sortBy (fun g => g.va) n.staged = g :: gs →
      gs ≠ [] → exec (.commit nd) s = .next ((s.swapPage n g).postFree 1 (.commit nd))) ∧
    (∀ nd n, s.node? nd = some n → n.state = .committing → n.staged = [] → s.armedIn n.part = false → s.retraining = false → n.cores ≠ [] → n.voteOf = none →
      n.taint = none → (∀ u ∈ n.cores ++ n.sheps.map (·.2), (s.core u).quarantined = false ∧ (s.core u).node = some nd) →
      ∃ t, exec (.commit nd) s = .next t ∧ (∃ m, t.node? nd = some m ∧ m.state = .committed) ∧
        (∀ u ∈ n.cores ++ n.sheps.map (·.2), (t.core u).node = none ∧ (t.core u).owner = none) ∧
        (∃ r ∈ (t.queue n.queue).due, r.id = n.id ∧ r.kind = 1 ∧ r.status = 0 ∧ r.cycles = n.stopAt - n.t0) ∧
        t.dev = s.dev) ∧
    (∀ nd n, s.node? nd = some n →
      (∀ r, n.coord = n.rank → n.family.group = true →
        exec (.groupVote nd r false) s = .next ((s.emit (.decision nd false)).postIn 0 (.groupDecision nd false)) ∧
        ∃ t, exec (.groupVote nd r true) s = .next t ∧ ∃ m, t.node? nd = some m ∧ r ∈ m.votes) ∧
      (n.state = .voted →
        (∃ t, exec (.groupDecision nd true) s = .next t ∧ (∃ m, t.node? nd = some m ∧ m.state = .committing) ∧
          ∃ e ∈ t.agenda, e.ev = .commit nd) ∧
        (n.coord = n.rank →
          exec (.voteTimeout nd) s = .next ((s.emit (.decision nd false)).postIn 0 (.groupDecision nd false))) ∧
        ∃ t, exec (.inDoubt nd) s = .next t ∧ (∃ m, t.node? nd = some m ∧ m.state = .inDoubt ∧ m.staged = n.staged) ∧
          ∃ r ∈ (t.queue n.queue).due, r.status = 0x1B ∧ r.id = n.id) ∧
      (n.state = .voted ∨ n.state = .running ∨ n.state = .ending ∨ n.state = .armed ∨ n.isWaiting = true →
        ∃ t c, exec (.groupDecision nd false) s = .next t ∧ t.causes = s.causes ++ [c] ∧ c.node = nd ∧ c.rank = 8)) ∧
    (s.errV = false → ∀ u, s.nextMuster = some u → (s.core u).node ≠ none → exec .musterTake s = .next (s.modCore u (fun c => { c with wanted := true }))) ∧
    (s.errV = false → ∀ u, s.nextMuster = some u → (s.core u).node = none → (s.core u).moving = false → (s.core u).withdrawn = false →
      (∀ k, k < 32 → (s.core (unitOf k)).muster = false) → ∃ t, exec .musterTake s = .next t ∧ (t.core u).muster = true ∧
        (t.core u).owner = none ∧ (t.core u).runStart = s.cyc ∧ (∀ v, v ≠ u → t.core v = s.core v) ∧
        (∃ e ∈ t.agenda, e.due = .ns (s.drone + 180000) ∧ ∃ ok, e.ev = .musterResult u ok) ∧
        ∃ e ∈ t.agenda, e.due = .ns (s.drone + 1000 * s.musterUs) ∧ e.ev = .musterTake) ∧
    (s.errV = false → ∀ u, (∃ t, exec (.musterResult u false) s = .next t ∧ (t.core u).quarantined = true ∧ (t.core u).passes = 0) ∧
      ((∀ n ∈ s.nodes, n.state ≠ .committed) → ∃ t, exec (.musterResult u true) s = .next t ∧ (t.core u).muster = false ∧
        (t.core u).passes = (s.core u).passes + 1 ∧ (t.core u).quarantined = (s.core u).quarantined ∧
        ∀ n ∈ t.nodes, ∀ x ∈ n.uncleared, x.1 = u → (s.core u).runStart ≤ x.2)) ∧
    (s.errV = false → ∀ d : Fin 4,
      let site := fun (b : Bool) => unitOf (32 + 2 * d.val + (if b then 1 else 0))
      ((s.core (site (s.active.get d))).node ≠ none → exec (.shepherdExchange d) s =
        .next (s.modCore (site (s.active.get d)) (fun c => { c with wanted := true }))) ∧
      ((s.core (site (s.active.get d))).node = none → (s.core (site (!s.active.get d))).outOfService = false →
        ∃ t, exec (.shepherdExchange d) s = .next t ∧ t.active.get d = !s.active.get d ∧
          (t.core (site (s.active.get d))).muster = true ∧
          ∃ e ∈ t.agenda, e.due = .ns (s.drone + 2000000) ∧ e.ev = .shepherdExchange (d + 1))) ∧
    (∀ u, s.errV = false → ((s.core u).quarantined = true → 3 ≤ (s.core u).passes → exec (.unitReinstate u) s =
        .next (s.modCore u (fun c => { c with quarantined := false, fresh := true, passes := 0 }))) ∧
      ((s.core u).quarantined = false → exec (.unitReinstate u) s = .next (s.emit (.refusedCall 367))) ∧
      ((s.core u).quarantined = true → (s.core u).passes < 3 → exec (.unitReinstate u) s = .next ((s.tryUnit u).emit (.refusedCall 367)) ∧
        ((s.core u).node = none → (s.core u).moving = false → (s.core u).muster = false → (∀ k, k < 32 → (s.core (unitOf k)).muster = false) →
          ((s.tryUnit u).core u).muster = true ∧ ((s.tryUnit u).core u).runStart = s.cyc ∧ (∀ v, v ≠ u → (s.tryUnit u).core v = s.core v) ∧
          ∃ e ∈ (s.tryUnit u).agenda, e.due = .ns (s.drone + 180000) ∧ ∃ ok, e.ev = .musterResult u ok)))

/-- A halt request stops a running node that can halt, and is refused for any other. A halted node that has drained, for a
cycle (log 28), is saved, its cores free; until then it is looked at again. A resume runs a saved node on its cores,
with every time moved by the length of the halt and its registers as saved and edited; it waits until all its cores
can be had. A step of a sequencer in free mode that has something to issue restores the node and names it, or waits
for the cores; an aligned one is refused. A held node that is released waits for placement again. That edits act at
the call to resume or step, and where the cut points stand at the resume, is log 28; the answers to refused calls are
log 34 (PRESUMED). (R329; R330; R331; R332; R317; 16 R343) -/
def Obligations.DebugEvents : Prop :=
  ∀ (nd : Nat) (s : State) (n : Node), s.node? nd = some n →
    (n.state = .running → s.canHalt n = true → ∃ t c, exec (.debugHalt nd) s = .next t ∧ t.causes = s.causes ++ [c] ∧ c.node = nd ∧
      c.rank = 6) ∧
    (n.state = .running → s.canHalt n = false → exec (.debugHalt nd) s = .next (s.emit (.refusedCall 329))) ∧
    (n.state = .halted → n.stepping = none → n.pendingStep = none → n.saved = [] →
      (s.drained n = false ∨ n.quiet = false →
        exec (.debugHalt nd) s = .next ((s.modNode nd (fun k => { k with quiet := s.drained n })).postIn 1 (.debugHalt nd))) ∧
      (s.drained n = true → n.quiet = true → ∃ t, exec (.debugHalt nd) s = .next t ∧
        (∃ m, t.node? nd = some m ∧ m.state = .halted ∧ m.saved = n.cores.map (fun u => (u, s.core u))) ∧
        (∀ u ∈ n.cores, (s.core u).node = some nd → (t.core u).node = none ∧ (t.core u).owner = none))) ∧
    (∀ edits : List DebugEdit, let k := edits.foldl Node.edit n
      n.state = .halted → n.saved ≠ [] → n.stepping = none → n.pendingStep = none →
      (s.coresReady k = false → exec (.debugResume ⟨nd, edits⟩) s =
        .next (((s.modNode nd (fun _ => k)).askCores k).postIn 1 (.debugResume ⟨nd, []⟩))) ∧
      (s.coresReady k = true → (k.saved.map (·.1)).Nodup → ∃ t, exec (.debugResume ⟨nd, edits⟩) s = .next t ∧
        (∃ m, t.node? nd = some m ∧ m.state = .running ∧ m.saved = [] ∧ m.halt = none) ∧
        ∀ c ∈ k.saved, (t.core c.1).node = some nd ∧ (t.core c.1).tiles = c.2.tiles ∧ (t.core c.1).accs = c.2.accs ∧
          (t.core c.1).shp = c.2.shp ∧ ∀ q, ((t.core c.1).seq q).x = (c.2.seq q).x ∧ ((t.core c.1).seq q).pc = (c.2.seq q).pc ∧
            ((t.core c.1).seq q).base = (c.2.seq q).cutAt.getD (c.2.seq q).base + (s.cyc + 1 - k.halt.getD 0))) ∧
    (∀ (q : SeqId) (c : UnitId × Machine.Core) (edits : List DebugEdit), let k := edits.foldl Node.edit n
      s.nodes.find? (fun n => n.state == .halted && n.stepping.isNone && n.pendingStep.isNone && n.saved.any (fun c => c.1 == q.unit)) = some n →
      k.saved.find? (fun c => c.1 == q.unit) = some c →
      ((c.2.seq q.q).aligned = true → exec (.singleStep ⟨q, edits⟩) s = .next (s.emit (.refusedCall 332))) ∧
      ((c.2.seq q.q).aligned = false → (c.2.seq q.q).entry = true → (c.2.seq q.q).ended = false →
        ∃ t, exec (.singleStep ⟨q, edits⟩) s = .next t ∧ (∃ e ∈ t.agenda, e.due = .cyc (s.cyc + 1) ∧ e.ev = .debugHalt nd) ∧
          ∃ m, t.node? nd = some m ∧ (s.coresReady k = true → m.stepping = some q ∧ m.halt = some (s.cyc + 1)) ∧
            (s.coresReady k = false → m.pendingStep = some q ∧ m.halt = k.halt))) ∧
    (n.state = .waiting true → ∃ t, exec (.holdRelease nd) s = .next t ∧ (∃ m, t.node? nd = some m ∧ m.state = .waiting false) ∧
      (t.queue n.queue).heldBack = false ∧ ∃ e ∈ t.agenda, e.due = .cyc (s.cyc + 1) ∧ e.ev = .variantPlacement nd)

/-- A power-on step that passes raises the stage and makes the next one due, a failing one records its number; step 3
reads in what flash holds where every image passes, step 4 clears the scratchpads, step 5 ends in READY or error 5; a
failed step leaves the hub as it is. Configuration requests get retry status through step 3. A key that unwraps is
loaded, else refused. An alarm sets its bit, erases the masked keys and stops the nodes that have begun; it clears 10
ms after every source is back, without a commit. Key sets, die firmware of one die at a time, retraining, region
guards and the measurement record act when their conditions hold, and are refused else (the answers: log 34; the
exchange before the record: log 39; both PRESUMED). A level reaches what a higher one holds by that level's mailbox
alone, where the call stands until it is served; the monitor sets guards; a plug-in that has not been stopped sets its
policy (log 39). (R328; R352; R353; R354; R356; R360; R361; R362; R363; R364; R366; R367) -/
def Obligations.HubEvents : Prop :=
  ∀ (s : State),
    (s.ready = true ∨ s.errV = true → exec .powerOn s = .next s) ∧
    (∀ p, exec (.configurationRequest ⟨p, none⟩) s = .next (s.emit (.config p (decide (s.stage ≤ 3)))) ∧
      (∀ pasid on, 3 < s.stage → s.errV = false → ∃ t, exec (.configurationRequest ⟨p, some (pasid, on)⟩) s = .next t ∧
        (pasid ∈ t.cacheOn ↔ on = true) ∧ (∀ k, k ≠ pasid → (k ∈ t.cacheOn ↔ k ∈ s.cacheOn)) ∧ .config p false ∈ t.outbox)) ∧
    (∀ (caller : FwLevel) (c : Fin 8) (gs : List RegionGuard),
      ((caller = .monitor ∧ gs.length ≤ 16) → ∀ g, (c, g) ∈ (s.setGuards caller c gs).regionGuards ↔ g ∈ gs) ∧
      (¬ (caller = .monitor ∧ gs.length ≤ 16) → s.setGuards caller c gs = s)) ∧
    (∀ (core : Fin 8) (caller : FwLevel) (mb : Bool) (i : Instr),
      (heldBy i = none → firmwareCall core caller mb i s = .next (s.emit (.refusedCall 360))) ∧
      ∀ l, heldBy i = some l →
        (levelHeight l ≤ levelHeight caller → firmwareCall core caller mb i s = exec i s) ∧
        (levelHeight caller < levelHeight l → mb = false → firmwareCall core caller mb i s = .next (s.emit (.refusedCall 360))) ∧
        (levelHeight caller < levelHeight l → mb = true → s.errV = false →
          firmwareCall core caller mb i s = .next { s with fwCalls := s.fwCalls ++ [⟨core, l, i⟩] })) ∧
    (∀ (core : Fin 8) (l : FwLevel),
      (s.fwCalls.find? (fun c => c.core == core && c.level == l) = none → serveMailbox core l s = .next s) ∧
      (∀ c, s.fwCalls.find? (fun c => c.core == core && c.level == l) = some c →
        serveMailbox core l s = exec c.call { s with fwCalls := s.fwCalls.erase c })) ∧
    (s.errV = false → ∀ p pol, ((s.part p).plugin = true → setPolicy p pol s = .next (s.modPart p (fun v => { v with policy := pol }))) ∧
      ((s.part p).plugin = false → setPolicy p pol s = .next (s.emit (.refusedCall 361)))) ∧
    (s.errV = true → ∀ slot blob core part a w, exec (.keyLoad slot blob) s = .next s ∧ exec (.regionGuardViolation core part a w) s = .next s ∧
      (∀ src, exec (.securityAlarm src) s = .next s) ∧ (∀ u, exec (.unitReinstate u) s = .next s) ∧ (∀ m, exec (.attestation m) s = .next s)) ∧
    (s.ready = false → s.errV = false →
      ((s.stage = 1 ∨ s.stage = 2) → Config.powerStepPasses s.stage = true → ∃ t, exec .powerOn s = .next t ∧ t.stage = s.stage + 1 ∧
        t.ready = false ∧ t.errV = false ∧ ∃ e ∈ t.agenda, e.ev = .powerOn ∧ ∃ c, e.due = .cyc c ∧ s.cyc < c ∧ c ≤ s.cyc + stepBound (s.stage + 1)) ∧
      ((s.stage = 1 ∨ s.stage = 2) → Config.powerStepPasses s.stage = false →
        exec .powerOn s = .next { s with err := s.stage, errV := true }) ∧
      (s.stage = 3 → flashPasses = false → exec .powerOn s = .next { s with err := 3, errV := true }) ∧
      (s.stage = 3 → flashPasses = true → ∃ t, exec .powerOn s = .next t ∧ t.stage = 4 ∧ t.minVersion = Config.minVersion ∧
        (∀ k, k ∈ t.eraseMask ↔ k < 1024 ∧ Config.eraseMask k = true) ∧ t.repair = Config.repairFrames ∧ t.retired = Config.repairFrames ∧
        (∀ p : Fin 2, t.cxl.get p = Config.portRunsCxl p.val) ∧ t.trayCap = Config.trayCap ∧
        ∃ e ∈ t.agenda, e.ev = .powerOn ∧ e.due = .cyc (s.cyc + 2 ^ 19)) ∧
      (s.stage = 4 → ∃ t, exec .powerOn s = .next t ∧ t.stage = 5 ∧ ∀ a, t.spadByte a = 0) ∧
      (s.stage = 5 → ∃ t, exec .powerOn s = .next t ∧ ((t.ready = true ∧ t.stage = 6 ∧ t.errV = false) ∨ (t.ready = false ∧ t.err = 5 ∧ t.errV = true)) ∧
        ∀ u, (t.core u).quarantined = ((s.core u).quarantined || !Config.selfTestPasses u.val))) ∧
    (s.errV = false → s.alarm = true → s.outOfRange = [] → s.alarmAt + 10000000 ≤ s.drone → (∀ n ∈ s.nodes, n.state ≠ .committing) →
      exec .alarmClear s = .next { s with alarm := false }) ∧
    (s.drone < s.alarmAt + 10000000 ∨ s.outOfRange ≠ [] ∨ (∃ n ∈ s.nodes, n.state = .committing) → exec .alarmClear s = .next s) ∧
    (s.errV = false →
      (∀ slot blob, (1024 ≤ slot ∨ Config.keyUnwraps blob = false → exec (.keyLoad slot blob) s = .next (s.emit (.refusedCall 352))) ∧
        (slot < 1024 → Config.keyUnwraps blob = true → ∃ t, exec (.keyLoad slot blob) s = .next t ∧ slot ∈ t.keys ∧ slot ∉ t.erased ∧
          t.keyOf slot = blob ∧ (∀ k, k ≠ slot → t.keyOf k = s.keyOf k) ∧ (∀ k, k ∈ s.keys → k ∈ t.keys) ∧ t.cores = s.cores ∧
          t.dev = s.dev ∧ t.devKeys = s.devKeys ∧ (slot ≠ 0 ∨ s.keyOf 0 = blob → t.roots = s.roots) ∧
          (slot = 0 → s.keyOf 0 ≠ blob → t.roots = [] ∧ ∀ r ∈ s.roots, r.1 ∈ t.lost))) ∧
      (∀ src, ∃ t, exec (.securityAlarm ⟨src, false⟩) s = .next t ∧ t.alarm = true ∧ t.alarmAt = s.drone ∧ src ∈ t.outOfRange ∧
        (∀ k, k ∈ t.keys ↔ k ∈ s.keys ∧ k ∉ s.eraseMask) ∧ (∀ k ∈ s.eraseMask, k ∈ t.erased) ∧
        (∀ n ∈ s.nodes, (∀ k ∈ s.nodes, k.nd = n.nd → k = n) → n.state = .armed ∨ (n.state = .running ∧ n.begun s.cyc = false) → ∃ m ∈ t.nodes, m.nd = n.nd ∧ m.state = n.state ∧ m.alarmed = true) ∧
        (∀ n ∈ s.nodes, (n.state = .running ∧ n.begun s.cyc = true) ∨ n.state = .ending → ∃ c ∈ t.causes, c.node = n.nd ∧ c.rank = 1 ∧ c.unit = 0x78 ∧ c.r.code = .alarm) ∧
        (0 ∈ s.eraseMask → ∀ n ∈ s.nodes, n.state = .halted → ∃ c ∈ t.causes, c.node = n.nd ∧ c.r.code = .alarm)) ∧
      (∀ src, exec (.securityAlarm ⟨src, true⟩) s = .next { s with outOfRange := s.outOfRange.filter (fun x => x != src), alarmAt := s.drone }) ∧
      (∀ p keys req sig,
        (keys.length ≤ 8 → signatureVerifies Config.ownerKey (keys.flatten ++ [if req then 1 else 0]) sig = true →
          exec (.keySetLoad p keys req sig) s = .next (s.modPart p (fun v => { v with keys := keys, reqSig := req }))) ∧
        (8 < keys.length ∨ signatureVerifies Config.ownerKey (keys.flatten ++ [if req then 1 else 0]) sig = false →
          exec (.keySetLoad p keys req sig) s = .next (s.emit (.refusedCall 363)))) ∧
      (∀ (d : Fin 4) v image sig,
        (s.ready = false ∨ Config.imageVersion image ≠ v ∨ v < s.minVersion ∨ (∀ k, k < 4 → sha512 (Config.vendorKey k) ≠ Config.vendorKeyHash k ∨
          signatureVerifies (Config.vendorKey k) image sig = false) → exec (.dieFirmwareUpdate d v image sig) s = .next (s.emit (.refusedCall 362))) ∧
        (s.ready = true → Config.imageVersion image = v → s.minVersion ≤ v →
          (∃ k, k < 4 ∧ sha512 (Config.vendorKey k) = Config.vendorKeyHash k ∧ signatureVerifies (Config.vendorKey k) image sig = true) →
          (s.fabric = none ∨ (Config.mapExcludes s.detour d.val = true ∧ ∀ n ∈ s.nodes, some n.part = s.fabric → n.onFabric = true →
            Config.mapExcludes n.variant.detour d.val = true)) → (∀ u, dieOf u ≠ d.val → (s.core u).withdrawn = false) →
          (∀ u, dieOf u = d.val → (s.core u).node = none ∧ (s.core u).muster = false ∧ (s.core u).moving = false) →
          ∃ t, exec (.dieFirmwareUpdate d v image sig) s = .next t ∧ t.dieVersion.get d = v ∧ (∀ f ∈ s.retired, f ∈ t.repair) ∧
            (∀ u, dieOf u = d.val → t.core u = { s.core u with withdrawn := false, owner := none }) ∧
            (∀ u, dieOf u ≠ d.val → t.core u = s.core u))) ∧
      (∀ (p : PortId) reach, (0 < reach → reach ≤ 255 → inside (s.port p).guards s.cyc = true →
          (reach = (s.port p).reach ∨ ∀ n ∈ s.nodes, some n.part = s.fabric → n.live = false) → ∃ t, exec (.linkRetrain p reach) s = .next t ∧
            (t.port p).reach = reach ∧ (t.port p).fill = 128 ∧ (t.port p).up = true ∧ ∀ o, o ≠ p → t.port o = s.port o) ∧
        (reach = 0 ∨ 255 < reach → exec (.linkRetrain p reach) s = .next (s.emit (.refusedCall 367))) ∧
        (0 < reach → reach ≤ 255 → reach ≠ (s.port p).reach → inside (s.port p).guards s.cyc = false →
          exec (.linkRetrain p reach) s = .next (s.modPort p (fun q => { q with deferred := some reach })))) ∧
      (∀ i c, i < 16 → s.retraining = false → c ≤ 8 * s.pitch * 1000 →
        exec (.memoryRetrain i c) s = .next { s with retrain := [(i, s.cyc + c)] }) ∧
      (∀ u p a w, s.guardAllows u a w = true → exec (.regionGuardViolation u p a w) s = .next s) ∧
      (∀ u p a w, s.guardAllows u a w = false → exec (.regionGuardViolation u p a w) s =
        .next { s.modPart p (fun v => { v with plugin := false, policy := {} }) with guardRecs := s.guardRecs ++ [(0x70 + u.val, a)] }) ∧
      (∀ p : Fin 2,
        (∀ nonce, (3 < s.stage → s.spdm.get p = 3 → ∃ b g, exec (.attestation ⟨p, .measurements nonce⟩) s = .next (s.emit (.attested b g)) ∧
            b = s.measured.flatMap sha512 ∧ g = Config.identitySign (nonce ++ b)) ∧
          (s.stage ≤ 3 ∨ s.spdm.get p < 3 → exec (.attestation ⟨p, .measurements nonce⟩) s = .next (s.emit .doeError))) ∧
        (3 < s.stage → s.spdm.get p = 3 → exec (.attestation ⟨p, .certificate⟩) s = .next (s.emit (.doe Config.certificateChain))) ∧
        (3 < s.stage → ∃ t, exec (.attestation ⟨p, .version⟩) s = .next t ∧ t.spdm.get p = 1 ∧ ∀ o, o ≠ p → t.spdm.get o = s.spdm.get o)))

/-- A partition takes a target and a ceiling where all targets sum to at most 3,100 and the ceiling is 1 to 31, with a
muster interval of 200 µs to 10 ms. The fabric partition changes only while neither partition uses the fabric. The
memory manager writes aligned roots, and entries with S clear and H as the snapshots have it, but change no page that
a running node has staged, and nothing while slot 0 holds no key. Pool frames that are retired never join. A snapshot
is mapped read-only into a context of its partition, and released. A tainted node is restored, its unchanged pages
first having their old leaf again, or released; either way it is no longer known. (R307; R309; 16 R338; 16 R342; 16
R343; 16 R349; 16 R350; R351; 17 R354; 17 R367; log 34; log 35) -/
def Obligations.MemoryManagerEvents : Prop :=
  ∀ (s : State),
    (∀ p tgt ceil run, 1 ≤ ceil → ceil ≤ 31 → (∀ m, run.musterUs = some m → 200 ≤ m ∧ m ≤ 10000) →
      s.errV = false → ((List.finRange 16).filter (fun k => k != p)).foldl (fun m k => m + (s.part k).target) tgt ≤ 3100 →
      let new := if run.fabric then some p else if s.fabric = some p then none else s.fabric
      (new ≠ s.fabric → s.fabricFree new = false → exec (.partitionConfig p tgt ceil run) s = .next (s.emit (.refusedCall 309))) ∧
      (new = s.fabric ∨ s.fabricFree new = true → ∃ t, exec (.partitionConfig p tgt ceil run) s = .next t ∧ t.fabric = new ∧
        (t.part p).target = tgt ∧ (t.part p).ceiling = ceil ∧ (∀ k, k ≠ p → t.part k = s.part k) ∧ t.musterUs = run.musterUs.getD s.musterUs)) ∧
    (∀ p tgt ceil run, s.errV = false → (ceil = 0 ∨ 31 < ceil ∨ 3100 < tgt ∨ ∃ m, run.musterUs = some m ∧ (m < 200 ∨ 10000 < m)) →
      exec (.partitionConfig p tgt ceil run) s = .next (s.emit (.refusedCall 307))) ∧
    (∀ p d, s.errV = false → ((s.fabric = some p ∨ (s.usesFabric p = false ∧ ∀ k, s.fabric = some k → s.usesFabric k = false)) →
        ∃ t, exec (.fabricPartitionSet p d) s = .next t ∧ t.fabric = some p ∧ t.detour = d ∧
          (∀ u, isShep u = false → t.core u = s.core u) ∧
          (s.fabric ≠ some p → ∀ u, isShep u = true → ∀ i, (t.core u).tlc.get i = 0 ∧ (t.core u).ticket.get i = 0)) ∧
      (s.fabric ≠ some p → (s.usesFabric p = true ∨ ∃ k, s.fabric = some k ∧ s.usesFabric k = true) → exec (.fabricPartitionSet p d) s = .next (s.emit (.refusedCall 309)))) ∧
    (∀ pasid root a v, s.errV = false → s.retraining = false →
      let t0 : State := match root with | some r => { s with roots := insertKey s.roots pasid r } | none => s
      let t1 := t0.setEntry a (s.ownBits v)
      (((∃ r, root = some r ∧ r % 2 ^ 12 ≠ 0) ∨ 0 ∉ s.keys) → exec (.pageMapping pasid root [(a, v)]) s = .next (s.emit (.refusedCall 338))) ∧
      (0 ∈ s.keys → (∀ r, root = some r → r % 2 ^ 12 = 0) → (∃ n ∈ s.nodes, ∃ g ∈ n.staged, g.leaf = a ∨
          t1.walk n.pasid g.va ≠ s.walk n.pasid g.va ∨ t1.entryAt g.leaf ≠ s.entryAt g.leaf) →
        exec (.pageMapping pasid root [(a, v)]) s = .next (s.emit (.refusedCall 342))) ∧
      (0 ∈ s.keys → (∀ r, root = some r → r % 2 ^ 12 = 0) → (∀ n ∈ s.nodes, ∀ g ∈ n.staged, g.leaf ≠ a ∧
          t1.walk n.pasid g.va = s.walk n.pasid g.va ∧ t1.entryAt g.leaf = s.entryAt g.leaf) → ∃ t, exec (.pageMapping pasid root [(a, v)]) s = .next t ∧
        (∀ r, root = some r → lookup t.roots pasid = some r) ∧ t.dev = (s.setEntry a (s.ownBits v)).dev)) ∧
    (∀ p add rem, s.errV = false → ∃ t, exec (.versionPool p add rem) s = .next t ∧ (∀ k, k ≠ p → t.part k = s.part k) ∧
      ∀ f, f ∈ (t.part p).pool ↔ (f ∈ (s.part p).pool ∧ f.1 ∉ rem) ∨ (f ∈ add ∧ f.1 ∉ s.retired)) ∧
    (s.errV = false → s.retraining = true → (∀ pasid root ws, exec (.pageMapping pasid root ws) s = .next (s.postIn 1 (.pageMapping pasid root ws))) ∧
      (∀ p id pasid, exec (.snapshotMap p id pasid) s = .next (s.postIn 1 (.snapshotMap p id pasid)) ∧
        exec (.snapshotRelease p id) s = .next (s.postIn 1 (.snapshotRelease p id))) ∧
      ∀ nd, exec (.taintRestore nd) s = .next (s.postIn 1 (.taintRestore nd))) ∧
    (∀ p id pasid, s.errV = false → s.retraining = false →
      ((s.part p).snapshots.find? (fun k => k.id == id) = none →
        exec (.snapshotMap p id pasid) s = .next (s.emit (.refusedCall 349)) ∧
        exec (.snapshotRelease p id) s = .next (s.emit (.refusedCall 349))) ∧
      (∀ k, (s.part p).snapshots.find? (fun k => k.id == id) = some k →
        (∃ t, exec (.snapshotRelease p id) s = .next t ∧ (∀ x ∈ (t.part p).snapshots, x.id ≠ id) ∧ t.cores = s.cores) ∧
        ((∀ q c, (s.queue q).cfg = some c → ¬ (c.part = p ∧ c.pasid = pasid)) → exec (.snapshotMap p id pasid) s = .next (s.emit (.refusedCall 349))) ∧
        ((∃ q c, (s.queue q).cfg = some c ∧ c.part = p ∧ c.pasid = pasid) →
          (s.mapLeaves p pasid k = none → exec (.snapshotMap p id pasid) s = .next (s.emit (.refusedCall 349))) ∧
          (∀ t, s.mapLeaves p pasid k = some t → (s.stagedStands t = true → exec (.snapshotMap p id pasid) s = .next t) ∧
            (s.stagedStands t = false → exec (.snapshotMap p id pasid) s = .next (s.emit (.refusedCall 342))))) ∧
        ((∃ q c, (s.queue q).cfg = some c ∧ c.part = p ∧ c.pasid = pasid) → ∀ l, k.leaves = [l] → pteV l.2 = true →
          ∀ x a, s.slotFor p pasid l.1 (pteG l.2) = some (x, a) → (∀ n ∈ s.nodes, n.staged = []) →
          exec (.snapshotMap p id pasid) s = .next (x.setEntry a (pteSet (pteSet (pteSet l.2 62 false) 59 true) 60 false))))) ∧
    (∀ p pasid va a, s.slot2 pasid va = some a → s.slotFor p pasid va true = some (s, a) ∧
      (ptePointer (s.entryAt a) = true → s.slotFor p pasid va false = some (s, pteAddr (s.entryAt a) + 8 * bitsOf va 24 16))) ∧
    (∀ nd n, s.errV = false → s.retraining = false → s.node? nd = some n → n.state = .tainted →
      (∃ t, exec (.taintRelease nd) s = .next t ∧ t.node? nd = none ∧ t.cores = s.cores ∧ t.dev = s.dev) ∧
      (∀ g, n.pre = [g] → pteV (s.entryAt g.leaf) = true → pteAddr (s.entryAt g.leaf) = pteAddr g.new → ∃ t, exec (.taintRestore nd) s = .next t ∧ t.node? nd = none ∧
        t.dev = (s.setEntry g.leaf (pteSet (pteSet g.old 60 (pteS (s.entryAt g.leaf))) 59 (pteV g.old && s.frameHeld (pteAddr g.old) g.size))).dev ∧ .pages [] ∈ t.outbox) ∧
      (∀ g, n.pre = [g] → (pteV (s.entryAt g.leaf) = false ∨ pteAddr (s.entryAt g.leaf) ≠ pteAddr g.new) → ∃ t, exec (.taintRestore nd) s = .next t ∧ t.node? nd = none ∧
        t.dev = s.dev ∧ .pages [g.va] ∈ t.outbox))

/-- A landing index register or predicate holds its value, i0 and p0 keep theirs, and every other register, sequencer and
byte of memory is unchanged. A tile takes the lanes that land from lane 0 on and keeps the lanes beyond. Flags are
raised or cleared by their mask; the shape and a format register change as their operation says; tags are cleared, but
for those that a copy set on this cycle; nothing else of the core changes with them. A scalar load writes its bytes,
extended by zeros or by its sign. (R27; R84; R126; R144; R151; R207; R235; 08 R152) -/
def Obligations.RegistersLand : Prop :=
  ∀ (now : List Eff) (s : State) (e : Eff),
    let t := State.landOne now s e
    (∀ q r v b, e.op = .setX q r v b → (r = 0 → t = s) ∧ (r ≠ 0 → (t.seq q).xr r = v) ∧ (∀ x, x ≠ r → (t.seq q).xr x = (s.seq q).xr x) ∧
      (∀ p, (t.seq q).pr p = (s.seq q).pr p) ∧ (∀ k, k ≠ q → t.seq k = s.seq k) ∧ s.sameMemory t ∧
      { t with cores := s.cores } = s) ∧
    (∀ q r v b, e.op = .setP q r v b → (r = 0 → t = s) ∧ (r ≠ 0 → (t.seq q).pr r = v) ∧ (∀ x, x ≠ r → (t.seq q).pr x = (s.seq q).pr x) ∧
      (∀ x, (t.seq q).xr x = (s.seq q).xr x) ∧ (∀ k, k ≠ q → t.seq k = s.seq k) ∧ { t with cores := s.cores } = s) ∧
    (∀ u code lanes, (e.op = .setTile u code lanes ∨ e.op = .setLast u code lanes) → code < 39 →
      (t.core u).tile code = lanes ++ ((s.core u).tile code).drop lanes.length ∧
      (∀ k, k ≠ code → (t.core u).tile k = (s.core u).tile k) ∧ (∀ k, t.seq k = s.seq k) ∧ (∀ v, v ≠ u → t.core v = s.core v) ∧
      (t.core u).accs = (s.core u).accs ∧ (t.core u).flags = (s.core u).flags ∧ { t with cores := s.cores } = s) ∧
    (∀ u m, (e.op = .setFlags u m → t = s.modCore u (fun c => { c with flags := c.flags ||| m })) ∧
      (e.op = .clearFlags u m → t = s.modCore u (fun c => { c with flags := c.flags &&& ~~~m }))) ∧
    (∀ u v, e.op = .setShp u v → t = s.modCore u (fun c => { c with shp := v })) ∧
    (∀ u n v, e.op = .setFt u n v → (t.core u).ft.get n.toFin = v ∧ (∀ k, k ≠ n.toFin → (t.core u).ft.get k = (s.core u).ft.get k) ∧
      t = s.modCore u (fun c => { c with ft := (t.core u).ft })) ∧
    (∀ u m, e.op = .clearTags u m → 
      t = s.modCore u (fun c => { c with tags := c.tags &&& ~~~(if c.tagsAt = s.cyc then m &&& ~~~c.tagsSet else m) })) ∧
    (∀ u q ws, e.op = .push u q ws → (t.core u).streams.get q.toFin = (s.core u).streams.get q.toFin ++ ws ∧
      (∀ k, k ≠ q.toFin → (t.core u).streams.get k = (s.core u).streams.get k)) ∧
    (∀ u c cells kind i, e.op = .setAcc u c cells kind → (t.core u).tiles = (s.core u).tiles ∧
      (∀ d, d ≠ c.toFin → (t.core u).accs.get d = (s.core u).accs.get d) ∧
      ((∀ x ∈ cells, x.1 ≠ i) → ((t.core u).accs.get c.toFin).cells[i]? = ((s.core u).accs.get c.toFin).cells[i]?)) ∧
    (∀ got r sx land tbl, e.op = .load [] got (.x r sx) land tbl → r ≠ 0 →
      (t.seq e.by_).xr r = (if sx = true ∧ 2 ^ (8 * got.length - 1) ≤ leNat got then BitVec.ofInt 64 ((leNat got : Int) - 2 ^ (8 * got.length))
        else BitVec.ofNat 64 (leNat got)) ∧
      (∀ x, x ≠ r → (t.seq e.by_).xr x = (s.seq e.by_).xr x) ∧ (∀ k, k ≠ e.by_ → t.seq k = s.seq k) ∧ s.sameMemory t)

/-- In a state whose memories stand in canonical form: a store leaves at every package offset that it writes, contiguous
or scattered, the byte that it writes there last; an atomic without an uncorrectable word leaves its new value, or the
old one where it writes none, and its old value is due in xd at its landing; a LOSSY block that is on time for its
descriptor leaves its bytes. Every byte outside them, device memory, host memory and code are unchanged, and so are
the registers of every core. (R132; R235; R236; R237; R250) -/
def Obligations.StoresLand : Prop :=
  ∀ (now : List Eff) (s : State) (e : Eff), s.canonical →
    let t := State.landOne now s e
    (∀ rk a bs w, e.op = .store rk (cellsAt a bs) w → (∀ i b, bs[i]? = some b → t.spadByte (a + i) = b) ∧
      ∀ k, (k < a ∨ a + bs.length ≤ k) → t.spadByte k = s.spadByte k) ∧
    (∀ rk cells w, e.op = .store rk cells w →
      (∀ a, t.spadByte a = ((cells.reverse.find? (fun c => c.1 == a)).map (·.2)).getD (s.spadByte a)) ∧
      t.dev = s.dev ∧ t.devKeys = s.devKeys ∧ t.host = s.host ∧ t.code = s.code ∧ t.codeSh = s.codeSh ∧ s.sameRegs t ∧ s.sameTags t) ∧
    (∀ rk a fn wide b c xd land w, e.op = .atomic rk a fn wide b c xd land w →
      s.badBytes (span a (wideBytes wide)) = none →
      let n := if wide then 8 else 4
      let old := s.spadBytes a n
      t.spadBytes a n = (atomicBytes fn wide old b c).getD old ∧ (∀ k, (k < a ∨ a + n ≤ k) → t.spadByte k = s.spadByte k) ∧
      t.dev = s.dev ∧ t.host = s.host ∧ t.code = s.code ∧ t.codeSh = s.codeSh ∧ s.sameRegs t ∧ s.sameTags t ∧
      (∀ r, xd = some r → ∃ f ∈ t.effs, f.at_ = land ∧ f.op = .setX e.by_ r (BitVec.ofNat 64 (leNat old)) false)) ∧
    (∀ port rx k blk cnt off data, e.op = .deliver port rx k blk cnt off data →
      (((s.core e.by_.unit).descs.get rx).serial = k → s.cyc ≤ ((s.core e.by_.unit).descs.get rx).close →
        (∀ i b, data[i]? = some b → t.spadByte (off + i) = b) ∧
        (∀ a, (a < off ∨ off + data.length ≤ a) → t.spadByte a = s.spadByte a) ∧ t.dev = s.dev ∧ t.host = s.host ∧ s.sameRegs t ∧ s.sameTags t ∧
        lookup ((t.core e.by_.unit).descs.get rx).got blk = some cnt) ∧
      (((s.core e.by_.unit).descs.get rx).serial = k → ((s.core e.by_.unit).descs.get rx).close < s.cyc →
        t = s.modPort port (fun q => { q with late := min 0xFFF (q.late + 1) })))

/-- For every well-formed instruction, if exec answers a next state: no register of any core, of those an operation writes
when it lands (index registers, predicates, tiles, accumulators, slots, formats, shape, flags, counters), is changed,
and no tag but one that a completion has set on this very cycle; no byte of any memory; no other core at all; no other
sequencer of the own core; no queue, partition, port, image, key, table root or group state; the clock, drone time and
pitch; and no operation in flight is lost. (R27; R84; R119; R132; R207; 06 R118; 07 Table 7-3) -/
def Obligations.IssueFrame : Prop :=
  ∀ (i : Instr) (k : SeqName) (sh : Bool) (s t : State), i.wf k sh = true → exec i s = .next t →
    s.sameRegs t ∧ (∀ j, t.here.tags.getLsbD j = s.here.tags.getLsbD j ∨ (s.here.tagsAt = s.cyc ∧ s.here.tagsSet.getLsbD j = true)) ∧
    s.sameMemory t ∧ (∀ u, u ≠ s.cur.unit → t.core u = s.core u) ∧
    (∀ q, q ≠ s.cur.q → t.here.seq q = s.here.seq q) ∧ t.cur = s.cur ∧
    t.queues = s.queues ∧ t.parts = s.parts ∧ t.ports = s.ports ∧ t.images = s.images ∧ t.group = s.group ∧ t.keys = s.keys ∧
    t.roots = s.roots ∧ t.cyc = s.cyc ∧ t.drone = s.drone ∧ t.pitch = s.pitch ∧ t.epoch = s.epoch ∧ t.n65 = s.n65 ∧
    t.stage = s.stage ∧ t.ready = s.ready ∧ t.alarm = s.alarm ∧ t.transit = s.transit ∧ t.retired = s.retired ∧
    (∀ e ∈ s.effs, e ∈ t.effs) ∧ (∀ c ∈ s.causes, c ∈ t.causes)

/-- In the close phase a step closes the cycle, in an order that is the model's (log 1). What the sequencers of a node
issued on the cycle of its stop is undone: registers, tiles, accumulators, tags and mailbox are as before the issue
phase, no operation that it started is left, and a sequencer that issued keeps its program counter. For the one
running node of the package, no group node, and a first cause of rank 3 or 4, which comes before no other of its node:
unless it is TRANSLATION, UNCORRECTABLE, TAINTED or ALARM the node is gone, its queue stopped with a record of status
0x10, its code and unit; after TAINTED, or held after TRANSLATION, an idempotent node that was tried again fewer than
15 times waits again with the next attempt. Its queue holds the fault record, taken of the node as it was before the
issue phase, and its units are free. Where no other queue is set up, the step leaves just that. (R313; R314; R315;
R317; 15 Table 15-1; 15 Table 15-3; log 1; log 28) -/
def Obligations.StopTakesException : Prop :=
  (∀ s : State, s.phase = .close → step s = .next s.closeCycle ∧ s.closeCycle = s.stops.holdRedirects.redirects.drovers.tick) ∧
  (∀ (cs : List Cause) (c : Cause), firstCause cs = some c → c ∈ cs ∧ ∀ d ∈ cs, causeKey c ≤ causeKey d) ∧
  (∀ (s : State) (b : Before) (n n0 : Node), b.nodes.find? (fun k => k.nd == n.nd) = some n0 → s.node? n.nd = some n →
    let t := s.undo b n
    t.node? n.nd = some n0 ∧ t.queues = s.queues ∧ t.causes = s.causes ∧
    (∀ e ∈ t.effs, e.node = n.nd → e ∈ b.effs) ∧ (∀ e ∈ s.effs, e.node ≠ n.nd → e ∈ t.effs) ∧
    (∀ x ∈ t.agenda, x.node = some n.nd → x ∈ b.agenda) ∧
    (∀ u, u ∉ n.cores → u ∉ n.sheps.map (·.2) → t.core u = s.core u) ∧
    (∀ u, (b.cores.get u).node ≠ some n.nd → t.core u = s.core u) ∧
    (∀ u, (u ∈ n.cores ∨ u ∈ n.sheps.map (·.2)) → (n.cores ++ n.sheps.map (·.2)).Nodup → (b.cores.get u).node = some n.nd →
      (b.cores.get u).sameRegs (t.core u) ∧ (t.core u).tags = (b.cores.get u).tags ∧ (t.core u).mailbox = (b.cores.get u).mailbox ∧
      (t.core u).node = (b.cores.get u).node ∧
      ∀ q, ((t.core u).seq q).pc = ((b.cores.get u).seq q).pc ∧ ((t.core u).seq q).issued = ((b.cores.get u).seq q).issued ∧
        ((t.core u).seq q).wait = ((b.cores.get u).seq q).wait)) ∧
  (∀ (s : State) (b : Before) (n n0 : Node) (c : Cause), s.nodes = [n] → s.before = some b →
    b.nodes.find? (fun k => k.nd == n.nd) = some n0 → n0.nd = n.nd → n0.state = .running → n.state = .running → n0.family.group = false →
    firstCause (s.causes.filter (fun c => c.node == n.nd)) = some c → (c.rank = 3 ∨ c.rank = 4) →
    let t := s.stops
    let s1 := s.undo b n
    let code := c.r.code
    t.causes = [] ∧ t.before = none ∧
    ((n.cores ++ n.sheps.map (·.2)).Nodup → n0.cores = n.cores → n0.sheps = n.sheps →
      ∀ u, u ∈ n.cores ∨ u ∈ n.sheps.map (·.2) → (b.cores.get u).node = some n.nd →
      (t.core u).node = none ∧ (t.core u).owner = none ∧ (t.core u).copies = []) ∧
    (code ≠ .translation → code ≠ .uncorrectable → code ≠ .tainted → code ≠ .alarm → (s.queue n0.queue).halted = false →
      t.nodes = [] ∧ (t.queue n0.queue).state = .stopped ∧
      (t.queue n0.queue).faultRec = some (s1.faultRecord (s1.markStop n0) c .stop) ∧
      (∃ r ∈ (t.queue n0.queue).due, r.status = 0x10 ∧ r.fault = codeNum code ∧ r.unit = c.unit ∧ r.id = n0.id) ∧
      ((∀ q, q ≠ n0.queue → (s.queue q).cfg = none) → s.phase = .close → ∃ v, step s = .next v ∧ v.nodes = [] ∧ v.cyc = s.cyc + 1 ∧
        (v.queue n0.queue).state = .stopped ∧ (v.queue n0.queue).faultRec = (t.queue n0.queue).faultRec ∧
        (v.queue n0.queue).due = (t.queue n0.queue).due)) ∧
    (code = .tainted ∨ code = .translation → n0.family.nonidem = false → n0.tries < 15 →
      (∃ m, t.nodes = [m] ∧ m.nd = s.serial ∧ m.id = n0.id ∧ m.seq = n0.seq ∧ m.state = .waiting (decide (code = .translation)) ∧
        m.attempt = min 255 (n0.attempt + 1) ∧ m.tries = n0.tries + 1 ∧ m.cores = [] ∧ m.staged = []) ∧
      (t.queue n0.queue).due = (s.queue n0.queue).due ∧ (code = .translation → (t.queue n0.queue).heldBack = true)))

/-- After reset drone time and slip are 0 and the pitch code is 250; the hub is in stage 1, not READY, without error or
alarm; the package is a group of one, its own bellwether, with a lead of 250 us; no node, no image and no queue
exists, TAIL, HEAD, CTAIL and CHEAD are 0 and OUT is 1; tags, timeline counters, tickets and flags are 0, the shape is
0xFF; descriptors and handles are idle, slots free, mailboxes empty; the first power-on step is due. i0 reads 0 and p0
true. The invariant of InvariantKept holds. (That key slot 0 alone is loaded is the model's choice, log 2.) (R248;
R253; R270; R272; R274; R308; R323; R354; R357; 14 Table 14-2; 17 Table 17-2; 02 Table 2-6) -/
def Obligations.ResetState : Prop :=
  let s := State.reset
  s.canonical ∧ s.hubAgrees ∧ s.drone = 0 ∧ s.n65 = 65 * s.cyc ∧ s.pitch = 250 ∧ s.stage = 1 ∧ s.ready = false ∧ s.err = 0 ∧ s.errV = false ∧
  s.alarm = false ∧ s.group.member = false ∧ s.group.members = [0] ∧ s.group.bell = true ∧ s.group.leadUs = 250 ∧ s.nodes = [] ∧ s.images = [] ∧
  s.fabric = none ∧ s.musterUs = 250 ∧ s.agenda = [{ due := .cyc s.cyc, ev := .powerOn }] ∧ s.effs = [] ∧ s.keys = [0] ∧
  (∀ q, (s.queue q).cfg = none ∧ (s.queue q).tail = 0 ∧ (s.queue q).head = 0 ∧ (s.queue q).ctail = 0 ∧ (s.queue q).chead = 0 ∧
    (s.queue q).out = true) ∧
  (∀ u, let c := s.core u
    c.tags = 0 ∧ c.flags = 0 ∧ c.shp = 0xFF ∧ (∀ i, c.tlc.get i = 0 ∧ c.ticket.get i = 0) ∧ c.sq = [] ∧ c.mailbox = [] ∧ c.node = none ∧
    (∀ i, (c.descs.get i).state = .idle ∧ (c.slots.get i).busy = false ∧ (c.handles.get i).busy = false) ∧
    ∀ q, (c.seq q).xr 0 = 0 ∧ (c.seq q).pr 0 = true ∧ (c.seq q).aligned = false)

/-- For every state whose scratchpads, device memory, host memory, code stores and BAR0 stand in canonical form (addresses
strictly rising, no entry equal to what an unlisted address reads as), and in which the stage is 1 to 6, READY is 1
exactly in stage 6, and no error is recorded with READY: if a step answers a next state, the same holds of that state.
(R354; 17 Table 17-2; 16 R344; 07 R132) -/
def Obligations.InvariantKept : Prop :=
  ∀ s t : State, s.canonical → s.hubAgrees → step s = .next t → t.canonical ∧ t.hubAgrees

/-- On its array cycle a load without an uncorrectable word reads its bytes as the scratchpad holds them, at most 1,024 of
them a cycle, and lands them on the landing cycle of its table. Landed, a tile holds the words of the bytes from lane
0 on, a plane slot the bytes with zeros beyond, a row slot the bytes, a scale entry its data; no other register, no
memory and no other core changes. In a state whose memories stand in canonical form: an EXACT block leaves its bytes,
and an open EXACT descriptor over it counts the block; an RDC hop leaves in its buffer the lane by lane sum of packet
and buffer, or the buffer alone where the block carries no data or a bad CRC, and the packet carries the result on
with its count. (R132; R141; R142; R144; R146; R148; R249; R251; R253) -/
def Obligations.LoadsLand : Prop :=
  ∀ (now : List Eff) (s : State) (e : Eff),
    let t := State.landOne now s e
    (∀ as got dest land tbl, e.op = .load as got dest land tbl → as ≠ [] → s.badBytes (as.take 1024) = none →
      let bytes := got ++ (as.take 1024).map s.spadByte
      (1024 < as.length → t = { s with effs := s.effs ++ [{ e with at_ := s.cyc + 1, op := .load (as.drop 1024) bytes dest land tbl }] }) ∧
      (as.length ≤ 1024 → (∀ k, dest ≠ .ring k) → (∀ k, dest ≠ .wait k) →
        t = { s with effs := s.effs ++ [{ e with at_ := land, oc := none, op := .load [] bytes dest land tbl }] }) ∧
      (as.length ≤ 1024 → ∀ k, dest = .ring k →
        t = { s with effs := s.effs ++ [{ e with at_ := land, commit := land, oc := none, op := .store .ring (cellsAt k bytes) land }] })) ∧
    (∀ got dest land tbl, e.op = .load [] got dest land tbl →
      let u := e.by_.unit
      (∀ code, (dest = .tile code ∨ dest = .lanes code) → code < 39 →
        (∀ k, 4 * k + 4 ≤ got.length → ((t.core u).tile code)[k]? = some (BitVec.ofNat 32 (leNat ((got.drop (4 * k)).take 4)))) ∧
        ((t.core u).tile code).drop (got.length / 4) = ((s.core u).tile code).drop (got.length / 4) ∧
        (∀ k, k ≠ code → (t.core u).tile k = (s.core u).tile k) ∧ (t.core u).accs = (s.core u).accs ∧ (t.core u).planes = (s.core u).planes ∧
        (∀ q, t.seq q = s.seq q)) ∧
      (∀ (n : Fin 8) p, dest = .plane n.val p → (t.core u).planes.get n = got ++ List.replicate (12288 - got.length) 0 ∧
        (∀ k, k ≠ n → (t.core u).planes.get k = (s.core u).planes.get k) ∧ (t.core u).rows = (s.core u).rows ∧ (t.core u).tiles = (s.core u).tiles ∧
        (t.core u).accs = (s.core u).accs ∧ (∀ q, t.seq q = s.seq q)) ∧
      (∀ (n : Fin 8), dest = .row n.val → (t.core u).rows.get n = got ∧ (∀ k, k ≠ n → (t.core u).rows.get k = (s.core u).rows.get k) ∧
        (t.core u).planes = (s.core u).planes ∧ (t.core u).tiles = (s.core u).tiles ∧ (t.core u).accs = (s.core u).accs ∧ (∀ q, t.seq q = s.seq q)) ∧
      (∀ id, dest = .scale id → t = s.modCore u (fun c => { c with sq := c.sq.map (fun x => if x.id == id then { x with data := some got } else x) })) ∧
      ((∃ k, dest = .tile k ∨ dest = .lanes k ∨ dest = .row k ∨ ∃ p, dest = .plane k p) →
        (∀ v, v ≠ u → t.core v = s.core v) ∧ { t with cores := s.cores } = s)) ∧
    (s.canonical →
      (∀ rx off data, e.op = .exact rx off data none →
        (∀ i b, data[i]? = some b → t.spadByte (off + i) = b) ∧ (∀ a, (a < off ∨ off + data.length ≤ a) → t.spadByte a = s.spadByte a) ∧
        t.dev = s.dev ∧ t.host = s.host ∧ s.sameRegs t ∧
        (∀ r, rx = some r → let d := (s.core e.by_.unit).descs.get r
          (d.state = .open_ → d.ex = true → offOf d.base ≤ off → off < offOf d.base + 256 * d.e →
            lookup ((t.core e.by_.unit).descs.get r).got ((off - offOf d.base) / 256) = some 1 ∧
            (d.e ≤ ((t.core e.by_.unit).descs.get r).got.length → ((t.core e.by_.unit).descs.get r).state = .complete)) ∧
          (d.state ≠ .open_ ∨ d.ex = false → (t.core e.by_.unit).descs = (s.core e.by_.unit).descs))) ∧
      (∀ port key j rx serial blk off add p b, e.op = .combine port key j rx serial blk off add →
        s.transit.find? (fun x => x.1 == key) = some (key, p) → p.blocks[j]? = some b → s.spadBad off 256 = false → b.data.length = 256 →
        let old := s.spadBytes off 256
        let n := p.counts.getD j 0
        let adds := b.crcOk = true ∧ 0 < n
        (∀ k, 4 * k < 256 → adds → t.spadBytes (off + 4 * k) 4 = leBytes 4 (combineLane add
          (BitVec.ofNat 32 (leNat ((b.data.drop (4 * k)).take 4))) (BitVec.ofNat 32 (leNat ((old.drop (4 * k)).take 4)))).toNat) ∧
        (¬ adds → t.spadBytes off 256 = old) ∧ (∀ a, (a < off ∨ off + 256 ≤ a) → t.spadByte a = s.spadByte a) ∧
        (∃ v, t.transit.find? (fun x => x.1 == key) = some (key, v) ∧ v.blocks = p.blocks.set j ⟨t.spadBytes off 256, true⟩ ∧
          v.counts = p.counts.set j (if b.crcOk = true ∧ 0 < n then min (n + 1) 255 else 1)) ∧
        (((s.core e.by_.unit).descs.get rx).serial = serial →
          lookup ((t.core e.by_.unit).descs.get rx).got blk = some (if b.crcOk = true ∧ 0 < n then min (n + 1) 255 else 1)) ∧
        (t.port port).badCrc = (if b.crcOk then (s.port port).badCrc else satAdd (s.port port).badCrc 1)))

/-- A landing MMA or MMAS leaves in element (i, m) its old value, zero with the zero bit or where its word is
uncorrectable, with the K-blocks added in their order, group after group; the kind is that of the formats, the flags
of every element and MXERR are due on the next cycle, and the first replaced element is noted once. A landing MCLR
leaves zeros, a landing ACCIN its cells, with its kind, and every other element as it was. No other accumulator, no
tile, slot or index register, no other core and no memory changes. (R75; R184; R195; R196; R198; R200; R201; R202) -/
def Obligations.AccumulatorsLand : Prop :=
  ∀ (now : List Eff) (s : State) (e : Eff),
    let t := State.landOne now s e
    (∀ u c, e.op = .clearAcc u c → ((t.core u).accs.get c.toFin).cells = List.replicate 24576 0 ∧
      ((t.core u).accs.get c.toFin).kind = ((s.core u).accs.get c.toFin).kind) ∧
    (∀ u c cells kind, e.op = .setAcc u c cells kind → (cells.map (·.1)).Nodup →
      (∀ i v, (i, v) ∈ cells → i < ((s.core u).accs.get c.toFin).cells.length → ((t.core u).accs.get c.toFin).cells[i]? = some v) ∧
      (∀ i, (∀ x ∈ cells, x.1 ≠ i) → ((t.core u).accs.get c.toFin).cells[i]? = ((s.core u).accs.get c.toFin).cells[i]?) ∧
      ((t.core u).accs.get c.toFin).kind = kind.getD ((s.core u).accs.get c.toFin).kind) ∧
    (∀ u id c fa fb p kb zero sparse pb pm scales blocks, e.op = .matrix u id c fa fb p kb zero sparse pb pm scales blocks →
      ((s.core u).accs.get c.toFin).cells.length = 24576 →
      let sh : Shape := { fa := fa, fb := fb, p := p, sparse := sparse }
      let ds := blocks.zipIdx.map (fun b => decodeBlock sh b.2 b.1 (scales.getD b.2 ([], [])))
      let bad (k : Nat) : Bool := (s.core u).bad.any (fun w => w.1 == 3 && w.2 / 24576 == c.toNat && w.2 % 24576 / 2 == k / 2)
      let old (k : Nat) : Word := if zero || bad k then 0 else ((s.core u).accs.get c.toFin).cells.getD k 0
      let out (i m : Nat) : Word × Flags := ds.foldl (fun a d => addBlock d i m a) (old (192 * i + m), 0)
      (∀ i m, i < 128 → m < 192 → ((t.core u).accs.get c.toFin).cells[192 * i + m]? = some (out i m).1) ∧
      ((t.core u).accs.get c.toFin).kind = (if matrixInt fa then .int32 else .fp32) ∧
      (∀ i m, i < 128 → m < 192 → (out i m).2 ≠ 0 → ∃ f ∈ t.effs, ∃ g, f.at_ = s.cyc + 1 ∧ f.op = .setFlags u g ∧ g &&& (out i m).2 = (out i m).2) ∧
      (∀ r, firstReplaced ds c.toNat u.val = some r → (∃ f ∈ t.effs, ∃ g, f.at_ = s.cyc + 1 ∧ f.op = .setFlags u g ∧ g &&& fMXERR = fMXERR) ∧
        (t.core u).mxerr = ((s.core u).mxerr.getD (s.cyc, r) : Nat × Nat)) ∧
      (firstReplaced ds c.toNat u.val = none → (t.core u).mxerr = (s.core u).mxerr)) ∧
    (∀ u c, (e.op = .clearAcc u c ∨ (∃ cells kind, e.op = .setAcc u c cells kind) ∨
        ∃ id fa fb p kb zero sparse pb pm scales blocks, e.op = .matrix u id c fa fb p kb zero sparse pb pm scales blocks) →
      (∀ d, d ≠ c.toFin → (t.core u).accs.get d = (s.core u).accs.get d) ∧ (t.core u).tiles = (s.core u).tiles ∧
      (t.core u).planes = (s.core u).planes ∧ (t.core u).rows = (s.core u).rows ∧ (∀ q, t.seq q = s.seq q) ∧ (t.core u).flags = (s.core u).flags ∧
      (∀ v, v ≠ u → t.core v = s.core v) ∧ { t with cores := s.cores, effs := s.effs } = s)

/-- A source line that no order, no re-training (of the model: of every device line, log 13) and no full queue holds is
read at one instant: its bytes join those that the copy has read. A request to window 0x10 or 0x20 first leaves, and
is performed at a later cycle. A destination line takes, byte by byte, the byte read at its source, the fill byte, or
a free value where the manual leaves it undefined (logs 5 and 7); every other byte stays. A line that waits is looked
at on the next cycle. With the last line written the completion is due on the next cycle, where R206 fixes none (the
model's choice, log 6). A line that cannot be read stops the node with its fault. (R206; R209; R210; R211; R212; log
5; log 6; log 7; log 13) -/
def Obligations.CopiesMoveBytes : Prop :=
  ∀ (now : List Eff) (s : State) (e : Eff) (n : Node) (k : Copy),
    let t := State.landOne now s e
    let u := e.by_.unit
    s.node? e.node = some n → 
    (∀ serial as a rest sent, e.op = .copyRead serial as sent → as = a :: rest → (s.core u).copies.find? (fun k => k.serial == serial) = some k →
      (s.lineWaits u a sent = true → t = { s with effs := s.effs ++ [{ e with at_ := s.cyc + 1 }] }) ∧
      (s.lineWaits u a sent = false → spadAt u a = none → sent = false →
        ∃ f, t.effs = s.effs ++ [f] ∧ f.op = .copyRead serial as true ∧ s.cyc < f.at_ ∧ t.cores = s.cores) ∧
      (s.lineWaits u a sent = false → (∀ x ∈ as, ∃ o, spadAt u x = some o ∧ s.spadBad o 1 = false) →
        ∃ c, (t.core u).copies.find? (fun k => k.serial == serial) = some c ∧ c.unread = k.unread - 1 ∧
          c.buf = k.buf ++ as.map (fun x => (x.toNat, s.spadByte ((spadAt u x).getD 0))) ∧ c.unwritten = k.unwritten ∧
          t.effs = s.effs ∧ s.sameMemory t ∧ s.sameRegs t) ∧
      (s.lineWaits u a sent = false → (spadAt u a).isSome = true ∨ sent = true → ∀ c i, s.copyBytes u n as = .bad c i →
        ∃ x, t.causes = s.causes ++ [x] ∧ x.node = n.nd ∧ x.r.code = c ∧ x.rank = (if c = .uncorrectable then 2 else if c = .alarm then 1 else 4))) ∧
    (s.canonical → ∀ serial cells sent, e.op = .copyWrite serial cells sent → cells ≠ [] →
      (s.core u).copies.find? (fun k => k.serial == serial) = some k → (∀ f m kk b st, k.kind ≠ .planes f m kk b st) →
      s.lineWaits u ((cells.map (·.1)).headD 0) sent = false →
      ((∃ x ∈ cells, k.value x.1 x.2.1 x.2.2.1 = none) → t = { s with effs := s.effs ++ [{ e with at_ := s.cyc + 1 }] }) ∧
      ((∀ x ∈ cells, (k.value x.1 x.2.1 x.2.2.1).isSome = true ∧ (spadAt u x.1).isSome = true) →
        (cells.map (fun x => (spadAt u x.1).getD 0)).Nodup →
        (∀ x ∈ cells, ∀ v, k.value x.1 x.2.1 x.2.2.1 = some v →
          t.spadByte ((spadAt u x.1).getD 0) = if x.2.2.2 = 0 then v else Config.freeByteAt x.2.2.2 x.1.toNat) ∧
        (∀ a, (∀ x ∈ cells, spadAt u x.1 ≠ some a) → t.spadByte a = s.spadByte a) ∧ t.dev = s.dev ∧ t.host = s.host ∧ s.sameRegs t ∧
        (∃ c, (t.core u).copies.find? (fun k => k.serial == serial) = some c ∧ c.unwritten = k.unwritten - 1) ∧
        (k.unwritten ≤ 1 → ∃ f ∈ t.agenda, f.due = .cyc (s.cyc + 1) ∧ f.ev = .copyComplete u serial))) ∧
    (∀ dst src b, (∀ v, k.kind = .fill v → k.value dst src b = some b) ∧
      (k.kind = .move → ∀ a v, src = some a → k.buf.find? (fun x => x.1 == a.toNat) = some v → k.value dst src b = some v.2))

/-- The clock moves on by one cycle: CYC rises by one; drone time, with the fraction of a nanosecond that is kept in units
of 1 / (65 x pitch) (the model's unit, log 3), rises by 250 / pitch code nanoseconds, or by 64/65 of that in catch-up;
the nominal count rises by one cycle, or by 64/65. Pitch, epoch, cores and memories stay. In the close phase a step
takes the stops, the redirects, the front end and the clock in this order, which is the model's (log 1); where nothing
stops, no node is halted and no queue is set up, it is the redirects and the clock. (R268; R272; R273; R313; log 1;
log 3) -/
def Obligations.CloseOfCycle : Prop :=
  (∀ s : State, 0 < s.pitch → let t := s.tick
    t.cyc = s.cyc + 1 ∧ t.phase = .resolve ∧ t.turn = [] ∧ t.pitch = s.pitch ∧ t.epoch = s.epoch ∧ t.cores = s.cores ∧
    65 * s.pitch * t.drone + t.droneRem = 65 * s.pitch * s.drone + s.droneRem + 250 * (if s.catchUp then 64 else 65) ∧
    t.droneRem < 65 * s.pitch ∧ t.n65 = s.n65 + (if s.catchUp then 64 else 65) ∧ s.sameMemory t ∧ t.effs = s.effs) ∧
  (∀ s : State, s.phase = .close → step s = .next s.stops.holdRedirects.redirects.drovers.tick) ∧
  (∀ s : State, s.phase = .close → s.causes = [] → (∀ n ∈ s.nodes, n.state ≠ .halted) → (∀ q, (s.queue q).cfg = none) →
    step s = .next { s with before := none }.redirects.tick)
end

