-- ==== Sys2Proof/Laws/State.lean ====
section
/-! SUPPORT. What each update of the state leaves in each field, and reading back what was written. -/

namespace Sys2Proof.Machine
open Host

@[simp] theorem setCore_cyc (s : State) (u : UnitId) (c : Core) : (s.setCore u c).cyc = s.cyc := rfl
@[simp] theorem setCore_drone (s : State) (u : UnitId) (c : Core) : (s.setCore u c).drone = s.drone := rfl
@[simp] theorem setCore_droneRem (s : State) (u : UnitId) (c : Core) : (s.setCore u c).droneRem = s.droneRem := rfl
@[simp] theorem setCore_slew (s : State) (u : UnitId) (c : Core) : (s.setCore u c).slew = s.slew := rfl
@[simp] theorem setCore_served (s : State) (u : UnitId) (c : Core) : (s.setCore u c).served = s.served := rfl
@[simp] theorem setCore_n65 (s : State) (u : UnitId) (c : Core) : (s.setCore u c).n65 = s.n65 := rfl
@[simp] theorem setCore_droop (s : State) (u : UnitId) (c : Core) : (s.setCore u c).droop = s.droop := rfl
@[simp] theorem setCore_catchUp (s : State) (u : UnitId) (c : Core) : (s.setCore u c).catchUp = s.catchUp := rfl
@[simp] theorem setCore_pitch (s : State) (u : UnitId) (c : Core) : (s.setCore u c).pitch = s.pitch := rfl
@[simp] theorem setCore_epoch (s : State) (u : UnitId) (c : Core) : (s.setCore u c).epoch = s.epoch := rfl
@[simp] theorem setCore_limit (s : State) (u : UnitId) (c : Core) : (s.setCore u c).limit = s.limit := rfl
@[simp] theorem setCore_forecasts (s : State) (u : UnitId) (c : Core) : (s.setCore u c).forecasts = s.forecasts := rfl
@[simp] theorem setCore_emerg (s : State) (u : UnitId) (c : Core) : (s.setCore u c).emerg = s.emerg := rfl
@[simp] theorem setCore_group (s : State) (u : UnitId) (c : Core) : (s.setCore u c).group = s.group := rfl
@[simp] theorem setCore_stage (s : State) (u : UnitId) (c : Core) : (s.setCore u c).stage = s.stage := rfl
@[simp] theorem setCore_err (s : State) (u : UnitId) (c : Core) : (s.setCore u c).err = s.err := rfl
@[simp] theorem setCore_errV (s : State) (u : UnitId) (c : Core) : (s.setCore u c).errV = s.errV := rfl
@[simp] theorem setCore_ready (s : State) (u : UnitId) (c : Core) : (s.setCore u c).ready = s.ready := rfl
@[simp] theorem setCore_alarm (s : State) (u : UnitId) (c : Core) : (s.setCore u c).alarm = s.alarm := rfl
@[simp] theorem setCore_alarmAt (s : State) (u : UnitId) (c : Core) : (s.setCore u c).alarmAt = s.alarmAt := rfl
@[simp] theorem setCore_outOfRange (s : State) (u : UnitId) (c : Core) : (s.setCore u c).outOfRange = s.outOfRange := rfl
@[simp] theorem setCore_keys (s : State) (u : UnitId) (c : Core) : (s.setCore u c).keys = s.keys := rfl
@[simp] theorem setCore_eraseMask (s : State) (u : UnitId) (c : Core) : (s.setCore u c).eraseMask = s.eraseMask := rfl
@[simp] theorem setCore_erased (s : State) (u : UnitId) (c : Core) : (s.setCore u c).erased = s.erased := rfl
@[simp] theorem setCore_keyBlobs (s : State) (u : UnitId) (c : Core) : (s.setCore u c).keyBlobs = s.keyBlobs := rfl
@[simp] theorem setCore_minVersion (s : State) (u : UnitId) (c : Core) : (s.setCore u c).minVersion = s.minVersion := rfl
@[simp] theorem setCore_cxl (s : State) (u : UnitId) (c : Core) : (s.setCore u c).cxl = s.cxl := rfl
@[simp] theorem setCore_trayCap (s : State) (u : UnitId) (c : Core) : (s.setCore u c).trayCap = s.trayCap := rfl
@[simp] theorem setCore_repair (s : State) (u : UnitId) (c : Core) : (s.setCore u c).repair = s.repair := rfl
@[simp] theorem setCore_spdm (s : State) (u : UnitId) (c : Core) : (s.setCore u c).spdm = s.spdm := rfl
@[simp] theorem setCore_bar0 (s : State) (u : UnitId) (c : Core) : (s.setCore u c).bar0 = s.bar0 := rfl
@[simp] theorem setCore_fwCalls (s : State) (u : UnitId) (c : Core) : (s.setCore u c).fwCalls = s.fwCalls := rfl
@[simp] theorem setCore_roots (s : State) (u : UnitId) (c : Core) : (s.setCore u c).roots = s.roots := rfl
@[simp] theorem setCore_lost (s : State) (u : UnitId) (c : Core) : (s.setCore u c).lost = s.lost := rfl
@[simp] theorem setCore_bound (s : State) (u : UnitId) (c : Core) : (s.setCore u c).bound = s.bound := rfl
@[simp] theorem setCore_cacheOn (s : State) (u : UnitId) (c : Core) : (s.setCore u c).cacheOn = s.cacheOn := rfl
@[simp] theorem setCore_hostDown (s : State) (u : UnitId) (c : Core) : (s.setCore u c).hostDown = s.hostDown := rfl
@[simp] theorem setCore_regionGuards (s : State) (u : UnitId) (c : Core) : (s.setCore u c).regionGuards = s.regionGuards := rfl
@[simp] theorem setCore_guardRecs (s : State) (u : UnitId) (c : Core) : (s.setCore u c).guardRecs = s.guardRecs := rfl
@[simp] theorem setCore_dieVersion (s : State) (u : UnitId) (c : Core) : (s.setCore u c).dieVersion = s.dieVersion := rfl
@[simp] theorem setCore_dieImages (s : State) (u : UnitId) (c : Core) : (s.setCore u c).dieImages = s.dieImages := rfl
@[simp] theorem setCore_retired (s : State) (u : UnitId) (c : Core) : (s.setCore u c).retired = s.retired := rfl
@[simp] theorem setCore_poisoned (s : State) (u : UnitId) (c : Core) : (s.setCore u c).poisoned = s.poisoned := rfl
@[simp] theorem setCore_badDev (s : State) (u : UnitId) (c : Core) : (s.setCore u c).badDev = s.badDev := rfl
@[simp] theorem setCore_badSpad (s : State) (u : UnitId) (c : Core) : (s.setCore u c).badSpad = s.badSpad := rfl
@[simp] theorem setCore_badHost (s : State) (u : UnitId) (c : Core) : (s.setCore u c).badHost = s.badHost := rfl
@[simp] theorem setCore_retrain (s : State) (u : UnitId) (c : Core) : (s.setCore u c).retrain = s.retrain := rfl
@[simp] theorem setCore_active (s : State) (u : UnitId) (c : Core) : (s.setCore u c).active = s.active := rfl
@[simp] theorem setCore_spad (s : State) (u : UnitId) (c : Core) : (s.setCore u c).spad = s.spad := rfl
@[simp] theorem setCore_spadSeed (s : State) (u : UnitId) (c : Core) : (s.setCore u c).spadSeed = s.spadSeed := rfl
@[simp] theorem setCore_dev (s : State) (u : UnitId) (c : Core) : (s.setCore u c).dev = s.dev := rfl
@[simp] theorem setCore_devKeys (s : State) (u : UnitId) (c : Core) : (s.setCore u c).devKeys = s.devKeys := rfl
@[simp] theorem setCore_host (s : State) (u : UnitId) (c : Core) : (s.setCore u c).host = s.host := rfl
@[simp] theorem setCore_code (s : State) (u : UnitId) (c : Core) : (s.setCore u c).code = s.code := rfl
@[simp] theorem setCore_codeSh (s : State) (u : UnitId) (c : Core) : (s.setCore u c).codeSh = s.codeSh := rfl
@[simp] theorem setCore_queues (s : State) (u : UnitId) (c : Core) : (s.setCore u c).queues = s.queues := rfl
@[simp] theorem setCore_parts (s : State) (u : UnitId) (c : Core) : (s.setCore u c).parts = s.parts := rfl
@[simp] theorem setCore_fabric (s : State) (u : UnitId) (c : Core) : (s.setCore u c).fabric = s.fabric := rfl
@[simp] theorem setCore_detour (s : State) (u : UnitId) (c : Core) : (s.setCore u c).detour = s.detour := rfl
@[simp] theorem setCore_window (s : State) (u : UnitId) (c : Core) : (s.setCore u c).window = s.window := rfl
@[simp] theorem setCore_images (s : State) (u : UnitId) (c : Core) : (s.setCore u c).images = s.images := rfl
@[simp] theorem setCore_nodes (s : State) (u : UnitId) (c : Core) : (s.setCore u c).nodes = s.nodes := rfl
@[simp] theorem setCore_rr (s : State) (u : UnitId) (c : Core) : (s.setCore u c).rr = s.rr := rfl
@[simp] theorem setCore_musterUs (s : State) (u : UnitId) (c : Core) : (s.setCore u c).musterUs = s.musterUs := rfl
@[simp] theorem setCore_musterNext (s : State) (u : UnitId) (c : Core) : (s.setCore u c).musterNext = s.musterNext := rfl
@[simp] theorem setCore_shepNext (s : State) (u : UnitId) (c : Core) : (s.setCore u c).shepNext = s.shepNext := rfl
@[simp] theorem setCore_ports (s : State) (u : UnitId) (c : Core) : (s.setCore u c).ports = s.ports := rfl
@[simp] theorem setCore_transit (s : State) (u : UnitId) (c : Core) : (s.setCore u c).transit = s.transit := rfl
@[simp] theorem setCore_phase (s : State) (u : UnitId) (c : Core) : (s.setCore u c).phase = s.phase := rfl
@[simp] theorem setCore_turn (s : State) (u : UnitId) (c : Core) : (s.setCore u c).turn = s.turn := rfl
@[simp] theorem setCore_cur (s : State) (u : UnitId) (c : Core) : (s.setCore u c).cur = s.cur := rfl
@[simp] theorem setCore_evIss (s : State) (u : UnitId) (c : Core) : (s.setCore u c).evIss = s.evIss := rfl
@[simp] theorem setCore_agenda (s : State) (u : UnitId) (c : Core) : (s.setCore u c).agenda = s.agenda := rfl
@[simp] theorem setCore_effs (s : State) (u : UnitId) (c : Core) : (s.setCore u c).effs = s.effs := rfl
@[simp] theorem setCore_causes (s : State) (u : UnitId) (c : Core) : (s.setCore u c).causes = s.causes := rfl
@[simp] theorem setCore_before (s : State) (u : UnitId) (c : Core) : (s.setCore u c).before = s.before := rfl
@[simp] theorem setCore_outbox (s : State) (u : UnitId) (c : Core) : (s.setCore u c).outbox = s.outbox := rfl
@[simp] theorem setCore_serial (s : State) (u : UnitId) (c : Core) : (s.setCore u c).serial = s.serial := rfl
@[simp] theorem setCore_free (s : State) (u : UnitId) (c : Core) : (s.setCore u c).free = s.free := rfl

@[simp] theorem modCore_cyc (s : State) (u : UnitId) (f : Core → Core) : (s.modCore u f).cyc = s.cyc := rfl
@[simp] theorem modCore_drone (s : State) (u : UnitId) (f : Core → Core) : (s.modCore u f).drone = s.drone := rfl
@[simp] theorem modCore_droneRem (s : State) (u : UnitId) (f : Core → Core) : (s.modCore u f).droneRem = s.droneRem := rfl
@[simp] theorem modCore_slew (s : State) (u : UnitId) (f : Core → Core) : (s.modCore u f).slew = s.slew := rfl
@[simp] theorem modCore_served (s : State) (u : UnitId) (f : Core → Core) : (s.modCore u f).served = s.served := rfl
@[simp] theorem modCore_n65 (s : State) (u : UnitId) (f : Core → Core) : (s.modCore u f).n65 = s.n65 := rfl
@[simp] theorem modCore_droop (s : State) (u : UnitId) (f : Core → Core) : (s.modCore u f).droop = s.droop := rfl
@[simp] theorem modCore_catchUp (s : State) (u : UnitId) (f : Core → Core) : (s.modCore u f).catchUp = s.catchUp := rfl
@[simp] theorem modCore_pitch (s : State) (u : UnitId) (f : Core → Core) : (s.modCore u f).pitch = s.pitch := rfl
@[simp] theorem modCore_epoch (s : State) (u : UnitId) (f : Core → Core) : (s.modCore u f).epoch = s.epoch := rfl
@[simp] theorem modCore_limit (s : State) (u : UnitId) (f : Core → Core) : (s.modCore u f).limit = s.limit := rfl
@[simp] theorem modCore_forecasts (s : State) (u : UnitId) (f : Core → Core) : (s.modCore u f).forecasts = s.forecasts := rfl
@[simp] theorem modCore_emerg (s : State) (u : UnitId) (f : Core → Core) : (s.modCore u f).emerg = s.emerg := rfl
@[simp] theorem modCore_group (s : State) (u : UnitId) (f : Core → Core) : (s.modCore u f).group = s.group := rfl
@[simp] theorem modCore_stage (s : State) (u : UnitId) (f : Core → Core) : (s.modCore u f).stage = s.stage := rfl
@[simp] theorem modCore_err (s : State) (u : UnitId) (f : Core → Core) : (s.modCore u f).err = s.err := rfl
@[simp] theorem modCore_errV (s : State) (u : UnitId) (f : Core → Core) : (s.modCore u f).errV = s.errV := rfl
@[simp] theorem modCore_ready (s : State) (u : UnitId) (f : Core → Core) : (s.modCore u f).ready = s.ready := rfl
@[simp] theorem modCore_alarm (s : State) (u : UnitId) (f : Core → Core) : (s.modCore u f).alarm = s.alarm := rfl
@[simp] theorem modCore_alarmAt (s : State) (u : UnitId) (f : Core → Core) : (s.modCore u f).alarmAt = s.alarmAt := rfl
@[simp] theorem modCore_outOfRange (s : State) (u : UnitId) (f : Core → Core) : (s.modCore u f).outOfRange = s.outOfRange := rfl
@[simp] theorem modCore_keys (s : State) (u : UnitId) (f : Core → Core) : (s.modCore u f).keys = s.keys := rfl
@[simp] theorem modCore_eraseMask (s : State) (u : UnitId) (f : Core → Core) : (s.modCore u f).eraseMask = s.eraseMask := rfl
@[simp] theorem modCore_erased (s : State) (u : UnitId) (f : Core → Core) : (s.modCore u f).erased = s.erased := rfl
@[simp] theorem modCore_keyBlobs (s : State) (u : UnitId) (f : Core → Core) : (s.modCore u f).keyBlobs = s.keyBlobs := rfl
@[simp] theorem modCore_minVersion (s : State) (u : UnitId) (f : Core → Core) : (s.modCore u f).minVersion = s.minVersion := rfl
@[simp] theorem modCore_cxl (s : State) (u : UnitId) (f : Core → Core) : (s.modCore u f).cxl = s.cxl := rfl
@[simp] theorem modCore_trayCap (s : State) (u : UnitId) (f : Core → Core) : (s.modCore u f).trayCap = s.trayCap := rfl
@[simp] theorem modCore_repair (s : State) (u : UnitId) (f : Core → Core) : (s.modCore u f).repair = s.repair := rfl
@[simp] theorem modCore_spdm (s : State) (u : UnitId) (f : Core → Core) : (s.modCore u f).spdm = s.spdm := rfl
@[simp] theorem modCore_bar0 (s : State) (u : UnitId) (f : Core → Core) : (s.modCore u f).bar0 = s.bar0 := rfl
@[simp] theorem modCore_fwCalls (s : State) (u : UnitId) (f : Core → Core) : (s.modCore u f).fwCalls = s.fwCalls := rfl
@[simp] theorem modCore_roots (s : State) (u : UnitId) (f : Core → Core) : (s.modCore u f).roots = s.roots := rfl
@[simp] theorem modCore_lost (s : State) (u : UnitId) (f : Core → Core) : (s.modCore u f).lost = s.lost := rfl
@[simp] theorem modCore_bound (s : State) (u : UnitId) (f : Core → Core) : (s.modCore u f).bound = s.bound := rfl
@[simp] theorem modCore_cacheOn (s : State) (u : UnitId) (f : Core → Core) : (s.modCore u f).cacheOn = s.cacheOn := rfl
@[simp] theorem modCore_hostDown (s : State) (u : UnitId) (f : Core → Core) : (s.modCore u f).hostDown = s.hostDown := rfl
@[simp] theorem modCore_regionGuards (s : State) (u : UnitId) (f : Core → Core) : (s.modCore u f).regionGuards = s.regionGuards := rfl
@[simp] theorem modCore_guardRecs (s : State) (u : UnitId) (f : Core → Core) : (s.modCore u f).guardRecs = s.guardRecs := rfl
@[simp] theorem modCore_dieVersion (s : State) (u : UnitId) (f : Core → Core) : (s.modCore u f).dieVersion = s.dieVersion := rfl
@[simp] theorem modCore_dieImages (s : State) (u : UnitId) (f : Core → Core) : (s.modCore u f).dieImages = s.dieImages := rfl
@[simp] theorem modCore_retired (s : State) (u : UnitId) (f : Core → Core) : (s.modCore u f).retired = s.retired := rfl
@[simp] theorem modCore_poisoned (s : State) (u : UnitId) (f : Core → Core) : (s.modCore u f).poisoned = s.poisoned := rfl
@[simp] theorem modCore_badDev (s : State) (u : UnitId) (f : Core → Core) : (s.modCore u f).badDev = s.badDev := rfl
@[simp] theorem modCore_badSpad (s : State) (u : UnitId) (f : Core → Core) : (s.modCore u f).badSpad = s.badSpad := rfl
@[simp] theorem modCore_badHost (s : State) (u : UnitId) (f : Core → Core) : (s.modCore u f).badHost = s.badHost := rfl
@[simp] theorem modCore_retrain (s : State) (u : UnitId) (f : Core → Core) : (s.modCore u f).retrain = s.retrain := rfl
@[simp] theorem modCore_active (s : State) (u : UnitId) (f : Core → Core) : (s.modCore u f).active = s.active := rfl
@[simp] theorem modCore_spad (s : State) (u : UnitId) (f : Core → Core) : (s.modCore u f).spad = s.spad := rfl
@[simp] theorem modCore_spadSeed (s : State) (u : UnitId) (f : Core → Core) : (s.modCore u f).spadSeed = s.spadSeed := rfl
@[simp] theorem modCore_dev (s : State) (u : UnitId) (f : Core → Core) : (s.modCore u f).dev = s.dev := rfl
@[simp] theorem modCore_devKeys (s : State) (u : UnitId) (f : Core → Core) : (s.modCore u f).devKeys = s.devKeys := rfl
@[simp] theorem modCore_host (s : State) (u : UnitId) (f : Core → Core) : (s.modCore u f).host = s.host := rfl
@[simp] theorem modCore_code (s : State) (u : UnitId) (f : Core → Core) : (s.modCore u f).code = s.code := rfl
@[simp] theorem modCore_codeSh (s : State) (u : UnitId) (f : Core → Core) : (s.modCore u f).codeSh = s.codeSh := rfl
@[simp] theorem modCore_queues (s : State) (u : UnitId) (f : Core → Core) : (s.modCore u f).queues = s.queues := rfl
@[simp] theorem modCore_parts (s : State) (u : UnitId) (f : Core → Core) : (s.modCore u f).parts = s.parts := rfl
@[simp] theorem modCore_fabric (s : State) (u : UnitId) (f : Core → Core) : (s.modCore u f).fabric = s.fabric := rfl
@[simp] theorem modCore_detour (s : State) (u : UnitId) (f : Core → Core) : (s.modCore u f).detour = s.detour := rfl
@[simp] theorem modCore_window (s : State) (u : UnitId) (f : Core → Core) : (s.modCore u f).window = s.window := rfl
@[simp] theorem modCore_images (s : State) (u : UnitId) (f : Core → Core) : (s.modCore u f).images = s.images := rfl
@[simp] theorem modCore_nodes (s : State) (u : UnitId) (f : Core → Core) : (s.modCore u f).nodes = s.nodes := rfl
@[simp] theorem modCore_rr (s : State) (u : UnitId) (f : Core → Core) : (s.modCore u f).rr = s.rr := rfl
@[simp] theorem modCore_musterUs (s : State) (u : UnitId) (f : Core → Core) : (s.modCore u f).musterUs = s.musterUs := rfl
@[simp] theorem modCore_musterNext (s : State) (u : UnitId) (f : Core → Core) : (s.modCore u f).musterNext = s.musterNext := rfl
@[simp] theorem modCore_shepNext (s : State) (u : UnitId) (f : Core → Core) : (s.modCore u f).shepNext = s.shepNext := rfl
@[simp] theorem modCore_ports (s : State) (u : UnitId) (f : Core → Core) : (s.modCore u f).ports = s.ports := rfl
@[simp] theorem modCore_transit (s : State) (u : UnitId) (f : Core → Core) : (s.modCore u f).transit = s.transit := rfl
@[simp] theorem modCore_phase (s : State) (u : UnitId) (f : Core → Core) : (s.modCore u f).phase = s.phase := rfl
@[simp] theorem modCore_turn (s : State) (u : UnitId) (f : Core → Core) : (s.modCore u f).turn = s.turn := rfl
@[simp] theorem modCore_cur (s : State) (u : UnitId) (f : Core → Core) : (s.modCore u f).cur = s.cur := rfl
@[simp] theorem modCore_evIss (s : State) (u : UnitId) (f : Core → Core) : (s.modCore u f).evIss = s.evIss := rfl
@[simp] theorem modCore_agenda (s : State) (u : UnitId) (f : Core → Core) : (s.modCore u f).agenda = s.agenda := rfl
@[simp] theorem modCore_effs (s : State) (u : UnitId) (f : Core → Core) : (s.modCore u f).effs = s.effs := rfl
@[simp] theorem modCore_causes (s : State) (u : UnitId) (f : Core → Core) : (s.modCore u f).causes = s.causes := rfl
@[simp] theorem modCore_before (s : State) (u : UnitId) (f : Core → Core) : (s.modCore u f).before = s.before := rfl
@[simp] theorem modCore_outbox (s : State) (u : UnitId) (f : Core → Core) : (s.modCore u f).outbox = s.outbox := rfl
@[simp] theorem modCore_serial (s : State) (u : UnitId) (f : Core → Core) : (s.modCore u f).serial = s.serial := rfl
@[simp] theorem modCore_free (s : State) (u : UnitId) (f : Core → Core) : (s.modCore u f).free = s.free := rfl

@[simp] theorem setSeq_cyc (s : State) (q : SeqId) (v : Seq) : (s.setSeq q v).cyc = s.cyc := rfl
@[simp] theorem setSeq_drone (s : State) (q : SeqId) (v : Seq) : (s.setSeq q v).drone = s.drone := rfl
@[simp] theorem setSeq_droneRem (s : State) (q : SeqId) (v : Seq) : (s.setSeq q v).droneRem = s.droneRem := rfl
@[simp] theorem setSeq_slew (s : State) (q : SeqId) (v : Seq) : (s.setSeq q v).slew = s.slew := rfl
@[simp] theorem setSeq_served (s : State) (q : SeqId) (v : Seq) : (s.setSeq q v).served = s.served := rfl
@[simp] theorem setSeq_n65 (s : State) (q : SeqId) (v : Seq) : (s.setSeq q v).n65 = s.n65 := rfl
@[simp] theorem setSeq_droop (s : State) (q : SeqId) (v : Seq) : (s.setSeq q v).droop = s.droop := rfl
@[simp] theorem setSeq_catchUp (s : State) (q : SeqId) (v : Seq) : (s.setSeq q v).catchUp = s.catchUp := rfl
@[simp] theorem setSeq_pitch (s : State) (q : SeqId) (v : Seq) : (s.setSeq q v).pitch = s.pitch := rfl
@[simp] theorem setSeq_epoch (s : State) (q : SeqId) (v : Seq) : (s.setSeq q v).epoch = s.epoch := rfl
@[simp] theorem setSeq_limit (s : State) (q : SeqId) (v : Seq) : (s.setSeq q v).limit = s.limit := rfl
@[simp] theorem setSeq_forecasts (s : State) (q : SeqId) (v : Seq) : (s.setSeq q v).forecasts = s.forecasts := rfl
@[simp] theorem setSeq_emerg (s : State) (q : SeqId) (v : Seq) : (s.setSeq q v).emerg = s.emerg := rfl
@[simp] theorem setSeq_group (s : State) (q : SeqId) (v : Seq) : (s.setSeq q v).group = s.group := rfl
@[simp] theorem setSeq_stage (s : State) (q : SeqId) (v : Seq) : (s.setSeq q v).stage = s.stage := rfl
@[simp] theorem setSeq_err (s : State) (q : SeqId) (v : Seq) : (s.setSeq q v).err = s.err := rfl
@[simp] theorem setSeq_errV (s : State) (q : SeqId) (v : Seq) : (s.setSeq q v).errV = s.errV := rfl
@[simp] theorem setSeq_ready (s : State) (q : SeqId) (v : Seq) : (s.setSeq q v).ready = s.ready := rfl
@[simp] theorem setSeq_alarm (s : State) (q : SeqId) (v : Seq) : (s.setSeq q v).alarm = s.alarm := rfl
@[simp] theorem setSeq_alarmAt (s : State) (q : SeqId) (v : Seq) : (s.setSeq q v).alarmAt = s.alarmAt := rfl
@[simp] theorem setSeq_outOfRange (s : State) (q : SeqId) (v : Seq) : (s.setSeq q v).outOfRange = s.outOfRange := rfl
@[simp] theorem setSeq_keys (s : State) (q : SeqId) (v : Seq) : (s.setSeq q v).keys = s.keys := rfl
@[simp] theorem setSeq_eraseMask (s : State) (q : SeqId) (v : Seq) : (s.setSeq q v).eraseMask = s.eraseMask := rfl
@[simp] theorem setSeq_erased (s : State) (q : SeqId) (v : Seq) : (s.setSeq q v).erased = s.erased := rfl
@[simp] theorem setSeq_keyBlobs (s : State) (q : SeqId) (v : Seq) : (s.setSeq q v).keyBlobs = s.keyBlobs := rfl
@[simp] theorem setSeq_minVersion (s : State) (q : SeqId) (v : Seq) : (s.setSeq q v).minVersion = s.minVersion := rfl
@[simp] theorem setSeq_cxl (s : State) (q : SeqId) (v : Seq) : (s.setSeq q v).cxl = s.cxl := rfl
@[simp] theorem setSeq_trayCap (s : State) (q : SeqId) (v : Seq) : (s.setSeq q v).trayCap = s.trayCap := rfl
@[simp] theorem setSeq_repair (s : State) (q : SeqId) (v : Seq) : (s.setSeq q v).repair = s.repair := rfl
@[simp] theorem setSeq_spdm (s : State) (q : SeqId) (v : Seq) : (s.setSeq q v).spdm = s.spdm := rfl
@[simp] theorem setSeq_bar0 (s : State) (q : SeqId) (v : Seq) : (s.setSeq q v).bar0 = s.bar0 := rfl
@[simp] theorem setSeq_fwCalls (s : State) (q : SeqId) (v : Seq) : (s.setSeq q v).fwCalls = s.fwCalls := rfl
@[simp] theorem setSeq_roots (s : State) (q : SeqId) (v : Seq) : (s.setSeq q v).roots = s.roots := rfl
@[simp] theorem setSeq_lost (s : State) (q : SeqId) (v : Seq) : (s.setSeq q v).lost = s.lost := rfl
@[simp] theorem setSeq_bound (s : State) (q : SeqId) (v : Seq) : (s.setSeq q v).bound = s.bound := rfl
@[simp] theorem setSeq_cacheOn (s : State) (q : SeqId) (v : Seq) : (s.setSeq q v).cacheOn = s.cacheOn := rfl
@[simp] theorem setSeq_hostDown (s : State) (q : SeqId) (v : Seq) : (s.setSeq q v).hostDown = s.hostDown := rfl
@[simp] theorem setSeq_regionGuards (s : State) (q : SeqId) (v : Seq) : (s.setSeq q v).regionGuards = s.regionGuards := rfl
@[simp] theorem setSeq_guardRecs (s : State) (q : SeqId) (v : Seq) : (s.setSeq q v).guardRecs = s.guardRecs := rfl
@[simp] theorem setSeq_dieVersion (s : State) (q : SeqId) (v : Seq) : (s.setSeq q v).dieVersion = s.dieVersion := rfl
@[simp] theorem setSeq_dieImages (s : State) (q : SeqId) (v : Seq) : (s.setSeq q v).dieImages = s.dieImages := rfl
@[simp] theorem setSeq_retired (s : State) (q : SeqId) (v : Seq) : (s.setSeq q v).retired = s.retired := rfl
@[simp] theorem setSeq_poisoned (s : State) (q : SeqId) (v : Seq) : (s.setSeq q v).poisoned = s.poisoned := rfl
@[simp] theorem setSeq_badDev (s : State) (q : SeqId) (v : Seq) : (s.setSeq q v).badDev = s.badDev := rfl
@[simp] theorem setSeq_badSpad (s : State) (q : SeqId) (v : Seq) : (s.setSeq q v).badSpad = s.badSpad := rfl
@[simp] theorem setSeq_badHost (s : State) (q : SeqId) (v : Seq) : (s.setSeq q v).badHost = s.badHost := rfl
@[simp] theorem setSeq_retrain (s : State) (q : SeqId) (v : Seq) : (s.setSeq q v).retrain = s.retrain := rfl
@[simp] theorem setSeq_active (s : State) (q : SeqId) (v : Seq) : (s.setSeq q v).active = s.active := rfl
@[simp] theorem setSeq_spad (s : State) (q : SeqId) (v : Seq) : (s.setSeq q v).spad = s.spad := rfl
@[simp] theorem setSeq_spadSeed (s : State) (q : SeqId) (v : Seq) : (s.setSeq q v).spadSeed = s.spadSeed := rfl
@[simp] theorem setSeq_dev (s : State) (q : SeqId) (v : Seq) : (s.setSeq q v).dev = s.dev := rfl
@[simp] theorem setSeq_devKeys (s : State) (q : SeqId) (v : Seq) : (s.setSeq q v).devKeys = s.devKeys := rfl
@[simp] theorem setSeq_host (s : State) (q : SeqId) (v : Seq) : (s.setSeq q v).host = s.host := rfl
@[simp] theorem setSeq_code (s : State) (q : SeqId) (v : Seq) : (s.setSeq q v).code = s.code := rfl
@[simp] theorem setSeq_codeSh (s : State) (q : SeqId) (v : Seq) : (s.setSeq q v).codeSh = s.codeSh := rfl
@[simp] theorem setSeq_queues (s : State) (q : SeqId) (v : Seq) : (s.setSeq q v).queues = s.queues := rfl
@[simp] theorem setSeq_parts (s : State) (q : SeqId) (v : Seq) : (s.setSeq q v).parts = s.parts := rfl
@[simp] theorem setSeq_fabric (s : State) (q : SeqId) (v : Seq) : (s.setSeq q v).fabric = s.fabric := rfl
@[simp] theorem setSeq_detour (s : State) (q : SeqId) (v : Seq) : (s.setSeq q v).detour = s.detour := rfl
@[simp] theorem setSeq_window (s : State) (q : SeqId) (v : Seq) : (s.setSeq q v).window = s.window := rfl
@[simp] theorem setSeq_images (s : State) (q : SeqId) (v : Seq) : (s.setSeq q v).images = s.images := rfl
@[simp] theorem setSeq_nodes (s : State) (q : SeqId) (v : Seq) : (s.setSeq q v).nodes = s.nodes := rfl
@[simp] theorem setSeq_rr (s : State) (q : SeqId) (v : Seq) : (s.setSeq q v).rr = s.rr := rfl
@[simp] theorem setSeq_musterUs (s : State) (q : SeqId) (v : Seq) : (s.setSeq q v).musterUs = s.musterUs := rfl
@[simp] theorem setSeq_musterNext (s : State) (q : SeqId) (v : Seq) : (s.setSeq q v).musterNext = s.musterNext := rfl
@[simp] theorem setSeq_shepNext (s : State) (q : SeqId) (v : Seq) : (s.setSeq q v).shepNext = s.shepNext := rfl
@[simp] theorem setSeq_ports (s : State) (q : SeqId) (v : Seq) : (s.setSeq q v).ports = s.ports := rfl
@[simp] theorem setSeq_transit (s : State) (q : SeqId) (v : Seq) : (s.setSeq q v).transit = s.transit := rfl
@[simp] theorem setSeq_phase (s : State) (q : SeqId) (v : Seq) : (s.setSeq q v).phase = s.phase := rfl
@[simp] theorem setSeq_turn (s : State) (q : SeqId) (v : Seq) : (s.setSeq q v).turn = s.turn := rfl
@[simp] theorem setSeq_cur (s : State) (q : SeqId) (v : Seq) : (s.setSeq q v).cur = s.cur := rfl
@[simp] theorem setSeq_evIss (s : State) (q : SeqId) (v : Seq) : (s.setSeq q v).evIss = s.evIss := rfl
@[simp] theorem setSeq_agenda (s : State) (q : SeqId) (v : Seq) : (s.setSeq q v).agenda = s.agenda := rfl
@[simp] theorem setSeq_effs (s : State) (q : SeqId) (v : Seq) : (s.setSeq q v).effs = s.effs := rfl
@[simp] theorem setSeq_causes (s : State) (q : SeqId) (v : Seq) : (s.setSeq q v).causes = s.causes := rfl
@[simp] theorem setSeq_before (s : State) (q : SeqId) (v : Seq) : (s.setSeq q v).before = s.before := rfl
@[simp] theorem setSeq_outbox (s : State) (q : SeqId) (v : Seq) : (s.setSeq q v).outbox = s.outbox := rfl
@[simp] theorem setSeq_serial (s : State) (q : SeqId) (v : Seq) : (s.setSeq q v).serial = s.serial := rfl
@[simp] theorem setSeq_free (s : State) (q : SeqId) (v : Seq) : (s.setSeq q v).free = s.free := rfl

@[simp] theorem modSeq_cyc (s : State) (q : SeqId) (f : Seq → Seq) : (s.modSeq q f).cyc = s.cyc := rfl
@[simp] theorem modSeq_drone (s : State) (q : SeqId) (f : Seq → Seq) : (s.modSeq q f).drone = s.drone := rfl
@[simp] theorem modSeq_droneRem (s : State) (q : SeqId) (f : Seq → Seq) : (s.modSeq q f).droneRem = s.droneRem := rfl
@[simp] theorem modSeq_slew (s : State) (q : SeqId) (f : Seq → Seq) : (s.modSeq q f).slew = s.slew := rfl
@[simp] theorem modSeq_served (s : State) (q : SeqId) (f : Seq → Seq) : (s.modSeq q f).served = s.served := rfl
@[simp] theorem modSeq_n65 (s : State) (q : SeqId) (f : Seq → Seq) : (s.modSeq q f).n65 = s.n65 := rfl
@[simp] theorem modSeq_droop (s : State) (q : SeqId) (f : Seq → Seq) : (s.modSeq q f).droop = s.droop := rfl
@[simp] theorem modSeq_catchUp (s : State) (q : SeqId) (f : Seq → Seq) : (s.modSeq q f).catchUp = s.catchUp := rfl
@[simp] theorem modSeq_pitch (s : State) (q : SeqId) (f : Seq → Seq) : (s.modSeq q f).pitch = s.pitch := rfl
@[simp] theorem modSeq_epoch (s : State) (q : SeqId) (f : Seq → Seq) : (s.modSeq q f).epoch = s.epoch := rfl
@[simp] theorem modSeq_limit (s : State) (q : SeqId) (f : Seq → Seq) : (s.modSeq q f).limit = s.limit := rfl
@[simp] theorem modSeq_forecasts (s : State) (q : SeqId) (f : Seq → Seq) : (s.modSeq q f).forecasts = s.forecasts := rfl
@[simp] theorem modSeq_emerg (s : State) (q : SeqId) (f : Seq → Seq) : (s.modSeq q f).emerg = s.emerg := rfl
@[simp] theorem modSeq_group (s : State) (q : SeqId) (f : Seq → Seq) : (s.modSeq q f).group = s.group := rfl
@[simp] theorem modSeq_stage (s : State) (q : SeqId) (f : Seq → Seq) : (s.modSeq q f).stage = s.stage := rfl
@[simp] theorem modSeq_err (s : State) (q : SeqId) (f : Seq → Seq) : (s.modSeq q f).err = s.err := rfl
@[simp] theorem modSeq_errV (s : State) (q : SeqId) (f : Seq → Seq) : (s.modSeq q f).errV = s.errV := rfl
@[simp] theorem modSeq_ready (s : State) (q : SeqId) (f : Seq → Seq) : (s.modSeq q f).ready = s.ready := rfl
@[simp] theorem modSeq_alarm (s : State) (q : SeqId) (f : Seq → Seq) : (s.modSeq q f).alarm = s.alarm := rfl
@[simp] theorem modSeq_alarmAt (s : State) (q : SeqId) (f : Seq → Seq) : (s.modSeq q f).alarmAt = s.alarmAt := rfl
@[simp] theorem modSeq_outOfRange (s : State) (q : SeqId) (f : Seq → Seq) : (s.modSeq q f).outOfRange = s.outOfRange := rfl
@[simp] theorem modSeq_keys (s : State) (q : SeqId) (f : Seq → Seq) : (s.modSeq q f).keys = s.keys := rfl
@[simp] theorem modSeq_eraseMask (s : State) (q : SeqId) (f : Seq → Seq) : (s.modSeq q f).eraseMask = s.eraseMask := rfl
@[simp] theorem modSeq_erased (s : State) (q : SeqId) (f : Seq → Seq) : (s.modSeq q f).erased = s.erased := rfl
@[simp] theorem modSeq_keyBlobs (s : State) (q : SeqId) (f : Seq → Seq) : (s.modSeq q f).keyBlobs = s.keyBlobs := rfl
@[simp] theorem modSeq_minVersion (s : State) (q : SeqId) (f : Seq → Seq) : (s.modSeq q f).minVersion = s.minVersion := rfl
@[simp] theorem modSeq_cxl (s : State) (q : SeqId) (f : Seq → Seq) : (s.modSeq q f).cxl = s.cxl := rfl
@[simp] theorem modSeq_trayCap (s : State) (q : SeqId) (f : Seq → Seq) : (s.modSeq q f).trayCap = s.trayCap := rfl
@[simp] theorem modSeq_repair (s : State) (q : SeqId) (f : Seq → Seq) : (s.modSeq q f).repair = s.repair := rfl
@[simp] theorem modSeq_spdm (s : State) (q : SeqId) (f : Seq → Seq) : (s.modSeq q f).spdm = s.spdm := rfl
@[simp] theorem modSeq_bar0 (s : State) (q : SeqId) (f : Seq → Seq) : (s.modSeq q f).bar0 = s.bar0 := rfl
@[simp] theorem modSeq_fwCalls (s : State) (q : SeqId) (f : Seq → Seq) : (s.modSeq q f).fwCalls = s.fwCalls := rfl
@[simp] theorem modSeq_roots (s : State) (q : SeqId) (f : Seq → Seq) : (s.modSeq q f).roots = s.roots := rfl
@[simp] theorem modSeq_lost (s : State) (q : SeqId) (f : Seq → Seq) : (s.modSeq q f).lost = s.lost := rfl
@[simp] theorem modSeq_bound (s : State) (q : SeqId) (f : Seq → Seq) : (s.modSeq q f).bound = s.bound := rfl
@[simp] theorem modSeq_cacheOn (s : State) (q : SeqId) (f : Seq → Seq) : (s.modSeq q f).cacheOn = s.cacheOn := rfl
@[simp] theorem modSeq_hostDown (s : State) (q : SeqId) (f : Seq → Seq) : (s.modSeq q f).hostDown = s.hostDown := rfl
@[simp] theorem modSeq_regionGuards (s : State) (q : SeqId) (f : Seq → Seq) : (s.modSeq q f).regionGuards = s.regionGuards := rfl
@[simp] theorem modSeq_guardRecs (s : State) (q : SeqId) (f : Seq → Seq) : (s.modSeq q f).guardRecs = s.guardRecs := rfl
@[simp] theorem modSeq_dieVersion (s : State) (q : SeqId) (f : Seq → Seq) : (s.modSeq q f).dieVersion = s.dieVersion := rfl
@[simp] theorem modSeq_dieImages (s : State) (q : SeqId) (f : Seq → Seq) : (s.modSeq q f).dieImages = s.dieImages := rfl
@[simp] theorem modSeq_retired (s : State) (q : SeqId) (f : Seq → Seq) : (s.modSeq q f).retired = s.retired := rfl
@[simp] theorem modSeq_poisoned (s : State) (q : SeqId) (f : Seq → Seq) : (s.modSeq q f).poisoned = s.poisoned := rfl
@[simp] theorem modSeq_badDev (s : State) (q : SeqId) (f : Seq → Seq) : (s.modSeq q f).badDev = s.badDev := rfl
@[simp] theorem modSeq_badSpad (s : State) (q : SeqId) (f : Seq → Seq) : (s.modSeq q f).badSpad = s.badSpad := rfl
@[simp] theorem modSeq_badHost (s : State) (q : SeqId) (f : Seq → Seq) : (s.modSeq q f).badHost = s.badHost := rfl
@[simp] theorem modSeq_retrain (s : State) (q : SeqId) (f : Seq → Seq) : (s.modSeq q f).retrain = s.retrain := rfl
@[simp] theorem modSeq_active (s : State) (q : SeqId) (f : Seq → Seq) : (s.modSeq q f).active = s.active := rfl
@[simp] theorem modSeq_spad (s : State) (q : SeqId) (f : Seq → Seq) : (s.modSeq q f).spad = s.spad := rfl
@[simp] theorem modSeq_spadSeed (s : State) (q : SeqId) (f : Seq → Seq) : (s.modSeq q f).spadSeed = s.spadSeed := rfl
@[simp] theorem modSeq_dev (s : State) (q : SeqId) (f : Seq → Seq) : (s.modSeq q f).dev = s.dev := rfl
@[simp] theorem modSeq_devKeys (s : State) (q : SeqId) (f : Seq → Seq) : (s.modSeq q f).devKeys = s.devKeys := rfl
@[simp] theorem modSeq_host (s : State) (q : SeqId) (f : Seq → Seq) : (s.modSeq q f).host = s.host := rfl
@[simp] theorem modSeq_code (s : State) (q : SeqId) (f : Seq → Seq) : (s.modSeq q f).code = s.code := rfl
@[simp] theorem modSeq_codeSh (s : State) (q : SeqId) (f : Seq → Seq) : (s.modSeq q f).codeSh = s.codeSh := rfl
@[simp] theorem modSeq_queues (s : State) (q : SeqId) (f : Seq → Seq) : (s.modSeq q f).queues = s.queues := rfl
@[simp] theorem modSeq_parts (s : State) (q : SeqId) (f : Seq → Seq) : (s.modSeq q f).parts = s.parts := rfl
@[simp] theorem modSeq_fabric (s : State) (q : SeqId) (f : Seq → Seq) : (s.modSeq q f).fabric = s.fabric := rfl
@[simp] theorem modSeq_detour (s : State) (q : SeqId) (f : Seq → Seq) : (s.modSeq q f).detour = s.detour := rfl
@[simp] theorem modSeq_window (s : State) (q : SeqId) (f : Seq → Seq) : (s.modSeq q f).window = s.window := rfl
@[simp] theorem modSeq_images (s : State) (q : SeqId) (f : Seq → Seq) : (s.modSeq q f).images = s.images := rfl
@[simp] theorem modSeq_nodes (s : State) (q : SeqId) (f : Seq → Seq) : (s.modSeq q f).nodes = s.nodes := rfl
@[simp] theorem modSeq_rr (s : State) (q : SeqId) (f : Seq → Seq) : (s.modSeq q f).rr = s.rr := rfl
@[simp] theorem modSeq_musterUs (s : State) (q : SeqId) (f : Seq → Seq) : (s.modSeq q f).musterUs = s.musterUs := rfl
@[simp] theorem modSeq_musterNext (s : State) (q : SeqId) (f : Seq → Seq) : (s.modSeq q f).musterNext = s.musterNext := rfl
@[simp] theorem modSeq_shepNext (s : State) (q : SeqId) (f : Seq → Seq) : (s.modSeq q f).shepNext = s.shepNext := rfl
@[simp] theorem modSeq_ports (s : State) (q : SeqId) (f : Seq → Seq) : (s.modSeq q f).ports = s.ports := rfl
@[simp] theorem modSeq_transit (s : State) (q : SeqId) (f : Seq → Seq) : (s.modSeq q f).transit = s.transit := rfl
@[simp] theorem modSeq_phase (s : State) (q : SeqId) (f : Seq → Seq) : (s.modSeq q f).phase = s.phase := rfl
@[simp] theorem modSeq_turn (s : State) (q : SeqId) (f : Seq → Seq) : (s.modSeq q f).turn = s.turn := rfl
@[simp] theorem modSeq_cur (s : State) (q : SeqId) (f : Seq → Seq) : (s.modSeq q f).cur = s.cur := rfl
@[simp] theorem modSeq_evIss (s : State) (q : SeqId) (f : Seq → Seq) : (s.modSeq q f).evIss = s.evIss := rfl
@[simp] theorem modSeq_agenda (s : State) (q : SeqId) (f : Seq → Seq) : (s.modSeq q f).agenda = s.agenda := rfl
@[simp] theorem modSeq_effs (s : State) (q : SeqId) (f : Seq → Seq) : (s.modSeq q f).effs = s.effs := rfl
@[simp] theorem modSeq_causes (s : State) (q : SeqId) (f : Seq → Seq) : (s.modSeq q f).causes = s.causes := rfl
@[simp] theorem modSeq_before (s : State) (q : SeqId) (f : Seq → Seq) : (s.modSeq q f).before = s.before := rfl
@[simp] theorem modSeq_outbox (s : State) (q : SeqId) (f : Seq → Seq) : (s.modSeq q f).outbox = s.outbox := rfl
@[simp] theorem modSeq_serial (s : State) (q : SeqId) (f : Seq → Seq) : (s.modSeq q f).serial = s.serial := rfl
@[simp] theorem modSeq_free (s : State) (q : SeqId) (f : Seq → Seq) : (s.modSeq q f).free = s.free := rfl

@[simp] theorem setMe_cyc (s : State) (v : Seq) : (s.setMe v).cyc = s.cyc := rfl
@[simp] theorem setMe_drone (s : State) (v : Seq) : (s.setMe v).drone = s.drone := rfl
@[simp] theorem setMe_droneRem (s : State) (v : Seq) : (s.setMe v).droneRem = s.droneRem := rfl
@[simp] theorem setMe_slew (s : State) (v : Seq) : (s.setMe v).slew = s.slew := rfl
@[simp] theorem setMe_served (s : State) (v : Seq) : (s.setMe v).served = s.served := rfl
@[simp] theorem setMe_n65 (s : State) (v : Seq) : (s.setMe v).n65 = s.n65 := rfl
@[simp] theorem setMe_droop (s : State) (v : Seq) : (s.setMe v).droop = s.droop := rfl
@[simp] theorem setMe_catchUp (s : State) (v : Seq) : (s.setMe v).catchUp = s.catchUp := rfl
@[simp] theorem setMe_pitch (s : State) (v : Seq) : (s.setMe v).pitch = s.pitch := rfl
@[simp] theorem setMe_epoch (s : State) (v : Seq) : (s.setMe v).epoch = s.epoch := rfl
@[simp] theorem setMe_limit (s : State) (v : Seq) : (s.setMe v).limit = s.limit := rfl
@[simp] theorem setMe_forecasts (s : State) (v : Seq) : (s.setMe v).forecasts = s.forecasts := rfl
@[simp] theorem setMe_emerg (s : State) (v : Seq) : (s.setMe v).emerg = s.emerg := rfl
@[simp] theorem setMe_group (s : State) (v : Seq) : (s.setMe v).group = s.group := rfl
@[simp] theorem setMe_stage (s : State) (v : Seq) : (s.setMe v).stage = s.stage := rfl
@[simp] theorem setMe_err (s : State) (v : Seq) : (s.setMe v).err = s.err := rfl
@[simp] theorem setMe_errV (s : State) (v : Seq) : (s.setMe v).errV = s.errV := rfl
@[simp] theorem setMe_ready (s : State) (v : Seq) : (s.setMe v).ready = s.ready := rfl
@[simp] theorem setMe_alarm (s : State) (v : Seq) : (s.setMe v).alarm = s.alarm := rfl
@[simp] theorem setMe_alarmAt (s : State) (v : Seq) : (s.setMe v).alarmAt = s.alarmAt := rfl
@[simp] theorem setMe_outOfRange (s : State) (v : Seq) : (s.setMe v).outOfRange = s.outOfRange := rfl
@[simp] theorem setMe_keys (s : State) (v : Seq) : (s.setMe v).keys = s.keys := rfl
@[simp] theorem setMe_eraseMask (s : State) (v : Seq) : (s.setMe v).eraseMask = s.eraseMask := rfl
@[simp] theorem setMe_erased (s : State) (v : Seq) : (s.setMe v).erased = s.erased := rfl
@[simp] theorem setMe_keyBlobs (s : State) (v : Seq) : (s.setMe v).keyBlobs = s.keyBlobs := rfl
@[simp] theorem setMe_minVersion (s : State) (v : Seq) : (s.setMe v).minVersion = s.minVersion := rfl
@[simp] theorem setMe_cxl (s : State) (v : Seq) : (s.setMe v).cxl = s.cxl := rfl
@[simp] theorem setMe_trayCap (s : State) (v : Seq) : (s.setMe v).trayCap = s.trayCap := rfl
@[simp] theorem setMe_repair (s : State) (v : Seq) : (s.setMe v).repair = s.repair := rfl
@[simp] theorem setMe_spdm (s : State) (v : Seq) : (s.setMe v).spdm = s.spdm := rfl
@[simp] theorem setMe_bar0 (s : State) (v : Seq) : (s.setMe v).bar0 = s.bar0 := rfl
@[simp] theorem setMe_fwCalls (s : State) (v : Seq) : (s.setMe v).fwCalls = s.fwCalls := rfl
@[simp] theorem setMe_roots (s : State) (v : Seq) : (s.setMe v).roots = s.roots := rfl
@[simp] theorem setMe_lost (s : State) (v : Seq) : (s.setMe v).lost = s.lost := rfl
@[simp] theorem setMe_bound (s : State) (v : Seq) : (s.setMe v).bound = s.bound := rfl
@[simp] theorem setMe_cacheOn (s : State) (v : Seq) : (s.setMe v).cacheOn = s.cacheOn := rfl
@[simp] theorem setMe_hostDown (s : State) (v : Seq) : (s.setMe v).hostDown = s.hostDown := rfl
@[simp] theorem setMe_regionGuards (s : State) (v : Seq) : (s.setMe v).regionGuards = s.regionGuards := rfl
@[simp] theorem setMe_guardRecs (s : State) (v : Seq) : (s.setMe v).guardRecs = s.guardRecs := rfl
@[simp] theorem setMe_dieVersion (s : State) (v : Seq) : (s.setMe v).dieVersion = s.dieVersion := rfl
@[simp] theorem setMe_dieImages (s : State) (v : Seq) : (s.setMe v).dieImages = s.dieImages := rfl
@[simp] theorem setMe_retired (s : State) (v : Seq) : (s.setMe v).retired = s.retired := rfl
@[simp] theorem setMe_poisoned (s : State) (v : Seq) : (s.setMe v).poisoned = s.poisoned := rfl
@[simp] theorem setMe_badDev (s : State) (v : Seq) : (s.setMe v).badDev = s.badDev := rfl
@[simp] theorem setMe_badSpad (s : State) (v : Seq) : (s.setMe v).badSpad = s.badSpad := rfl
@[simp] theorem setMe_badHost (s : State) (v : Seq) : (s.setMe v).badHost = s.badHost := rfl
@[simp] theorem setMe_retrain (s : State) (v : Seq) : (s.setMe v).retrain = s.retrain := rfl
@[simp] theorem setMe_active (s : State) (v : Seq) : (s.setMe v).active = s.active := rfl
@[simp] theorem setMe_spad (s : State) (v : Seq) : (s.setMe v).spad = s.spad := rfl
@[simp] theorem setMe_spadSeed (s : State) (v : Seq) : (s.setMe v).spadSeed = s.spadSeed := rfl
@[simp] theorem setMe_dev (s : State) (v : Seq) : (s.setMe v).dev = s.dev := rfl
@[simp] theorem setMe_devKeys (s : State) (v : Seq) : (s.setMe v).devKeys = s.devKeys := rfl
@[simp] theorem setMe_host (s : State) (v : Seq) : (s.setMe v).host = s.host := rfl
@[simp] theorem setMe_code (s : State) (v : Seq) : (s.setMe v).code = s.code := rfl
@[simp] theorem setMe_codeSh (s : State) (v : Seq) : (s.setMe v).codeSh = s.codeSh := rfl
@[simp] theorem setMe_queues (s : State) (v : Seq) : (s.setMe v).queues = s.queues := rfl
@[simp] theorem setMe_parts (s : State) (v : Seq) : (s.setMe v).parts = s.parts := rfl
@[simp] theorem setMe_fabric (s : State) (v : Seq) : (s.setMe v).fabric = s.fabric := rfl
@[simp] theorem setMe_detour (s : State) (v : Seq) : (s.setMe v).detour = s.detour := rfl
@[simp] theorem setMe_window (s : State) (v : Seq) : (s.setMe v).window = s.window := rfl
@[simp] theorem setMe_images (s : State) (v : Seq) : (s.setMe v).images = s.images := rfl
@[simp] theorem setMe_nodes (s : State) (v : Seq) : (s.setMe v).nodes = s.nodes := rfl
@[simp] theorem setMe_rr (s : State) (v : Seq) : (s.setMe v).rr = s.rr := rfl
@[simp] theorem setMe_musterUs (s : State) (v : Seq) : (s.setMe v).musterUs = s.musterUs := rfl
@[simp] theorem setMe_musterNext (s : State) (v : Seq) : (s.setMe v).musterNext = s.musterNext := rfl
@[simp] theorem setMe_shepNext (s : State) (v : Seq) : (s.setMe v).shepNext = s.shepNext := rfl
@[simp] theorem setMe_ports (s : State) (v : Seq) : (s.setMe v).ports = s.ports := rfl
@[simp] theorem setMe_transit (s : State) (v : Seq) : (s.setMe v).transit = s.transit := rfl
@[simp] theorem setMe_phase (s : State) (v : Seq) : (s.setMe v).phase = s.phase := rfl
@[simp] theorem setMe_turn (s : State) (v : Seq) : (s.setMe v).turn = s.turn := rfl
@[simp] theorem setMe_cur (s : State) (v : Seq) : (s.setMe v).cur = s.cur := rfl
@[simp] theorem setMe_evIss (s : State) (v : Seq) : (s.setMe v).evIss = s.evIss := rfl
@[simp] theorem setMe_agenda (s : State) (v : Seq) : (s.setMe v).agenda = s.agenda := rfl
@[simp] theorem setMe_effs (s : State) (v : Seq) : (s.setMe v).effs = s.effs := rfl
@[simp] theorem setMe_causes (s : State) (v : Seq) : (s.setMe v).causes = s.causes := rfl
@[simp] theorem setMe_before (s : State) (v : Seq) : (s.setMe v).before = s.before := rfl
@[simp] theorem setMe_outbox (s : State) (v : Seq) : (s.setMe v).outbox = s.outbox := rfl
@[simp] theorem setMe_serial (s : State) (v : Seq) : (s.setMe v).serial = s.serial := rfl
@[simp] theorem setMe_free (s : State) (v : Seq) : (s.setMe v).free = s.free := rfl

@[simp] theorem modHere_cyc (s : State) (f : Core → Core) : (s.modHere f).cyc = s.cyc := rfl
@[simp] theorem modHere_drone (s : State) (f : Core → Core) : (s.modHere f).drone = s.drone := rfl
@[simp] theorem modHere_droneRem (s : State) (f : Core → Core) : (s.modHere f).droneRem = s.droneRem := rfl
@[simp] theorem modHere_slew (s : State) (f : Core → Core) : (s.modHere f).slew = s.slew := rfl
@[simp] theorem modHere_served (s : State) (f : Core → Core) : (s.modHere f).served = s.served := rfl
@[simp] theorem modHere_n65 (s : State) (f : Core → Core) : (s.modHere f).n65 = s.n65 := rfl
@[simp] theorem modHere_droop (s : State) (f : Core → Core) : (s.modHere f).droop = s.droop := rfl
@[simp] theorem modHere_catchUp (s : State) (f : Core → Core) : (s.modHere f).catchUp = s.catchUp := rfl
@[simp] theorem modHere_pitch (s : State) (f : Core → Core) : (s.modHere f).pitch = s.pitch := rfl
@[simp] theorem modHere_epoch (s : State) (f : Core → Core) : (s.modHere f).epoch = s.epoch := rfl
@[simp] theorem modHere_limit (s : State) (f : Core → Core) : (s.modHere f).limit = s.limit := rfl
@[simp] theorem modHere_forecasts (s : State) (f : Core → Core) : (s.modHere f).forecasts = s.forecasts := rfl
@[simp] theorem modHere_emerg (s : State) (f : Core → Core) : (s.modHere f).emerg = s.emerg := rfl
@[simp] theorem modHere_group (s : State) (f : Core → Core) : (s.modHere f).group = s.group := rfl
@[simp] theorem modHere_stage (s : State) (f : Core → Core) : (s.modHere f).stage = s.stage := rfl
@[simp] theorem modHere_err (s : State) (f : Core → Core) : (s.modHere f).err = s.err := rfl
@[simp] theorem modHere_errV (s : State) (f : Core → Core) : (s.modHere f).errV = s.errV := rfl
@[simp] theorem modHere_ready (s : State) (f : Core → Core) : (s.modHere f).ready = s.ready := rfl
@[simp] theorem modHere_alarm (s : State) (f : Core → Core) : (s.modHere f).alarm = s.alarm := rfl
@[simp] theorem modHere_alarmAt (s : State) (f : Core → Core) : (s.modHere f).alarmAt = s.alarmAt := rfl
@[simp] theorem modHere_outOfRange (s : State) (f : Core → Core) : (s.modHere f).outOfRange = s.outOfRange := rfl
@[simp] theorem modHere_keys (s : State) (f : Core → Core) : (s.modHere f).keys = s.keys := rfl
@[simp] theorem modHere_eraseMask (s : State) (f : Core → Core) : (s.modHere f).eraseMask = s.eraseMask := rfl
@[simp] theorem modHere_erased (s : State) (f : Core → Core) : (s.modHere f).erased = s.erased := rfl
@[simp] theorem modHere_keyBlobs (s : State) (f : Core → Core) : (s.modHere f).keyBlobs = s.keyBlobs := rfl
@[simp] theorem modHere_minVersion (s : State) (f : Core → Core) : (s.modHere f).minVersion = s.minVersion := rfl
@[simp] theorem modHere_cxl (s : State) (f : Core → Core) : (s.modHere f).cxl = s.cxl := rfl
@[simp] theorem modHere_trayCap (s : State) (f : Core → Core) : (s.modHere f).trayCap = s.trayCap := rfl
@[simp] theorem modHere_repair (s : State) (f : Core → Core) : (s.modHere f).repair = s.repair := rfl
@[simp] theorem modHere_spdm (s : State) (f : Core → Core) : (s.modHere f).spdm = s.spdm := rfl
@[simp] theorem modHere_bar0 (s : State) (f : Core → Core) : (s.modHere f).bar0 = s.bar0 := rfl
@[simp] theorem modHere_fwCalls (s : State) (f : Core → Core) : (s.modHere f).fwCalls = s.fwCalls := rfl
@[simp] theorem modHere_roots (s : State) (f : Core → Core) : (s.modHere f).roots = s.roots := rfl
@[simp] theorem modHere_lost (s : State) (f : Core → Core) : (s.modHere f).lost = s.lost := rfl
@[simp] theorem modHere_bound (s : State) (f : Core → Core) : (s.modHere f).bound = s.bound := rfl
@[simp] theorem modHere_cacheOn (s : State) (f : Core → Core) : (s.modHere f).cacheOn = s.cacheOn := rfl
@[simp] theorem modHere_hostDown (s : State) (f : Core → Core) : (s.modHere f).hostDown = s.hostDown := rfl
@[simp] theorem modHere_regionGuards (s : State) (f : Core → Core) : (s.modHere f).regionGuards = s.regionGuards := rfl
@[simp] theorem modHere_guardRecs (s : State) (f : Core → Core) : (s.modHere f).guardRecs = s.guardRecs := rfl
@[simp] theorem modHere_dieVersion (s : State) (f : Core → Core) : (s.modHere f).dieVersion = s.dieVersion := rfl
@[simp] theorem modHere_dieImages (s : State) (f : Core → Core) : (s.modHere f).dieImages = s.dieImages := rfl
@[simp] theorem modHere_retired (s : State) (f : Core → Core) : (s.modHere f).retired = s.retired := rfl
@[simp] theorem modHere_poisoned (s : State) (f : Core → Core) : (s.modHere f).poisoned = s.poisoned := rfl
@[simp] theorem modHere_badDev (s : State) (f : Core → Core) : (s.modHere f).badDev = s.badDev := rfl
@[simp] theorem modHere_badSpad (s : State) (f : Core → Core) : (s.modHere f).badSpad = s.badSpad := rfl
@[simp] theorem modHere_badHost (s : State) (f : Core → Core) : (s.modHere f).badHost = s.badHost := rfl
@[simp] theorem modHere_retrain (s : State) (f : Core → Core) : (s.modHere f).retrain = s.retrain := rfl
@[simp] theorem modHere_active (s : State) (f : Core → Core) : (s.modHere f).active = s.active := rfl
@[simp] theorem modHere_spad (s : State) (f : Core → Core) : (s.modHere f).spad = s.spad := rfl
@[simp] theorem modHere_spadSeed (s : State) (f : Core → Core) : (s.modHere f).spadSeed = s.spadSeed := rfl
@[simp] theorem modHere_dev (s : State) (f : Core → Core) : (s.modHere f).dev = s.dev := rfl
@[simp] theorem modHere_devKeys (s : State) (f : Core → Core) : (s.modHere f).devKeys = s.devKeys := rfl
@[simp] theorem modHere_host (s : State) (f : Core → Core) : (s.modHere f).host = s.host := rfl
@[simp] theorem modHere_code (s : State) (f : Core → Core) : (s.modHere f).code = s.code := rfl
@[simp] theorem modHere_codeSh (s : State) (f : Core → Core) : (s.modHere f).codeSh = s.codeSh := rfl
@[simp] theorem modHere_queues (s : State) (f : Core → Core) : (s.modHere f).queues = s.queues := rfl
@[simp] theorem modHere_parts (s : State) (f : Core → Core) : (s.modHere f).parts = s.parts := rfl
@[simp] theorem modHere_fabric (s : State) (f : Core → Core) : (s.modHere f).fabric = s.fabric := rfl
@[simp] theorem modHere_detour (s : State) (f : Core → Core) : (s.modHere f).detour = s.detour := rfl
@[simp] theorem modHere_window (s : State) (f : Core → Core) : (s.modHere f).window = s.window := rfl
@[simp] theorem modHere_images (s : State) (f : Core → Core) : (s.modHere f).images = s.images := rfl
@[simp] theorem modHere_nodes (s : State) (f : Core → Core) : (s.modHere f).nodes = s.nodes := rfl
@[simp] theorem modHere_rr (s : State) (f : Core → Core) : (s.modHere f).rr = s.rr := rfl
@[simp] theorem modHere_musterUs (s : State) (f : Core → Core) : (s.modHere f).musterUs = s.musterUs := rfl
@[simp] theorem modHere_musterNext (s : State) (f : Core → Core) : (s.modHere f).musterNext = s.musterNext := rfl
@[simp] theorem modHere_shepNext (s : State) (f : Core → Core) : (s.modHere f).shepNext = s.shepNext := rfl
@[simp] theorem modHere_ports (s : State) (f : Core → Core) : (s.modHere f).ports = s.ports := rfl
@[simp] theorem modHere_transit (s : State) (f : Core → Core) : (s.modHere f).transit = s.transit := rfl
@[simp] theorem modHere_phase (s : State) (f : Core → Core) : (s.modHere f).phase = s.phase := rfl
@[simp] theorem modHere_turn (s : State) (f : Core → Core) : (s.modHere f).turn = s.turn := rfl
@[simp] theorem modHere_cur (s : State) (f : Core → Core) : (s.modHere f).cur = s.cur := rfl
@[simp] theorem modHere_evIss (s : State) (f : Core → Core) : (s.modHere f).evIss = s.evIss := rfl
@[simp] theorem modHere_agenda (s : State) (f : Core → Core) : (s.modHere f).agenda = s.agenda := rfl
@[simp] theorem modHere_effs (s : State) (f : Core → Core) : (s.modHere f).effs = s.effs := rfl
@[simp] theorem modHere_causes (s : State) (f : Core → Core) : (s.modHere f).causes = s.causes := rfl
@[simp] theorem modHere_before (s : State) (f : Core → Core) : (s.modHere f).before = s.before := rfl
@[simp] theorem modHere_outbox (s : State) (f : Core → Core) : (s.modHere f).outbox = s.outbox := rfl
@[simp] theorem modHere_serial (s : State) (f : Core → Core) : (s.modHere f).serial = s.serial := rfl
@[simp] theorem modHere_free (s : State) (f : Core → Core) : (s.modHere f).free = s.free := rfl

@[simp] theorem modNode_cyc (s : State) (nd : Nat) (f : Node → Node) : (s.modNode nd f).cyc = s.cyc := rfl
@[simp] theorem modNode_drone (s : State) (nd : Nat) (f : Node → Node) : (s.modNode nd f).drone = s.drone := rfl
@[simp] theorem modNode_droneRem (s : State) (nd : Nat) (f : Node → Node) : (s.modNode nd f).droneRem = s.droneRem := rfl
@[simp] theorem modNode_slew (s : State) (nd : Nat) (f : Node → Node) : (s.modNode nd f).slew = s.slew := rfl
@[simp] theorem modNode_served (s : State) (nd : Nat) (f : Node → Node) : (s.modNode nd f).served = s.served := rfl
@[simp] theorem modNode_n65 (s : State) (nd : Nat) (f : Node → Node) : (s.modNode nd f).n65 = s.n65 := rfl
@[simp] theorem modNode_droop (s : State) (nd : Nat) (f : Node → Node) : (s.modNode nd f).droop = s.droop := rfl
@[simp] theorem modNode_catchUp (s : State) (nd : Nat) (f : Node → Node) : (s.modNode nd f).catchUp = s.catchUp := rfl
@[simp] theorem modNode_pitch (s : State) (nd : Nat) (f : Node → Node) : (s.modNode nd f).pitch = s.pitch := rfl
@[simp] theorem modNode_epoch (s : State) (nd : Nat) (f : Node → Node) : (s.modNode nd f).epoch = s.epoch := rfl
@[simp] theorem modNode_limit (s : State) (nd : Nat) (f : Node → Node) : (s.modNode nd f).limit = s.limit := rfl
@[simp] theorem modNode_forecasts (s : State) (nd : Nat) (f : Node → Node) : (s.modNode nd f).forecasts = s.forecasts := rfl
@[simp] theorem modNode_emerg (s : State) (nd : Nat) (f : Node → Node) : (s.modNode nd f).emerg = s.emerg := rfl
@[simp] theorem modNode_group (s : State) (nd : Nat) (f : Node → Node) : (s.modNode nd f).group = s.group := rfl
@[simp] theorem modNode_stage (s : State) (nd : Nat) (f : Node → Node) : (s.modNode nd f).stage = s.stage := rfl
@[simp] theorem modNode_err (s : State) (nd : Nat) (f : Node → Node) : (s.modNode nd f).err = s.err := rfl
@[simp] theorem modNode_errV (s : State) (nd : Nat) (f : Node → Node) : (s.modNode nd f).errV = s.errV := rfl
@[simp] theorem modNode_ready (s : State) (nd : Nat) (f : Node → Node) : (s.modNode nd f).ready = s.ready := rfl
@[simp] theorem modNode_alarm (s : State) (nd : Nat) (f : Node → Node) : (s.modNode nd f).alarm = s.alarm := rfl
@[simp] theorem modNode_alarmAt (s : State) (nd : Nat) (f : Node → Node) : (s.modNode nd f).alarmAt = s.alarmAt := rfl
@[simp] theorem modNode_outOfRange (s : State) (nd : Nat) (f : Node → Node) : (s.modNode nd f).outOfRange = s.outOfRange := rfl
@[simp] theorem modNode_keys (s : State) (nd : Nat) (f : Node → Node) : (s.modNode nd f).keys = s.keys := rfl
@[simp] theorem modNode_eraseMask (s : State) (nd : Nat) (f : Node → Node) : (s.modNode nd f).eraseMask = s.eraseMask := rfl
@[simp] theorem modNode_erased (s : State) (nd : Nat) (f : Node → Node) : (s.modNode nd f).erased = s.erased := rfl
@[simp] theorem modNode_keyBlobs (s : State) (nd : Nat) (f : Node → Node) : (s.modNode nd f).keyBlobs = s.keyBlobs := rfl
@[simp] theorem modNode_minVersion (s : State) (nd : Nat) (f : Node → Node) : (s.modNode nd f).minVersion = s.minVersion := rfl
@[simp] theorem modNode_cxl (s : State) (nd : Nat) (f : Node → Node) : (s.modNode nd f).cxl = s.cxl := rfl
@[simp] theorem modNode_trayCap (s : State) (nd : Nat) (f : Node → Node) : (s.modNode nd f).trayCap = s.trayCap := rfl
@[simp] theorem modNode_repair (s : State) (nd : Nat) (f : Node → Node) : (s.modNode nd f).repair = s.repair := rfl
@[simp] theorem modNode_spdm (s : State) (nd : Nat) (f : Node → Node) : (s.modNode nd f).spdm = s.spdm := rfl
@[simp] theorem modNode_bar0 (s : State) (nd : Nat) (f : Node → Node) : (s.modNode nd f).bar0 = s.bar0 := rfl
@[simp] theorem modNode_fwCalls (s : State) (nd : Nat) (f : Node → Node) : (s.modNode nd f).fwCalls = s.fwCalls := rfl
@[simp] theorem modNode_roots (s : State) (nd : Nat) (f : Node → Node) : (s.modNode nd f).roots = s.roots := rfl
@[simp] theorem modNode_lost (s : State) (nd : Nat) (f : Node → Node) : (s.modNode nd f).lost = s.lost := rfl
@[simp] theorem modNode_bound (s : State) (nd : Nat) (f : Node → Node) : (s.modNode nd f).bound = s.bound := rfl
@[simp] theorem modNode_cacheOn (s : State) (nd : Nat) (f : Node → Node) : (s.modNode nd f).cacheOn = s.cacheOn := rfl
@[simp] theorem modNode_hostDown (s : State) (nd : Nat) (f : Node → Node) : (s.modNode nd f).hostDown = s.hostDown := rfl
@[simp] theorem modNode_regionGuards (s : State) (nd : Nat) (f : Node → Node) : (s.modNode nd f).regionGuards = s.regionGuards := rfl
@[simp] theorem modNode_guardRecs (s : State) (nd : Nat) (f : Node → Node) : (s.modNode nd f).guardRecs = s.guardRecs := rfl
@[simp] theorem modNode_dieVersion (s : State) (nd : Nat) (f : Node → Node) : (s.modNode nd f).dieVersion = s.dieVersion := rfl
@[simp] theorem modNode_dieImages (s : State) (nd : Nat) (f : Node → Node) : (s.modNode nd f).dieImages = s.dieImages := rfl
@[simp] theorem modNode_retired (s : State) (nd : Nat) (f : Node → Node) : (s.modNode nd f).retired = s.retired := rfl
@[simp] theorem modNode_poisoned (s : State) (nd : Nat) (f : Node → Node) : (s.modNode nd f).poisoned = s.poisoned := rfl
@[simp] theorem modNode_badDev (s : State) (nd : Nat) (f : Node → Node) : (s.modNode nd f).badDev = s.badDev := rfl
@[simp] theorem modNode_badSpad (s : State) (nd : Nat) (f : Node → Node) : (s.modNode nd f).badSpad = s.badSpad := rfl
@[simp] theorem modNode_badHost (s : State) (nd : Nat) (f : Node → Node) : (s.modNode nd f).badHost = s.badHost := rfl
@[simp] theorem modNode_retrain (s : State) (nd : Nat) (f : Node → Node) : (s.modNode nd f).retrain = s.retrain := rfl
@[simp] theorem modNode_cores (s : State) (nd : Nat) (f : Node → Node) : (s.modNode nd f).cores = s.cores := rfl
@[simp] theorem modNode_active (s : State) (nd : Nat) (f : Node → Node) : (s.modNode nd f).active = s.active := rfl
@[simp] theorem modNode_spad (s : State) (nd : Nat) (f : Node → Node) : (s.modNode nd f).spad = s.spad := rfl
@[simp] theorem modNode_spadSeed (s : State) (nd : Nat) (f : Node → Node) : (s.modNode nd f).spadSeed = s.spadSeed := rfl
@[simp] theorem modNode_dev (s : State) (nd : Nat) (f : Node → Node) : (s.modNode nd f).dev = s.dev := rfl
@[simp] theorem modNode_devKeys (s : State) (nd : Nat) (f : Node → Node) : (s.modNode nd f).devKeys = s.devKeys := rfl
@[simp] theorem modNode_host (s : State) (nd : Nat) (f : Node → Node) : (s.modNode nd f).host = s.host := rfl
@[simp] theorem modNode_code (s : State) (nd : Nat) (f : Node → Node) : (s.modNode nd f).code = s.code := rfl
@[simp] theorem modNode_codeSh (s : State) (nd : Nat) (f : Node → Node) : (s.modNode nd f).codeSh = s.codeSh := rfl
@[simp] theorem modNode_queues (s : State) (nd : Nat) (f : Node → Node) : (s.modNode nd f).queues = s.queues := rfl
@[simp] theorem modNode_parts (s : State) (nd : Nat) (f : Node → Node) : (s.modNode nd f).parts = s.parts := rfl
@[simp] theorem modNode_fabric (s : State) (nd : Nat) (f : Node → Node) : (s.modNode nd f).fabric = s.fabric := rfl
@[simp] theorem modNode_detour (s : State) (nd : Nat) (f : Node → Node) : (s.modNode nd f).detour = s.detour := rfl
@[simp] theorem modNode_window (s : State) (nd : Nat) (f : Node → Node) : (s.modNode nd f).window = s.window := rfl
@[simp] theorem modNode_images (s : State) (nd : Nat) (f : Node → Node) : (s.modNode nd f).images = s.images := rfl
@[simp] theorem modNode_rr (s : State) (nd : Nat) (f : Node → Node) : (s.modNode nd f).rr = s.rr := rfl
@[simp] theorem modNode_musterUs (s : State) (nd : Nat) (f : Node → Node) : (s.modNode nd f).musterUs = s.musterUs := rfl
@[simp] theorem modNode_musterNext (s : State) (nd : Nat) (f : Node → Node) : (s.modNode nd f).musterNext = s.musterNext := rfl
@[simp] theorem modNode_shepNext (s : State) (nd : Nat) (f : Node → Node) : (s.modNode nd f).shepNext = s.shepNext := rfl
@[simp] theorem modNode_ports (s : State) (nd : Nat) (f : Node → Node) : (s.modNode nd f).ports = s.ports := rfl
@[simp] theorem modNode_transit (s : State) (nd : Nat) (f : Node → Node) : (s.modNode nd f).transit = s.transit := rfl
@[simp] theorem modNode_phase (s : State) (nd : Nat) (f : Node → Node) : (s.modNode nd f).phase = s.phase := rfl
@[simp] theorem modNode_turn (s : State) (nd : Nat) (f : Node → Node) : (s.modNode nd f).turn = s.turn := rfl
@[simp] theorem modNode_cur (s : State) (nd : Nat) (f : Node → Node) : (s.modNode nd f).cur = s.cur := rfl
@[simp] theorem modNode_evIss (s : State) (nd : Nat) (f : Node → Node) : (s.modNode nd f).evIss = s.evIss := rfl
@[simp] theorem modNode_agenda (s : State) (nd : Nat) (f : Node → Node) : (s.modNode nd f).agenda = s.agenda := rfl
@[simp] theorem modNode_effs (s : State) (nd : Nat) (f : Node → Node) : (s.modNode nd f).effs = s.effs := rfl
@[simp] theorem modNode_causes (s : State) (nd : Nat) (f : Node → Node) : (s.modNode nd f).causes = s.causes := rfl
@[simp] theorem modNode_before (s : State) (nd : Nat) (f : Node → Node) : (s.modNode nd f).before = s.before := rfl
@[simp] theorem modNode_outbox (s : State) (nd : Nat) (f : Node → Node) : (s.modNode nd f).outbox = s.outbox := rfl
@[simp] theorem modNode_serial (s : State) (nd : Nat) (f : Node → Node) : (s.modNode nd f).serial = s.serial := rfl
@[simp] theorem modNode_free (s : State) (nd : Nat) (f : Node → Node) : (s.modNode nd f).free = s.free := rfl

@[simp] theorem setQueue_cyc (s : State) (q : QueueId) (v : Queue) : (s.setQueue q v).cyc = s.cyc := rfl
@[simp] theorem setQueue_drone (s : State) (q : QueueId) (v : Queue) : (s.setQueue q v).drone = s.drone := rfl
@[simp] theorem setQueue_droneRem (s : State) (q : QueueId) (v : Queue) : (s.setQueue q v).droneRem = s.droneRem := rfl
@[simp] theorem setQueue_slew (s : State) (q : QueueId) (v : Queue) : (s.setQueue q v).slew = s.slew := rfl
@[simp] theorem setQueue_served (s : State) (q : QueueId) (v : Queue) : (s.setQueue q v).served = s.served := rfl
@[simp] theorem setQueue_n65 (s : State) (q : QueueId) (v : Queue) : (s.setQueue q v).n65 = s.n65 := rfl
@[simp] theorem setQueue_droop (s : State) (q : QueueId) (v : Queue) : (s.setQueue q v).droop = s.droop := rfl
@[simp] theorem setQueue_catchUp (s : State) (q : QueueId) (v : Queue) : (s.setQueue q v).catchUp = s.catchUp := rfl
@[simp] theorem setQueue_pitch (s : State) (q : QueueId) (v : Queue) : (s.setQueue q v).pitch = s.pitch := rfl
@[simp] theorem setQueue_epoch (s : State) (q : QueueId) (v : Queue) : (s.setQueue q v).epoch = s.epoch := rfl
@[simp] theorem setQueue_limit (s : State) (q : QueueId) (v : Queue) : (s.setQueue q v).limit = s.limit := rfl
@[simp] theorem setQueue_forecasts (s : State) (q : QueueId) (v : Queue) : (s.setQueue q v).forecasts = s.forecasts := rfl
@[simp] theorem setQueue_emerg (s : State) (q : QueueId) (v : Queue) : (s.setQueue q v).emerg = s.emerg := rfl
@[simp] theorem setQueue_group (s : State) (q : QueueId) (v : Queue) : (s.setQueue q v).group = s.group := rfl
@[simp] theorem setQueue_stage (s : State) (q : QueueId) (v : Queue) : (s.setQueue q v).stage = s.stage := rfl
@[simp] theorem setQueue_err (s : State) (q : QueueId) (v : Queue) : (s.setQueue q v).err = s.err := rfl
@[simp] theorem setQueue_errV (s : State) (q : QueueId) (v : Queue) : (s.setQueue q v).errV = s.errV := rfl
@[simp] theorem setQueue_ready (s : State) (q : QueueId) (v : Queue) : (s.setQueue q v).ready = s.ready := rfl
@[simp] theorem setQueue_alarm (s : State) (q : QueueId) (v : Queue) : (s.setQueue q v).alarm = s.alarm := rfl
@[simp] theorem setQueue_alarmAt (s : State) (q : QueueId) (v : Queue) : (s.setQueue q v).alarmAt = s.alarmAt := rfl
@[simp] theorem setQueue_outOfRange (s : State) (q : QueueId) (v : Queue) : (s.setQueue q v).outOfRange = s.outOfRange := rfl
@[simp] theorem setQueue_keys (s : State) (q : QueueId) (v : Queue) : (s.setQueue q v).keys = s.keys := rfl
@[simp] theorem setQueue_eraseMask (s : State) (q : QueueId) (v : Queue) : (s.setQueue q v).eraseMask = s.eraseMask := rfl
@[simp] theorem setQueue_erased (s : State) (q : QueueId) (v : Queue) : (s.setQueue q v).erased = s.erased := rfl
@[simp] theorem setQueue_keyBlobs (s : State) (q : QueueId) (v : Queue) : (s.setQueue q v).keyBlobs = s.keyBlobs := rfl
@[simp] theorem setQueue_minVersion (s : State) (q : QueueId) (v : Queue) : (s.setQueue q v).minVersion = s.minVersion := rfl
@[simp] theorem setQueue_cxl (s : State) (q : QueueId) (v : Queue) : (s.setQueue q v).cxl = s.cxl := rfl
@[simp] theorem setQueue_trayCap (s : State) (q : QueueId) (v : Queue) : (s.setQueue q v).trayCap = s.trayCap := rfl
@[simp] theorem setQueue_repair (s : State) (q : QueueId) (v : Queue) : (s.setQueue q v).repair = s.repair := rfl
@[simp] theorem setQueue_spdm (s : State) (q : QueueId) (v : Queue) : (s.setQueue q v).spdm = s.spdm := rfl
@[simp] theorem setQueue_bar0 (s : State) (q : QueueId) (v : Queue) : (s.setQueue q v).bar0 = s.bar0 := rfl
@[simp] theorem setQueue_fwCalls (s : State) (q : QueueId) (v : Queue) : (s.setQueue q v).fwCalls = s.fwCalls := rfl
@[simp] theorem setQueue_roots (s : State) (q : QueueId) (v : Queue) : (s.setQueue q v).roots = s.roots := rfl
@[simp] theorem setQueue_lost (s : State) (q : QueueId) (v : Queue) : (s.setQueue q v).lost = s.lost := rfl
@[simp] theorem setQueue_bound (s : State) (q : QueueId) (v : Queue) : (s.setQueue q v).bound = s.bound := rfl
@[simp] theorem setQueue_cacheOn (s : State) (q : QueueId) (v : Queue) : (s.setQueue q v).cacheOn = s.cacheOn := rfl
@[simp] theorem setQueue_hostDown (s : State) (q : QueueId) (v : Queue) : (s.setQueue q v).hostDown = s.hostDown := rfl
@[simp] theorem setQueue_regionGuards (s : State) (q : QueueId) (v : Queue) : (s.setQueue q v).regionGuards = s.regionGuards := rfl
@[simp] theorem setQueue_guardRecs (s : State) (q : QueueId) (v : Queue) : (s.setQueue q v).guardRecs = s.guardRecs := rfl
@[simp] theorem setQueue_dieVersion (s : State) (q : QueueId) (v : Queue) : (s.setQueue q v).dieVersion = s.dieVersion := rfl
@[simp] theorem setQueue_dieImages (s : State) (q : QueueId) (v : Queue) : (s.setQueue q v).dieImages = s.dieImages := rfl
@[simp] theorem setQueue_retired (s : State) (q : QueueId) (v : Queue) : (s.setQueue q v).retired = s.retired := rfl
@[simp] theorem setQueue_poisoned (s : State) (q : QueueId) (v : Queue) : (s.setQueue q v).poisoned = s.poisoned := rfl
@[simp] theorem setQueue_badDev (s : State) (q : QueueId) (v : Queue) : (s.setQueue q v).badDev = s.badDev := rfl
@[simp] theorem setQueue_badSpad (s : State) (q : QueueId) (v : Queue) : (s.setQueue q v).badSpad = s.badSpad := rfl
@[simp] theorem setQueue_badHost (s : State) (q : QueueId) (v : Queue) : (s.setQueue q v).badHost = s.badHost := rfl
@[simp] theorem setQueue_retrain (s : State) (q : QueueId) (v : Queue) : (s.setQueue q v).retrain = s.retrain := rfl
@[simp] theorem setQueue_cores (s : State) (q : QueueId) (v : Queue) : (s.setQueue q v).cores = s.cores := rfl
@[simp] theorem setQueue_active (s : State) (q : QueueId) (v : Queue) : (s.setQueue q v).active = s.active := rfl
@[simp] theorem setQueue_spad (s : State) (q : QueueId) (v : Queue) : (s.setQueue q v).spad = s.spad := rfl
@[simp] theorem setQueue_spadSeed (s : State) (q : QueueId) (v : Queue) : (s.setQueue q v).spadSeed = s.spadSeed := rfl
@[simp] theorem setQueue_dev (s : State) (q : QueueId) (v : Queue) : (s.setQueue q v).dev = s.dev := rfl
@[simp] theorem setQueue_devKeys (s : State) (q : QueueId) (v : Queue) : (s.setQueue q v).devKeys = s.devKeys := rfl
@[simp] theorem setQueue_host (s : State) (q : QueueId) (v : Queue) : (s.setQueue q v).host = s.host := rfl
@[simp] theorem setQueue_code (s : State) (q : QueueId) (v : Queue) : (s.setQueue q v).code = s.code := rfl
@[simp] theorem setQueue_codeSh (s : State) (q : QueueId) (v : Queue) : (s.setQueue q v).codeSh = s.codeSh := rfl
@[simp] theorem setQueue_parts (s : State) (q : QueueId) (v : Queue) : (s.setQueue q v).parts = s.parts := rfl
@[simp] theorem setQueue_fabric (s : State) (q : QueueId) (v : Queue) : (s.setQueue q v).fabric = s.fabric := rfl
@[simp] theorem setQueue_detour (s : State) (q : QueueId) (v : Queue) : (s.setQueue q v).detour = s.detour := rfl
@[simp] theorem setQueue_window (s : State) (q : QueueId) (v : Queue) : (s.setQueue q v).window = s.window := rfl
@[simp] theorem setQueue_images (s : State) (q : QueueId) (v : Queue) : (s.setQueue q v).images = s.images := rfl
@[simp] theorem setQueue_nodes (s : State) (q : QueueId) (v : Queue) : (s.setQueue q v).nodes = s.nodes := rfl
@[simp] theorem setQueue_rr (s : State) (q : QueueId) (v : Queue) : (s.setQueue q v).rr = s.rr := rfl
@[simp] theorem setQueue_musterUs (s : State) (q : QueueId) (v : Queue) : (s.setQueue q v).musterUs = s.musterUs := rfl
@[simp] theorem setQueue_musterNext (s : State) (q : QueueId) (v : Queue) : (s.setQueue q v).musterNext = s.musterNext := rfl
@[simp] theorem setQueue_shepNext (s : State) (q : QueueId) (v : Queue) : (s.setQueue q v).shepNext = s.shepNext := rfl
@[simp] theorem setQueue_ports (s : State) (q : QueueId) (v : Queue) : (s.setQueue q v).ports = s.ports := rfl
@[simp] theorem setQueue_transit (s : State) (q : QueueId) (v : Queue) : (s.setQueue q v).transit = s.transit := rfl
@[simp] theorem setQueue_phase (s : State) (q : QueueId) (v : Queue) : (s.setQueue q v).phase = s.phase := rfl
@[simp] theorem setQueue_turn (s : State) (q : QueueId) (v : Queue) : (s.setQueue q v).turn = s.turn := rfl
@[simp] theorem setQueue_cur (s : State) (q : QueueId) (v : Queue) : (s.setQueue q v).cur = s.cur := rfl
@[simp] theorem setQueue_evIss (s : State) (q : QueueId) (v : Queue) : (s.setQueue q v).evIss = s.evIss := rfl
@[simp] theorem setQueue_agenda (s : State) (q : QueueId) (v : Queue) : (s.setQueue q v).agenda = s.agenda := rfl
@[simp] theorem setQueue_effs (s : State) (q : QueueId) (v : Queue) : (s.setQueue q v).effs = s.effs := rfl
@[simp] theorem setQueue_causes (s : State) (q : QueueId) (v : Queue) : (s.setQueue q v).causes = s.causes := rfl
@[simp] theorem setQueue_before (s : State) (q : QueueId) (v : Queue) : (s.setQueue q v).before = s.before := rfl
@[simp] theorem setQueue_outbox (s : State) (q : QueueId) (v : Queue) : (s.setQueue q v).outbox = s.outbox := rfl
@[simp] theorem setQueue_serial (s : State) (q : QueueId) (v : Queue) : (s.setQueue q v).serial = s.serial := rfl
@[simp] theorem setQueue_free (s : State) (q : QueueId) (v : Queue) : (s.setQueue q v).free = s.free := rfl

@[simp] theorem modQueue_cyc (s : State) (q : QueueId) (f : Queue → Queue) : (s.modQueue q f).cyc = s.cyc := rfl
@[simp] theorem modQueue_drone (s : State) (q : QueueId) (f : Queue → Queue) : (s.modQueue q f).drone = s.drone := rfl
@[simp] theorem modQueue_droneRem (s : State) (q : QueueId) (f : Queue → Queue) : (s.modQueue q f).droneRem = s.droneRem := rfl
@[simp] theorem modQueue_slew (s : State) (q : QueueId) (f : Queue → Queue) : (s.modQueue q f).slew = s.slew := rfl
@[simp] theorem modQueue_served (s : State) (q : QueueId) (f : Queue → Queue) : (s.modQueue q f).served = s.served := rfl
@[simp] theorem modQueue_n65 (s : State) (q : QueueId) (f : Queue → Queue) : (s.modQueue q f).n65 = s.n65 := rfl
@[simp] theorem modQueue_droop (s : State) (q : QueueId) (f : Queue → Queue) : (s.modQueue q f).droop = s.droop := rfl
@[simp] theorem modQueue_catchUp (s : State) (q : QueueId) (f : Queue → Queue) : (s.modQueue q f).catchUp = s.catchUp := rfl
@[simp] theorem modQueue_pitch (s : State) (q : QueueId) (f : Queue → Queue) : (s.modQueue q f).pitch = s.pitch := rfl
@[simp] theorem modQueue_epoch (s : State) (q : QueueId) (f : Queue → Queue) : (s.modQueue q f).epoch = s.epoch := rfl
@[simp] theorem modQueue_limit (s : State) (q : QueueId) (f : Queue → Queue) : (s.modQueue q f).limit = s.limit := rfl
@[simp] theorem modQueue_forecasts (s : State) (q : QueueId) (f : Queue → Queue) : (s.modQueue q f).forecasts = s.forecasts := rfl
@[simp] theorem modQueue_emerg (s : State) (q : QueueId) (f : Queue → Queue) : (s.modQueue q f).emerg = s.emerg := rfl
@[simp] theorem modQueue_group (s : State) (q : QueueId) (f : Queue → Queue) : (s.modQueue q f).group = s.group := rfl
@[simp] theorem modQueue_stage (s : State) (q : QueueId) (f : Queue → Queue) : (s.modQueue q f).stage = s.stage := rfl
@[simp] theorem modQueue_err (s : State) (q : QueueId) (f : Queue → Queue) : (s.modQueue q f).err = s.err := rfl
@[simp] theorem modQueue_errV (s : State) (q : QueueId) (f : Queue → Queue) : (s.modQueue q f).errV = s.errV := rfl
@[simp] theorem modQueue_ready (s : State) (q : QueueId) (f : Queue → Queue) : (s.modQueue q f).ready = s.ready := rfl
@[simp] theorem modQueue_alarm (s : State) (q : QueueId) (f : Queue → Queue) : (s.modQueue q f).alarm = s.alarm := rfl
@[simp] theorem modQueue_alarmAt (s : State) (q : QueueId) (f : Queue → Queue) : (s.modQueue q f).alarmAt = s.alarmAt := rfl
@[simp] theorem modQueue_outOfRange (s : State) (q : QueueId) (f : Queue → Queue) : (s.modQueue q f).outOfRange = s.outOfRange := rfl
@[simp] theorem modQueue_keys (s : State) (q : QueueId) (f : Queue → Queue) : (s.modQueue q f).keys = s.keys := rfl
@[simp] theorem modQueue_eraseMask (s : State) (q : QueueId) (f : Queue → Queue) : (s.modQueue q f).eraseMask = s.eraseMask := rfl
@[simp] theorem modQueue_erased (s : State) (q : QueueId) (f : Queue → Queue) : (s.modQueue q f).erased = s.erased := rfl
@[simp] theorem modQueue_keyBlobs (s : State) (q : QueueId) (f : Queue → Queue) : (s.modQueue q f).keyBlobs = s.keyBlobs := rfl
@[simp] theorem modQueue_minVersion (s : State) (q : QueueId) (f : Queue → Queue) : (s.modQueue q f).minVersion = s.minVersion := rfl
@[simp] theorem modQueue_cxl (s : State) (q : QueueId) (f : Queue → Queue) : (s.modQueue q f).cxl = s.cxl := rfl
@[simp] theorem modQueue_trayCap (s : State) (q : QueueId) (f : Queue → Queue) : (s.modQueue q f).trayCap = s.trayCap := rfl
@[simp] theorem modQueue_repair (s : State) (q : QueueId) (f : Queue → Queue) : (s.modQueue q f).repair = s.repair := rfl
@[simp] theorem modQueue_spdm (s : State) (q : QueueId) (f : Queue → Queue) : (s.modQueue q f).spdm = s.spdm := rfl
@[simp] theorem modQueue_bar0 (s : State) (q : QueueId) (f : Queue → Queue) : (s.modQueue q f).bar0 = s.bar0 := rfl
@[simp] theorem modQueue_fwCalls (s : State) (q : QueueId) (f : Queue → Queue) : (s.modQueue q f).fwCalls = s.fwCalls := rfl
@[simp] theorem modQueue_roots (s : State) (q : QueueId) (f : Queue → Queue) : (s.modQueue q f).roots = s.roots := rfl
@[simp] theorem modQueue_lost (s : State) (q : QueueId) (f : Queue → Queue) : (s.modQueue q f).lost = s.lost := rfl
@[simp] theorem modQueue_bound (s : State) (q : QueueId) (f : Queue → Queue) : (s.modQueue q f).bound = s.bound := rfl
@[simp] theorem modQueue_cacheOn (s : State) (q : QueueId) (f : Queue → Queue) : (s.modQueue q f).cacheOn = s.cacheOn := rfl
@[simp] theorem modQueue_hostDown (s : State) (q : QueueId) (f : Queue → Queue) : (s.modQueue q f).hostDown = s.hostDown := rfl
@[simp] theorem modQueue_regionGuards (s : State) (q : QueueId) (f : Queue → Queue) : (s.modQueue q f).regionGuards = s.regionGuards := rfl
@[simp] theorem modQueue_guardRecs (s : State) (q : QueueId) (f : Queue → Queue) : (s.modQueue q f).guardRecs = s.guardRecs := rfl
@[simp] theorem modQueue_dieVersion (s : State) (q : QueueId) (f : Queue → Queue) : (s.modQueue q f).dieVersion = s.dieVersion := rfl
@[simp] theorem modQueue_dieImages (s : State) (q : QueueId) (f : Queue → Queue) : (s.modQueue q f).dieImages = s.dieImages := rfl
@[simp] theorem modQueue_retired (s : State) (q : QueueId) (f : Queue → Queue) : (s.modQueue q f).retired = s.retired := rfl
@[simp] theorem modQueue_poisoned (s : State) (q : QueueId) (f : Queue → Queue) : (s.modQueue q f).poisoned = s.poisoned := rfl
@[simp] theorem modQueue_badDev (s : State) (q : QueueId) (f : Queue → Queue) : (s.modQueue q f).badDev = s.badDev := rfl
@[simp] theorem modQueue_badSpad (s : State) (q : QueueId) (f : Queue → Queue) : (s.modQueue q f).badSpad = s.badSpad := rfl
@[simp] theorem modQueue_badHost (s : State) (q : QueueId) (f : Queue → Queue) : (s.modQueue q f).badHost = s.badHost := rfl
@[simp] theorem modQueue_retrain (s : State) (q : QueueId) (f : Queue → Queue) : (s.modQueue q f).retrain = s.retrain := rfl
@[simp] theorem modQueue_cores (s : State) (q : QueueId) (f : Queue → Queue) : (s.modQueue q f).cores = s.cores := rfl
@[simp] theorem modQueue_active (s : State) (q : QueueId) (f : Queue → Queue) : (s.modQueue q f).active = s.active := rfl
@[simp] theorem modQueue_spad (s : State) (q : QueueId) (f : Queue → Queue) : (s.modQueue q f).spad = s.spad := rfl
@[simp] theorem modQueue_spadSeed (s : State) (q : QueueId) (f : Queue → Queue) : (s.modQueue q f).spadSeed = s.spadSeed := rfl
@[simp] theorem modQueue_dev (s : State) (q : QueueId) (f : Queue → Queue) : (s.modQueue q f).dev = s.dev := rfl
@[simp] theorem modQueue_devKeys (s : State) (q : QueueId) (f : Queue → Queue) : (s.modQueue q f).devKeys = s.devKeys := rfl
@[simp] theorem modQueue_host (s : State) (q : QueueId) (f : Queue → Queue) : (s.modQueue q f).host = s.host := rfl
@[simp] theorem modQueue_code (s : State) (q : QueueId) (f : Queue → Queue) : (s.modQueue q f).code = s.code := rfl
@[simp] theorem modQueue_codeSh (s : State) (q : QueueId) (f : Queue → Queue) : (s.modQueue q f).codeSh = s.codeSh := rfl
@[simp] theorem modQueue_parts (s : State) (q : QueueId) (f : Queue → Queue) : (s.modQueue q f).parts = s.parts := rfl
@[simp] theorem modQueue_fabric (s : State) (q : QueueId) (f : Queue → Queue) : (s.modQueue q f).fabric = s.fabric := rfl
@[simp] theorem modQueue_detour (s : State) (q : QueueId) (f : Queue → Queue) : (s.modQueue q f).detour = s.detour := rfl
@[simp] theorem modQueue_window (s : State) (q : QueueId) (f : Queue → Queue) : (s.modQueue q f).window = s.window := rfl
@[simp] theorem modQueue_images (s : State) (q : QueueId) (f : Queue → Queue) : (s.modQueue q f).images = s.images := rfl
@[simp] theorem modQueue_nodes (s : State) (q : QueueId) (f : Queue → Queue) : (s.modQueue q f).nodes = s.nodes := rfl
@[simp] theorem modQueue_rr (s : State) (q : QueueId) (f : Queue → Queue) : (s.modQueue q f).rr = s.rr := rfl
@[simp] theorem modQueue_musterUs (s : State) (q : QueueId) (f : Queue → Queue) : (s.modQueue q f).musterUs = s.musterUs := rfl
@[simp] theorem modQueue_musterNext (s : State) (q : QueueId) (f : Queue → Queue) : (s.modQueue q f).musterNext = s.musterNext := rfl
@[simp] theorem modQueue_shepNext (s : State) (q : QueueId) (f : Queue → Queue) : (s.modQueue q f).shepNext = s.shepNext := rfl
@[simp] theorem modQueue_ports (s : State) (q : QueueId) (f : Queue → Queue) : (s.modQueue q f).ports = s.ports := rfl
@[simp] theorem modQueue_transit (s : State) (q : QueueId) (f : Queue → Queue) : (s.modQueue q f).transit = s.transit := rfl
@[simp] theorem modQueue_phase (s : State) (q : QueueId) (f : Queue → Queue) : (s.modQueue q f).phase = s.phase := rfl
@[simp] theorem modQueue_turn (s : State) (q : QueueId) (f : Queue → Queue) : (s.modQueue q f).turn = s.turn := rfl
@[simp] theorem modQueue_cur (s : State) (q : QueueId) (f : Queue → Queue) : (s.modQueue q f).cur = s.cur := rfl
@[simp] theorem modQueue_evIss (s : State) (q : QueueId) (f : Queue → Queue) : (s.modQueue q f).evIss = s.evIss := rfl
@[simp] theorem modQueue_agenda (s : State) (q : QueueId) (f : Queue → Queue) : (s.modQueue q f).agenda = s.agenda := rfl
@[simp] theorem modQueue_effs (s : State) (q : QueueId) (f : Queue → Queue) : (s.modQueue q f).effs = s.effs := rfl
@[simp] theorem modQueue_causes (s : State) (q : QueueId) (f : Queue → Queue) : (s.modQueue q f).causes = s.causes := rfl
@[simp] theorem modQueue_before (s : State) (q : QueueId) (f : Queue → Queue) : (s.modQueue q f).before = s.before := rfl
@[simp] theorem modQueue_outbox (s : State) (q : QueueId) (f : Queue → Queue) : (s.modQueue q f).outbox = s.outbox := rfl
@[simp] theorem modQueue_serial (s : State) (q : QueueId) (f : Queue → Queue) : (s.modQueue q f).serial = s.serial := rfl
@[simp] theorem modQueue_free (s : State) (q : QueueId) (f : Queue → Queue) : (s.modQueue q f).free = s.free := rfl

@[simp] theorem modPart_cyc (s : State) (p : PartId) (f : Partition → Partition) : (s.modPart p f).cyc = s.cyc := rfl
@[simp] theorem modPart_drone (s : State) (p : PartId) (f : Partition → Partition) : (s.modPart p f).drone = s.drone := rfl
@[simp] theorem modPart_droneRem (s : State) (p : PartId) (f : Partition → Partition) : (s.modPart p f).droneRem = s.droneRem := rfl
@[simp] theorem modPart_slew (s : State) (p : PartId) (f : Partition → Partition) : (s.modPart p f).slew = s.slew := rfl
@[simp] theorem modPart_served (s : State) (p : PartId) (f : Partition → Partition) : (s.modPart p f).served = s.served := rfl
@[simp] theorem modPart_n65 (s : State) (p : PartId) (f : Partition → Partition) : (s.modPart p f).n65 = s.n65 := rfl
@[simp] theorem modPart_droop (s : State) (p : PartId) (f : Partition → Partition) : (s.modPart p f).droop = s.droop := rfl
@[simp] theorem modPart_catchUp (s : State) (p : PartId) (f : Partition → Partition) : (s.modPart p f).catchUp = s.catchUp := rfl
@[simp] theorem modPart_pitch (s : State) (p : PartId) (f : Partition → Partition) : (s.modPart p f).pitch = s.pitch := rfl
@[simp] theorem modPart_epoch (s : State) (p : PartId) (f : Partition → Partition) : (s.modPart p f).epoch = s.epoch := rfl
@[simp] theorem modPart_limit (s : State) (p : PartId) (f : Partition → Partition) : (s.modPart p f).limit = s.limit := rfl
@[simp] theorem modPart_forecasts (s : State) (p : PartId) (f : Partition → Partition) : (s.modPart p f).forecasts = s.forecasts := rfl
@[simp] theorem modPart_emerg (s : State) (p : PartId) (f : Partition → Partition) : (s.modPart p f).emerg = s.emerg := rfl
@[simp] theorem modPart_group (s : State) (p : PartId) (f : Partition → Partition) : (s.modPart p f).group = s.group := rfl
@[simp] theorem modPart_stage (s : State) (p : PartId) (f : Partition → Partition) : (s.modPart p f).stage = s.stage := rfl
@[simp] theorem modPart_err (s : State) (p : PartId) (f : Partition → Partition) : (s.modPart p f).err = s.err := rfl
@[simp] theorem modPart_errV (s : State) (p : PartId) (f : Partition → Partition) : (s.modPart p f).errV = s.errV := rfl
@[simp] theorem modPart_ready (s : State) (p : PartId) (f : Partition → Partition) : (s.modPart p f).ready = s.ready := rfl
@[simp] theorem modPart_alarm (s : State) (p : PartId) (f : Partition → Partition) : (s.modPart p f).alarm = s.alarm := rfl
@[simp] theorem modPart_alarmAt (s : State) (p : PartId) (f : Partition → Partition) : (s.modPart p f).alarmAt = s.alarmAt := rfl
@[simp] theorem modPart_outOfRange (s : State) (p : PartId) (f : Partition → Partition) : (s.modPart p f).outOfRange = s.outOfRange := rfl
@[simp] theorem modPart_keys (s : State) (p : PartId) (f : Partition → Partition) : (s.modPart p f).keys = s.keys := rfl
@[simp] theorem modPart_eraseMask (s : State) (p : PartId) (f : Partition → Partition) : (s.modPart p f).eraseMask = s.eraseMask := rfl
@[simp] theorem modPart_erased (s : State) (p : PartId) (f : Partition → Partition) : (s.modPart p f).erased = s.erased := rfl
@[simp] theorem modPart_keyBlobs (s : State) (p : PartId) (f : Partition → Partition) : (s.modPart p f).keyBlobs = s.keyBlobs := rfl
@[simp] theorem modPart_minVersion (s : State) (p : PartId) (f : Partition → Partition) : (s.modPart p f).minVersion = s.minVersion := rfl
@[simp] theorem modPart_cxl (s : State) (p : PartId) (f : Partition → Partition) : (s.modPart p f).cxl = s.cxl := rfl
@[simp] theorem modPart_trayCap (s : State) (p : PartId) (f : Partition → Partition) : (s.modPart p f).trayCap = s.trayCap := rfl
@[simp] theorem modPart_repair (s : State) (p : PartId) (f : Partition → Partition) : (s.modPart p f).repair = s.repair := rfl
@[simp] theorem modPart_spdm (s : State) (p : PartId) (f : Partition → Partition) : (s.modPart p f).spdm = s.spdm := rfl
@[simp] theorem modPart_bar0 (s : State) (p : PartId) (f : Partition → Partition) : (s.modPart p f).bar0 = s.bar0 := rfl
@[simp] theorem modPart_fwCalls (s : State) (p : PartId) (f : Partition → Partition) : (s.modPart p f).fwCalls = s.fwCalls := rfl
@[simp] theorem modPart_roots (s : State) (p : PartId) (f : Partition → Partition) : (s.modPart p f).roots = s.roots := rfl
@[simp] theorem modPart_lost (s : State) (p : PartId) (f : Partition → Partition) : (s.modPart p f).lost = s.lost := rfl
@[simp] theorem modPart_bound (s : State) (p : PartId) (f : Partition → Partition) : (s.modPart p f).bound = s.bound := rfl
@[simp] theorem modPart_cacheOn (s : State) (p : PartId) (f : Partition → Partition) : (s.modPart p f).cacheOn = s.cacheOn := rfl
@[simp] theorem modPart_hostDown (s : State) (p : PartId) (f : Partition → Partition) : (s.modPart p f).hostDown = s.hostDown := rfl
@[simp] theorem modPart_regionGuards (s : State) (p : PartId) (f : Partition → Partition) : (s.modPart p f).regionGuards = s.regionGuards := rfl
@[simp] theorem modPart_guardRecs (s : State) (p : PartId) (f : Partition → Partition) : (s.modPart p f).guardRecs = s.guardRecs := rfl
@[simp] theorem modPart_dieVersion (s : State) (p : PartId) (f : Partition → Partition) : (s.modPart p f).dieVersion = s.dieVersion := rfl
@[simp] theorem modPart_dieImages (s : State) (p : PartId) (f : Partition → Partition) : (s.modPart p f).dieImages = s.dieImages := rfl
@[simp] theorem modPart_retired (s : State) (p : PartId) (f : Partition → Partition) : (s.modPart p f).retired = s.retired := rfl
@[simp] theorem modPart_poisoned (s : State) (p : PartId) (f : Partition → Partition) : (s.modPart p f).poisoned = s.poisoned := rfl
@[simp] theorem modPart_badDev (s : State) (p : PartId) (f : Partition → Partition) : (s.modPart p f).badDev = s.badDev := rfl
@[simp] theorem modPart_badSpad (s : State) (p : PartId) (f : Partition → Partition) : (s.modPart p f).badSpad = s.badSpad := rfl
@[simp] theorem modPart_badHost (s : State) (p : PartId) (f : Partition → Partition) : (s.modPart p f).badHost = s.badHost := rfl
@[simp] theorem modPart_retrain (s : State) (p : PartId) (f : Partition → Partition) : (s.modPart p f).retrain = s.retrain := rfl
@[simp] theorem modPart_cores (s : State) (p : PartId) (f : Partition → Partition) : (s.modPart p f).cores = s.cores := rfl
@[simp] theorem modPart_active (s : State) (p : PartId) (f : Partition → Partition) : (s.modPart p f).active = s.active := rfl
@[simp] theorem modPart_spad (s : State) (p : PartId) (f : Partition → Partition) : (s.modPart p f).spad = s.spad := rfl
@[simp] theorem modPart_spadSeed (s : State) (p : PartId) (f : Partition → Partition) : (s.modPart p f).spadSeed = s.spadSeed := rfl
@[simp] theorem modPart_dev (s : State) (p : PartId) (f : Partition → Partition) : (s.modPart p f).dev = s.dev := rfl
@[simp] theorem modPart_devKeys (s : State) (p : PartId) (f : Partition → Partition) : (s.modPart p f).devKeys = s.devKeys := rfl
@[simp] theorem modPart_host (s : State) (p : PartId) (f : Partition → Partition) : (s.modPart p f).host = s.host := rfl
@[simp] theorem modPart_code (s : State) (p : PartId) (f : Partition → Partition) : (s.modPart p f).code = s.code := rfl
@[simp] theorem modPart_codeSh (s : State) (p : PartId) (f : Partition → Partition) : (s.modPart p f).codeSh = s.codeSh := rfl
@[simp] theorem modPart_queues (s : State) (p : PartId) (f : Partition → Partition) : (s.modPart p f).queues = s.queues := rfl
@[simp] theorem modPart_fabric (s : State) (p : PartId) (f : Partition → Partition) : (s.modPart p f).fabric = s.fabric := rfl
@[simp] theorem modPart_detour (s : State) (p : PartId) (f : Partition → Partition) : (s.modPart p f).detour = s.detour := rfl
@[simp] theorem modPart_window (s : State) (p : PartId) (f : Partition → Partition) : (s.modPart p f).window = s.window := rfl
@[simp] theorem modPart_images (s : State) (p : PartId) (f : Partition → Partition) : (s.modPart p f).images = s.images := rfl
@[simp] theorem modPart_nodes (s : State) (p : PartId) (f : Partition → Partition) : (s.modPart p f).nodes = s.nodes := rfl
@[simp] theorem modPart_rr (s : State) (p : PartId) (f : Partition → Partition) : (s.modPart p f).rr = s.rr := rfl
@[simp] theorem modPart_musterUs (s : State) (p : PartId) (f : Partition → Partition) : (s.modPart p f).musterUs = s.musterUs := rfl
@[simp] theorem modPart_musterNext (s : State) (p : PartId) (f : Partition → Partition) : (s.modPart p f).musterNext = s.musterNext := rfl
@[simp] theorem modPart_shepNext (s : State) (p : PartId) (f : Partition → Partition) : (s.modPart p f).shepNext = s.shepNext := rfl
@[simp] theorem modPart_ports (s : State) (p : PartId) (f : Partition → Partition) : (s.modPart p f).ports = s.ports := rfl
@[simp] theorem modPart_transit (s : State) (p : PartId) (f : Partition → Partition) : (s.modPart p f).transit = s.transit := rfl
@[simp] theorem modPart_phase (s : State) (p : PartId) (f : Partition → Partition) : (s.modPart p f).phase = s.phase := rfl
@[simp] theorem modPart_turn (s : State) (p : PartId) (f : Partition → Partition) : (s.modPart p f).turn = s.turn := rfl
@[simp] theorem modPart_cur (s : State) (p : PartId) (f : Partition → Partition) : (s.modPart p f).cur = s.cur := rfl
@[simp] theorem modPart_evIss (s : State) (p : PartId) (f : Partition → Partition) : (s.modPart p f).evIss = s.evIss := rfl
@[simp] theorem modPart_agenda (s : State) (p : PartId) (f : Partition → Partition) : (s.modPart p f).agenda = s.agenda := rfl
@[simp] theorem modPart_effs (s : State) (p : PartId) (f : Partition → Partition) : (s.modPart p f).effs = s.effs := rfl
@[simp] theorem modPart_causes (s : State) (p : PartId) (f : Partition → Partition) : (s.modPart p f).causes = s.causes := rfl
@[simp] theorem modPart_before (s : State) (p : PartId) (f : Partition → Partition) : (s.modPart p f).before = s.before := rfl
@[simp] theorem modPart_outbox (s : State) (p : PartId) (f : Partition → Partition) : (s.modPart p f).outbox = s.outbox := rfl
@[simp] theorem modPart_serial (s : State) (p : PartId) (f : Partition → Partition) : (s.modPart p f).serial = s.serial := rfl
@[simp] theorem modPart_free (s : State) (p : PartId) (f : Partition → Partition) : (s.modPart p f).free = s.free := rfl

@[simp] theorem modPort_cyc (s : State) (p : PortId) (f : Port → Port) : (s.modPort p f).cyc = s.cyc := rfl
@[simp] theorem modPort_drone (s : State) (p : PortId) (f : Port → Port) : (s.modPort p f).drone = s.drone := rfl
@[simp] theorem modPort_droneRem (s : State) (p : PortId) (f : Port → Port) : (s.modPort p f).droneRem = s.droneRem := rfl
@[simp] theorem modPort_slew (s : State) (p : PortId) (f : Port → Port) : (s.modPort p f).slew = s.slew := rfl
@[simp] theorem modPort_served (s : State) (p : PortId) (f : Port → Port) : (s.modPort p f).served = s.served := rfl
@[simp] theorem modPort_n65 (s : State) (p : PortId) (f : Port → Port) : (s.modPort p f).n65 = s.n65 := rfl
@[simp] theorem modPort_droop (s : State) (p : PortId) (f : Port → Port) : (s.modPort p f).droop = s.droop := rfl
@[simp] theorem modPort_catchUp (s : State) (p : PortId) (f : Port → Port) : (s.modPort p f).catchUp = s.catchUp := rfl
@[simp] theorem modPort_pitch (s : State) (p : PortId) (f : Port → Port) : (s.modPort p f).pitch = s.pitch := rfl
@[simp] theorem modPort_epoch (s : State) (p : PortId) (f : Port → Port) : (s.modPort p f).epoch = s.epoch := rfl
@[simp] theorem modPort_limit (s : State) (p : PortId) (f : Port → Port) : (s.modPort p f).limit = s.limit := rfl
@[simp] theorem modPort_forecasts (s : State) (p : PortId) (f : Port → Port) : (s.modPort p f).forecasts = s.forecasts := rfl
@[simp] theorem modPort_emerg (s : State) (p : PortId) (f : Port → Port) : (s.modPort p f).emerg = s.emerg := rfl
@[simp] theorem modPort_group (s : State) (p : PortId) (f : Port → Port) : (s.modPort p f).group = s.group := rfl
@[simp] theorem modPort_stage (s : State) (p : PortId) (f : Port → Port) : (s.modPort p f).stage = s.stage := rfl
@[simp] theorem modPort_err (s : State) (p : PortId) (f : Port → Port) : (s.modPort p f).err = s.err := rfl
@[simp] theorem modPort_errV (s : State) (p : PortId) (f : Port → Port) : (s.modPort p f).errV = s.errV := rfl
@[simp] theorem modPort_ready (s : State) (p : PortId) (f : Port → Port) : (s.modPort p f).ready = s.ready := rfl
@[simp] theorem modPort_alarm (s : State) (p : PortId) (f : Port → Port) : (s.modPort p f).alarm = s.alarm := rfl
@[simp] theorem modPort_alarmAt (s : State) (p : PortId) (f : Port → Port) : (s.modPort p f).alarmAt = s.alarmAt := rfl
@[simp] theorem modPort_outOfRange (s : State) (p : PortId) (f : Port → Port) : (s.modPort p f).outOfRange = s.outOfRange := rfl
@[simp] theorem modPort_keys (s : State) (p : PortId) (f : Port → Port) : (s.modPort p f).keys = s.keys := rfl
@[simp] theorem modPort_eraseMask (s : State) (p : PortId) (f : Port → Port) : (s.modPort p f).eraseMask = s.eraseMask := rfl
@[simp] theorem modPort_erased (s : State) (p : PortId) (f : Port → Port) : (s.modPort p f).erased = s.erased := rfl
@[simp] theorem modPort_keyBlobs (s : State) (p : PortId) (f : Port → Port) : (s.modPort p f).keyBlobs = s.keyBlobs := rfl
@[simp] theorem modPort_minVersion (s : State) (p : PortId) (f : Port → Port) : (s.modPort p f).minVersion = s.minVersion := rfl
@[simp] theorem modPort_cxl (s : State) (p : PortId) (f : Port → Port) : (s.modPort p f).cxl = s.cxl := rfl
@[simp] theorem modPort_trayCap (s : State) (p : PortId) (f : Port → Port) : (s.modPort p f).trayCap = s.trayCap := rfl
@[simp] theorem modPort_repair (s : State) (p : PortId) (f : Port → Port) : (s.modPort p f).repair = s.repair := rfl
@[simp] theorem modPort_spdm (s : State) (p : PortId) (f : Port → Port) : (s.modPort p f).spdm = s.spdm := rfl
@[simp] theorem modPort_bar0 (s : State) (p : PortId) (f : Port → Port) : (s.modPort p f).bar0 = s.bar0 := rfl
@[simp] theorem modPort_fwCalls (s : State) (p : PortId) (f : Port → Port) : (s.modPort p f).fwCalls = s.fwCalls := rfl
@[simp] theorem modPort_roots (s : State) (p : PortId) (f : Port → Port) : (s.modPort p f).roots = s.roots := rfl
@[simp] theorem modPort_lost (s : State) (p : PortId) (f : Port → Port) : (s.modPort p f).lost = s.lost := rfl
@[simp] theorem modPort_bound (s : State) (p : PortId) (f : Port → Port) : (s.modPort p f).bound = s.bound := rfl
@[simp] theorem modPort_cacheOn (s : State) (p : PortId) (f : Port → Port) : (s.modPort p f).cacheOn = s.cacheOn := rfl
@[simp] theorem modPort_hostDown (s : State) (p : PortId) (f : Port → Port) : (s.modPort p f).hostDown = s.hostDown := rfl
@[simp] theorem modPort_regionGuards (s : State) (p : PortId) (f : Port → Port) : (s.modPort p f).regionGuards = s.regionGuards := rfl
@[simp] theorem modPort_guardRecs (s : State) (p : PortId) (f : Port → Port) : (s.modPort p f).guardRecs = s.guardRecs := rfl
@[simp] theorem modPort_dieVersion (s : State) (p : PortId) (f : Port → Port) : (s.modPort p f).dieVersion = s.dieVersion := rfl
@[simp] theorem modPort_dieImages (s : State) (p : PortId) (f : Port → Port) : (s.modPort p f).dieImages = s.dieImages := rfl
@[simp] theorem modPort_retired (s : State) (p : PortId) (f : Port → Port) : (s.modPort p f).retired = s.retired := rfl
@[simp] theorem modPort_poisoned (s : State) (p : PortId) (f : Port → Port) : (s.modPort p f).poisoned = s.poisoned := rfl
@[simp] theorem modPort_badDev (s : State) (p : PortId) (f : Port → Port) : (s.modPort p f).badDev = s.badDev := rfl
@[simp] theorem modPort_badSpad (s : State) (p : PortId) (f : Port → Port) : (s.modPort p f).badSpad = s.badSpad := rfl
@[simp] theorem modPort_badHost (s : State) (p : PortId) (f : Port → Port) : (s.modPort p f).badHost = s.badHost := rfl
@[simp] theorem modPort_retrain (s : State) (p : PortId) (f : Port → Port) : (s.modPort p f).retrain = s.retrain := rfl
@[simp] theorem modPort_cores (s : State) (p : PortId) (f : Port → Port) : (s.modPort p f).cores = s.cores := rfl
@[simp] theorem modPort_active (s : State) (p : PortId) (f : Port → Port) : (s.modPort p f).active = s.active := rfl
@[simp] theorem modPort_spad (s : State) (p : PortId) (f : Port → Port) : (s.modPort p f).spad = s.spad := rfl
@[simp] theorem modPort_spadSeed (s : State) (p : PortId) (f : Port → Port) : (s.modPort p f).spadSeed = s.spadSeed := rfl
@[simp] theorem modPort_dev (s : State) (p : PortId) (f : Port → Port) : (s.modPort p f).dev = s.dev := rfl
@[simp] theorem modPort_devKeys (s : State) (p : PortId) (f : Port → Port) : (s.modPort p f).devKeys = s.devKeys := rfl
@[simp] theorem modPort_host (s : State) (p : PortId) (f : Port → Port) : (s.modPort p f).host = s.host := rfl
@[simp] theorem modPort_code (s : State) (p : PortId) (f : Port → Port) : (s.modPort p f).code = s.code := rfl
@[simp] theorem modPort_codeSh (s : State) (p : PortId) (f : Port → Port) : (s.modPort p f).codeSh = s.codeSh := rfl
@[simp] theorem modPort_queues (s : State) (p : PortId) (f : Port → Port) : (s.modPort p f).queues = s.queues := rfl
@[simp] theorem modPort_parts (s : State) (p : PortId) (f : Port → Port) : (s.modPort p f).parts = s.parts := rfl
@[simp] theorem modPort_fabric (s : State) (p : PortId) (f : Port → Port) : (s.modPort p f).fabric = s.fabric := rfl
@[simp] theorem modPort_detour (s : State) (p : PortId) (f : Port → Port) : (s.modPort p f).detour = s.detour := rfl
@[simp] theorem modPort_window (s : State) (p : PortId) (f : Port → Port) : (s.modPort p f).window = s.window := rfl
@[simp] theorem modPort_images (s : State) (p : PortId) (f : Port → Port) : (s.modPort p f).images = s.images := rfl
@[simp] theorem modPort_nodes (s : State) (p : PortId) (f : Port → Port) : (s.modPort p f).nodes = s.nodes := rfl
@[simp] theorem modPort_rr (s : State) (p : PortId) (f : Port → Port) : (s.modPort p f).rr = s.rr := rfl
@[simp] theorem modPort_musterUs (s : State) (p : PortId) (f : Port → Port) : (s.modPort p f).musterUs = s.musterUs := rfl
@[simp] theorem modPort_musterNext (s : State) (p : PortId) (f : Port → Port) : (s.modPort p f).musterNext = s.musterNext := rfl
@[simp] theorem modPort_shepNext (s : State) (p : PortId) (f : Port → Port) : (s.modPort p f).shepNext = s.shepNext := rfl
@[simp] theorem modPort_transit (s : State) (p : PortId) (f : Port → Port) : (s.modPort p f).transit = s.transit := rfl
@[simp] theorem modPort_phase (s : State) (p : PortId) (f : Port → Port) : (s.modPort p f).phase = s.phase := rfl
@[simp] theorem modPort_turn (s : State) (p : PortId) (f : Port → Port) : (s.modPort p f).turn = s.turn := rfl
@[simp] theorem modPort_cur (s : State) (p : PortId) (f : Port → Port) : (s.modPort p f).cur = s.cur := rfl
@[simp] theorem modPort_evIss (s : State) (p : PortId) (f : Port → Port) : (s.modPort p f).evIss = s.evIss := rfl
@[simp] theorem modPort_agenda (s : State) (p : PortId) (f : Port → Port) : (s.modPort p f).agenda = s.agenda := rfl
@[simp] theorem modPort_effs (s : State) (p : PortId) (f : Port → Port) : (s.modPort p f).effs = s.effs := rfl
@[simp] theorem modPort_causes (s : State) (p : PortId) (f : Port → Port) : (s.modPort p f).causes = s.causes := rfl
@[simp] theorem modPort_before (s : State) (p : PortId) (f : Port → Port) : (s.modPort p f).before = s.before := rfl
@[simp] theorem modPort_outbox (s : State) (p : PortId) (f : Port → Port) : (s.modPort p f).outbox = s.outbox := rfl
@[simp] theorem modPort_serial (s : State) (p : PortId) (f : Port → Port) : (s.modPort p f).serial = s.serial := rfl
@[simp] theorem modPort_free (s : State) (p : PortId) (f : Port → Port) : (s.modPort p f).free = s.free := rfl

@[simp] theorem postAt_cyc (s : State) (d : Due) (i : Instr) : (s.postAt d i).cyc = s.cyc := rfl
@[simp] theorem postAt_drone (s : State) (d : Due) (i : Instr) : (s.postAt d i).drone = s.drone := rfl
@[simp] theorem postAt_droneRem (s : State) (d : Due) (i : Instr) : (s.postAt d i).droneRem = s.droneRem := rfl
@[simp] theorem postAt_slew (s : State) (d : Due) (i : Instr) : (s.postAt d i).slew = s.slew := rfl
@[simp] theorem postAt_served (s : State) (d : Due) (i : Instr) : (s.postAt d i).served = s.served := rfl
@[simp] theorem postAt_n65 (s : State) (d : Due) (i : Instr) : (s.postAt d i).n65 = s.n65 := rfl
@[simp] theorem postAt_droop (s : State) (d : Due) (i : Instr) : (s.postAt d i).droop = s.droop := rfl
@[simp] theorem postAt_catchUp (s : State) (d : Due) (i : Instr) : (s.postAt d i).catchUp = s.catchUp := rfl
@[simp] theorem postAt_pitch (s : State) (d : Due) (i : Instr) : (s.postAt d i).pitch = s.pitch := rfl
@[simp] theorem postAt_epoch (s : State) (d : Due) (i : Instr) : (s.postAt d i).epoch = s.epoch := rfl
@[simp] theorem postAt_limit (s : State) (d : Due) (i : Instr) : (s.postAt d i).limit = s.limit := rfl
@[simp] theorem postAt_forecasts (s : State) (d : Due) (i : Instr) : (s.postAt d i).forecasts = s.forecasts := rfl
@[simp] theorem postAt_emerg (s : State) (d : Due) (i : Instr) : (s.postAt d i).emerg = s.emerg := rfl
@[simp] theorem postAt_group (s : State) (d : Due) (i : Instr) : (s.postAt d i).group = s.group := rfl
@[simp] theorem postAt_stage (s : State) (d : Due) (i : Instr) : (s.postAt d i).stage = s.stage := rfl
@[simp] theorem postAt_err (s : State) (d : Due) (i : Instr) : (s.postAt d i).err = s.err := rfl
@[simp] theorem postAt_errV (s : State) (d : Due) (i : Instr) : (s.postAt d i).errV = s.errV := rfl
@[simp] theorem postAt_ready (s : State) (d : Due) (i : Instr) : (s.postAt d i).ready = s.ready := rfl
@[simp] theorem postAt_alarm (s : State) (d : Due) (i : Instr) : (s.postAt d i).alarm = s.alarm := rfl
@[simp] theorem postAt_alarmAt (s : State) (d : Due) (i : Instr) : (s.postAt d i).alarmAt = s.alarmAt := rfl
@[simp] theorem postAt_outOfRange (s : State) (d : Due) (i : Instr) : (s.postAt d i).outOfRange = s.outOfRange := rfl
@[simp] theorem postAt_keys (s : State) (d : Due) (i : Instr) : (s.postAt d i).keys = s.keys := rfl
@[simp] theorem postAt_eraseMask (s : State) (d : Due) (i : Instr) : (s.postAt d i).eraseMask = s.eraseMask := rfl
@[simp] theorem postAt_erased (s : State) (d : Due) (i : Instr) : (s.postAt d i).erased = s.erased := rfl
@[simp] theorem postAt_keyBlobs (s : State) (d : Due) (i : Instr) : (s.postAt d i).keyBlobs = s.keyBlobs := rfl
@[simp] theorem postAt_minVersion (s : State) (d : Due) (i : Instr) : (s.postAt d i).minVersion = s.minVersion := rfl
@[simp] theorem postAt_cxl (s : State) (d : Due) (i : Instr) : (s.postAt d i).cxl = s.cxl := rfl
@[simp] theorem postAt_trayCap (s : State) (d : Due) (i : Instr) : (s.postAt d i).trayCap = s.trayCap := rfl
@[simp] theorem postAt_repair (s : State) (d : Due) (i : Instr) : (s.postAt d i).repair = s.repair := rfl
@[simp] theorem postAt_spdm (s : State) (d : Due) (i : Instr) : (s.postAt d i).spdm = s.spdm := rfl
@[simp] theorem postAt_bar0 (s : State) (d : Due) (i : Instr) : (s.postAt d i).bar0 = s.bar0 := rfl
@[simp] theorem postAt_fwCalls (s : State) (d : Due) (i : Instr) : (s.postAt d i).fwCalls = s.fwCalls := rfl
@[simp] theorem postAt_roots (s : State) (d : Due) (i : Instr) : (s.postAt d i).roots = s.roots := rfl
@[simp] theorem postAt_lost (s : State) (d : Due) (i : Instr) : (s.postAt d i).lost = s.lost := rfl
@[simp] theorem postAt_bound (s : State) (d : Due) (i : Instr) : (s.postAt d i).bound = s.bound := rfl
@[simp] theorem postAt_cacheOn (s : State) (d : Due) (i : Instr) : (s.postAt d i).cacheOn = s.cacheOn := rfl
@[simp] theorem postAt_hostDown (s : State) (d : Due) (i : Instr) : (s.postAt d i).hostDown = s.hostDown := rfl
@[simp] theorem postAt_regionGuards (s : State) (d : Due) (i : Instr) : (s.postAt d i).regionGuards = s.regionGuards := rfl
@[simp] theorem postAt_guardRecs (s : State) (d : Due) (i : Instr) : (s.postAt d i).guardRecs = s.guardRecs := rfl
@[simp] theorem postAt_dieVersion (s : State) (d : Due) (i : Instr) : (s.postAt d i).dieVersion = s.dieVersion := rfl
@[simp] theorem postAt_dieImages (s : State) (d : Due) (i : Instr) : (s.postAt d i).dieImages = s.dieImages := rfl
@[simp] theorem postAt_retired (s : State) (d : Due) (i : Instr) : (s.postAt d i).retired = s.retired := rfl
@[simp] theorem postAt_poisoned (s : State) (d : Due) (i : Instr) : (s.postAt d i).poisoned = s.poisoned := rfl
@[simp] theorem postAt_badDev (s : State) (d : Due) (i : Instr) : (s.postAt d i).badDev = s.badDev := rfl
@[simp] theorem postAt_badSpad (s : State) (d : Due) (i : Instr) : (s.postAt d i).badSpad = s.badSpad := rfl
@[simp] theorem postAt_badHost (s : State) (d : Due) (i : Instr) : (s.postAt d i).badHost = s.badHost := rfl
@[simp] theorem postAt_retrain (s : State) (d : Due) (i : Instr) : (s.postAt d i).retrain = s.retrain := rfl
@[simp] theorem postAt_cores (s : State) (d : Due) (i : Instr) : (s.postAt d i).cores = s.cores := rfl
@[simp] theorem postAt_active (s : State) (d : Due) (i : Instr) : (s.postAt d i).active = s.active := rfl
@[simp] theorem postAt_spad (s : State) (d : Due) (i : Instr) : (s.postAt d i).spad = s.spad := rfl
@[simp] theorem postAt_spadSeed (s : State) (d : Due) (i : Instr) : (s.postAt d i).spadSeed = s.spadSeed := rfl
@[simp] theorem postAt_dev (s : State) (d : Due) (i : Instr) : (s.postAt d i).dev = s.dev := rfl
@[simp] theorem postAt_devKeys (s : State) (d : Due) (i : Instr) : (s.postAt d i).devKeys = s.devKeys := rfl
@[simp] theorem postAt_host (s : State) (d : Due) (i : Instr) : (s.postAt d i).host = s.host := rfl
@[simp] theorem postAt_code (s : State) (d : Due) (i : Instr) : (s.postAt d i).code = s.code := rfl
@[simp] theorem postAt_codeSh (s : State) (d : Due) (i : Instr) : (s.postAt d i).codeSh = s.codeSh := rfl
@[simp] theorem postAt_queues (s : State) (d : Due) (i : Instr) : (s.postAt d i).queues = s.queues := rfl
@[simp] theorem postAt_parts (s : State) (d : Due) (i : Instr) : (s.postAt d i).parts = s.parts := rfl
@[simp] theorem postAt_fabric (s : State) (d : Due) (i : Instr) : (s.postAt d i).fabric = s.fabric := rfl
@[simp] theorem postAt_detour (s : State) (d : Due) (i : Instr) : (s.postAt d i).detour = s.detour := rfl
@[simp] theorem postAt_window (s : State) (d : Due) (i : Instr) : (s.postAt d i).window = s.window := rfl
@[simp] theorem postAt_images (s : State) (d : Due) (i : Instr) : (s.postAt d i).images = s.images := rfl
@[simp] theorem postAt_nodes (s : State) (d : Due) (i : Instr) : (s.postAt d i).nodes = s.nodes := rfl
@[simp] theorem postAt_rr (s : State) (d : Due) (i : Instr) : (s.postAt d i).rr = s.rr := rfl
@[simp] theorem postAt_musterUs (s : State) (d : Due) (i : Instr) : (s.postAt d i).musterUs = s.musterUs := rfl
@[simp] theorem postAt_musterNext (s : State) (d : Due) (i : Instr) : (s.postAt d i).musterNext = s.musterNext := rfl
@[simp] theorem postAt_shepNext (s : State) (d : Due) (i : Instr) : (s.postAt d i).shepNext = s.shepNext := rfl
@[simp] theorem postAt_ports (s : State) (d : Due) (i : Instr) : (s.postAt d i).ports = s.ports := rfl
@[simp] theorem postAt_transit (s : State) (d : Due) (i : Instr) : (s.postAt d i).transit = s.transit := rfl
@[simp] theorem postAt_phase (s : State) (d : Due) (i : Instr) : (s.postAt d i).phase = s.phase := rfl
@[simp] theorem postAt_turn (s : State) (d : Due) (i : Instr) : (s.postAt d i).turn = s.turn := rfl
@[simp] theorem postAt_cur (s : State) (d : Due) (i : Instr) : (s.postAt d i).cur = s.cur := rfl
@[simp] theorem postAt_evIss (s : State) (d : Due) (i : Instr) : (s.postAt d i).evIss = s.evIss := rfl
@[simp] theorem postAt_effs (s : State) (d : Due) (i : Instr) : (s.postAt d i).effs = s.effs := rfl
@[simp] theorem postAt_causes (s : State) (d : Due) (i : Instr) : (s.postAt d i).causes = s.causes := rfl
@[simp] theorem postAt_before (s : State) (d : Due) (i : Instr) : (s.postAt d i).before = s.before := rfl
@[simp] theorem postAt_outbox (s : State) (d : Due) (i : Instr) : (s.postAt d i).outbox = s.outbox := rfl
@[simp] theorem postAt_serial (s : State) (d : Due) (i : Instr) : (s.postAt d i).serial = s.serial := rfl
@[simp] theorem postAt_free (s : State) (d : Due) (i : Instr) : (s.postAt d i).free = s.free := rfl

@[simp] theorem postMine_cyc (s : State) (n : Nat) (i : Instr) : (s.postMine n i).cyc = s.cyc := rfl
@[simp] theorem postMine_drone (s : State) (n : Nat) (i : Instr) : (s.postMine n i).drone = s.drone := rfl
@[simp] theorem postMine_droneRem (s : State) (n : Nat) (i : Instr) : (s.postMine n i).droneRem = s.droneRem := rfl
@[simp] theorem postMine_slew (s : State) (n : Nat) (i : Instr) : (s.postMine n i).slew = s.slew := rfl
@[simp] theorem postMine_served (s : State) (n : Nat) (i : Instr) : (s.postMine n i).served = s.served := rfl
@[simp] theorem postMine_n65 (s : State) (n : Nat) (i : Instr) : (s.postMine n i).n65 = s.n65 := rfl
@[simp] theorem postMine_droop (s : State) (n : Nat) (i : Instr) : (s.postMine n i).droop = s.droop := rfl
@[simp] theorem postMine_catchUp (s : State) (n : Nat) (i : Instr) : (s.postMine n i).catchUp = s.catchUp := rfl
@[simp] theorem postMine_pitch (s : State) (n : Nat) (i : Instr) : (s.postMine n i).pitch = s.pitch := rfl
@[simp] theorem postMine_epoch (s : State) (n : Nat) (i : Instr) : (s.postMine n i).epoch = s.epoch := rfl
@[simp] theorem postMine_limit (s : State) (n : Nat) (i : Instr) : (s.postMine n i).limit = s.limit := rfl
@[simp] theorem postMine_forecasts (s : State) (n : Nat) (i : Instr) : (s.postMine n i).forecasts = s.forecasts := rfl
@[simp] theorem postMine_emerg (s : State) (n : Nat) (i : Instr) : (s.postMine n i).emerg = s.emerg := rfl
@[simp] theorem postMine_group (s : State) (n : Nat) (i : Instr) : (s.postMine n i).group = s.group := rfl
@[simp] theorem postMine_stage (s : State) (n : Nat) (i : Instr) : (s.postMine n i).stage = s.stage := rfl
@[simp] theorem postMine_err (s : State) (n : Nat) (i : Instr) : (s.postMine n i).err = s.err := rfl
@[simp] theorem postMine_errV (s : State) (n : Nat) (i : Instr) : (s.postMine n i).errV = s.errV := rfl
@[simp] theorem postMine_ready (s : State) (n : Nat) (i : Instr) : (s.postMine n i).ready = s.ready := rfl
@[simp] theorem postMine_alarm (s : State) (n : Nat) (i : Instr) : (s.postMine n i).alarm = s.alarm := rfl
@[simp] theorem postMine_alarmAt (s : State) (n : Nat) (i : Instr) : (s.postMine n i).alarmAt = s.alarmAt := rfl
@[simp] theorem postMine_outOfRange (s : State) (n : Nat) (i : Instr) : (s.postMine n i).outOfRange = s.outOfRange := rfl
@[simp] theorem postMine_keys (s : State) (n : Nat) (i : Instr) : (s.postMine n i).keys = s.keys := rfl
@[simp] theorem postMine_eraseMask (s : State) (n : Nat) (i : Instr) : (s.postMine n i).eraseMask = s.eraseMask := rfl
@[simp] theorem postMine_erased (s : State) (n : Nat) (i : Instr) : (s.postMine n i).erased = s.erased := rfl
@[simp] theorem postMine_keyBlobs (s : State) (n : Nat) (i : Instr) : (s.postMine n i).keyBlobs = s.keyBlobs := rfl
@[simp] theorem postMine_minVersion (s : State) (n : Nat) (i : Instr) : (s.postMine n i).minVersion = s.minVersion := rfl
@[simp] theorem postMine_cxl (s : State) (n : Nat) (i : Instr) : (s.postMine n i).cxl = s.cxl := rfl
@[simp] theorem postMine_trayCap (s : State) (n : Nat) (i : Instr) : (s.postMine n i).trayCap = s.trayCap := rfl
@[simp] theorem postMine_repair (s : State) (n : Nat) (i : Instr) : (s.postMine n i).repair = s.repair := rfl
@[simp] theorem postMine_spdm (s : State) (n : Nat) (i : Instr) : (s.postMine n i).spdm = s.spdm := rfl
@[simp] theorem postMine_bar0 (s : State) (n : Nat) (i : Instr) : (s.postMine n i).bar0 = s.bar0 := rfl
@[simp] theorem postMine_fwCalls (s : State) (n : Nat) (i : Instr) : (s.postMine n i).fwCalls = s.fwCalls := rfl
@[simp] theorem postMine_roots (s : State) (n : Nat) (i : Instr) : (s.postMine n i).roots = s.roots := rfl
@[simp] theorem postMine_lost (s : State) (n : Nat) (i : Instr) : (s.postMine n i).lost = s.lost := rfl
@[simp] theorem postMine_bound (s : State) (n : Nat) (i : Instr) : (s.postMine n i).bound = s.bound := rfl
@[simp] theorem postMine_cacheOn (s : State) (n : Nat) (i : Instr) : (s.postMine n i).cacheOn = s.cacheOn := rfl
@[simp] theorem postMine_hostDown (s : State) (n : Nat) (i : Instr) : (s.postMine n i).hostDown = s.hostDown := rfl
@[simp] theorem postMine_regionGuards (s : State) (n : Nat) (i : Instr) : (s.postMine n i).regionGuards = s.regionGuards := rfl
@[simp] theorem postMine_guardRecs (s : State) (n : Nat) (i : Instr) : (s.postMine n i).guardRecs = s.guardRecs := rfl
@[simp] theorem postMine_dieVersion (s : State) (n : Nat) (i : Instr) : (s.postMine n i).dieVersion = s.dieVersion := rfl
@[simp] theorem postMine_dieImages (s : State) (n : Nat) (i : Instr) : (s.postMine n i).dieImages = s.dieImages := rfl
@[simp] theorem postMine_retired (s : State) (n : Nat) (i : Instr) : (s.postMine n i).retired = s.retired := rfl
@[simp] theorem postMine_poisoned (s : State) (n : Nat) (i : Instr) : (s.postMine n i).poisoned = s.poisoned := rfl
@[simp] theorem postMine_badDev (s : State) (n : Nat) (i : Instr) : (s.postMine n i).badDev = s.badDev := rfl
@[simp] theorem postMine_badSpad (s : State) (n : Nat) (i : Instr) : (s.postMine n i).badSpad = s.badSpad := rfl
@[simp] theorem postMine_badHost (s : State) (n : Nat) (i : Instr) : (s.postMine n i).badHost = s.badHost := rfl
@[simp] theorem postMine_retrain (s : State) (n : Nat) (i : Instr) : (s.postMine n i).retrain = s.retrain := rfl
@[simp] theorem postMine_cores (s : State) (n : Nat) (i : Instr) : (s.postMine n i).cores = s.cores := rfl
@[simp] theorem postMine_active (s : State) (n : Nat) (i : Instr) : (s.postMine n i).active = s.active := rfl
@[simp] theorem postMine_spad (s : State) (n : Nat) (i : Instr) : (s.postMine n i).spad = s.spad := rfl
@[simp] theorem postMine_spadSeed (s : State) (n : Nat) (i : Instr) : (s.postMine n i).spadSeed = s.spadSeed := rfl
@[simp] theorem postMine_dev (s : State) (n : Nat) (i : Instr) : (s.postMine n i).dev = s.dev := rfl
@[simp] theorem postMine_devKeys (s : State) (n : Nat) (i : Instr) : (s.postMine n i).devKeys = s.devKeys := rfl
@[simp] theorem postMine_host (s : State) (n : Nat) (i : Instr) : (s.postMine n i).host = s.host := rfl
@[simp] theorem postMine_code (s : State) (n : Nat) (i : Instr) : (s.postMine n i).code = s.code := rfl
@[simp] theorem postMine_codeSh (s : State) (n : Nat) (i : Instr) : (s.postMine n i).codeSh = s.codeSh := rfl
@[simp] theorem postMine_queues (s : State) (n : Nat) (i : Instr) : (s.postMine n i).queues = s.queues := rfl
@[simp] theorem postMine_parts (s : State) (n : Nat) (i : Instr) : (s.postMine n i).parts = s.parts := rfl
@[simp] theorem postMine_fabric (s : State) (n : Nat) (i : Instr) : (s.postMine n i).fabric = s.fabric := rfl
@[simp] theorem postMine_detour (s : State) (n : Nat) (i : Instr) : (s.postMine n i).detour = s.detour := rfl
@[simp] theorem postMine_window (s : State) (n : Nat) (i : Instr) : (s.postMine n i).window = s.window := rfl
@[simp] theorem postMine_images (s : State) (n : Nat) (i : Instr) : (s.postMine n i).images = s.images := rfl
@[simp] theorem postMine_nodes (s : State) (n : Nat) (i : Instr) : (s.postMine n i).nodes = s.nodes := rfl
@[simp] theorem postMine_rr (s : State) (n : Nat) (i : Instr) : (s.postMine n i).rr = s.rr := rfl
@[simp] theorem postMine_musterUs (s : State) (n : Nat) (i : Instr) : (s.postMine n i).musterUs = s.musterUs := rfl
@[simp] theorem postMine_musterNext (s : State) (n : Nat) (i : Instr) : (s.postMine n i).musterNext = s.musterNext := rfl
@[simp] theorem postMine_shepNext (s : State) (n : Nat) (i : Instr) : (s.postMine n i).shepNext = s.shepNext := rfl
@[simp] theorem postMine_ports (s : State) (n : Nat) (i : Instr) : (s.postMine n i).ports = s.ports := rfl
@[simp] theorem postMine_transit (s : State) (n : Nat) (i : Instr) : (s.postMine n i).transit = s.transit := rfl
@[simp] theorem postMine_phase (s : State) (n : Nat) (i : Instr) : (s.postMine n i).phase = s.phase := rfl
@[simp] theorem postMine_turn (s : State) (n : Nat) (i : Instr) : (s.postMine n i).turn = s.turn := rfl
@[simp] theorem postMine_cur (s : State) (n : Nat) (i : Instr) : (s.postMine n i).cur = s.cur := rfl
@[simp] theorem postMine_evIss (s : State) (n : Nat) (i : Instr) : (s.postMine n i).evIss = s.evIss := rfl
@[simp] theorem postMine_effs (s : State) (n : Nat) (i : Instr) : (s.postMine n i).effs = s.effs := rfl
@[simp] theorem postMine_causes (s : State) (n : Nat) (i : Instr) : (s.postMine n i).causes = s.causes := rfl
@[simp] theorem postMine_before (s : State) (n : Nat) (i : Instr) : (s.postMine n i).before = s.before := rfl
@[simp] theorem postMine_outbox (s : State) (n : Nat) (i : Instr) : (s.postMine n i).outbox = s.outbox := rfl
@[simp] theorem postMine_serial (s : State) (n : Nat) (i : Instr) : (s.postMine n i).serial = s.serial := rfl
@[simp] theorem postMine_free (s : State) (n : Nat) (i : Instr) : (s.postMine n i).free = s.free := rfl

@[simp] theorem emit_cyc (s : State) (o : Out) : (s.emit o).cyc = s.cyc := rfl
@[simp] theorem emit_drone (s : State) (o : Out) : (s.emit o).drone = s.drone := rfl
@[simp] theorem emit_droneRem (s : State) (o : Out) : (s.emit o).droneRem = s.droneRem := rfl
@[simp] theorem emit_slew (s : State) (o : Out) : (s.emit o).slew = s.slew := rfl
@[simp] theorem emit_served (s : State) (o : Out) : (s.emit o).served = s.served := rfl
@[simp] theorem emit_n65 (s : State) (o : Out) : (s.emit o).n65 = s.n65 := rfl
@[simp] theorem emit_droop (s : State) (o : Out) : (s.emit o).droop = s.droop := rfl
@[simp] theorem emit_catchUp (s : State) (o : Out) : (s.emit o).catchUp = s.catchUp := rfl
@[simp] theorem emit_pitch (s : State) (o : Out) : (s.emit o).pitch = s.pitch := rfl
@[simp] theorem emit_epoch (s : State) (o : Out) : (s.emit o).epoch = s.epoch := rfl
@[simp] theorem emit_limit (s : State) (o : Out) : (s.emit o).limit = s.limit := rfl
@[simp] theorem emit_forecasts (s : State) (o : Out) : (s.emit o).forecasts = s.forecasts := rfl
@[simp] theorem emit_emerg (s : State) (o : Out) : (s.emit o).emerg = s.emerg := rfl
@[simp] theorem emit_group (s : State) (o : Out) : (s.emit o).group = s.group := rfl
@[simp] theorem emit_stage (s : State) (o : Out) : (s.emit o).stage = s.stage := rfl
@[simp] theorem emit_err (s : State) (o : Out) : (s.emit o).err = s.err := rfl
@[simp] theorem emit_errV (s : State) (o : Out) : (s.emit o).errV = s.errV := rfl
@[simp] theorem emit_ready (s : State) (o : Out) : (s.emit o).ready = s.ready := rfl
@[simp] theorem emit_alarm (s : State) (o : Out) : (s.emit o).alarm = s.alarm := rfl
@[simp] theorem emit_alarmAt (s : State) (o : Out) : (s.emit o).alarmAt = s.alarmAt := rfl
@[simp] theorem emit_outOfRange (s : State) (o : Out) : (s.emit o).outOfRange = s.outOfRange := rfl
@[simp] theorem emit_keys (s : State) (o : Out) : (s.emit o).keys = s.keys := rfl
@[simp] theorem emit_eraseMask (s : State) (o : Out) : (s.emit o).eraseMask = s.eraseMask := rfl
@[simp] theorem emit_erased (s : State) (o : Out) : (s.emit o).erased = s.erased := rfl
@[simp] theorem emit_keyBlobs (s : State) (o : Out) : (s.emit o).keyBlobs = s.keyBlobs := rfl
@[simp] theorem emit_minVersion (s : State) (o : Out) : (s.emit o).minVersion = s.minVersion := rfl
@[simp] theorem emit_cxl (s : State) (o : Out) : (s.emit o).cxl = s.cxl := rfl
@[simp] theorem emit_trayCap (s : State) (o : Out) : (s.emit o).trayCap = s.trayCap := rfl
@[simp] theorem emit_repair (s : State) (o : Out) : (s.emit o).repair = s.repair := rfl
@[simp] theorem emit_spdm (s : State) (o : Out) : (s.emit o).spdm = s.spdm := rfl
@[simp] theorem emit_bar0 (s : State) (o : Out) : (s.emit o).bar0 = s.bar0 := rfl
@[simp] theorem emit_fwCalls (s : State) (o : Out) : (s.emit o).fwCalls = s.fwCalls := rfl
@[simp] theorem emit_roots (s : State) (o : Out) : (s.emit o).roots = s.roots := rfl
@[simp] theorem emit_lost (s : State) (o : Out) : (s.emit o).lost = s.lost := rfl
@[simp] theorem emit_bound (s : State) (o : Out) : (s.emit o).bound = s.bound := rfl
@[simp] theorem emit_cacheOn (s : State) (o : Out) : (s.emit o).cacheOn = s.cacheOn := rfl
@[simp] theorem emit_hostDown (s : State) (o : Out) : (s.emit o).hostDown = s.hostDown := rfl
@[simp] theorem emit_regionGuards (s : State) (o : Out) : (s.emit o).regionGuards = s.regionGuards := rfl
@[simp] theorem emit_guardRecs (s : State) (o : Out) : (s.emit o).guardRecs = s.guardRecs := rfl
@[simp] theorem emit_dieVersion (s : State) (o : Out) : (s.emit o).dieVersion = s.dieVersion := rfl
@[simp] theorem emit_dieImages (s : State) (o : Out) : (s.emit o).dieImages = s.dieImages := rfl
@[simp] theorem emit_retired (s : State) (o : Out) : (s.emit o).retired = s.retired := rfl
@[simp] theorem emit_poisoned (s : State) (o : Out) : (s.emit o).poisoned = s.poisoned := rfl
@[simp] theorem emit_badDev (s : State) (o : Out) : (s.emit o).badDev = s.badDev := rfl
@[simp] theorem emit_badSpad (s : State) (o : Out) : (s.emit o).badSpad = s.badSpad := rfl
@[simp] theorem emit_badHost (s : State) (o : Out) : (s.emit o).badHost = s.badHost := rfl
@[simp] theorem emit_retrain (s : State) (o : Out) : (s.emit o).retrain = s.retrain := rfl
@[simp] theorem emit_cores (s : State) (o : Out) : (s.emit o).cores = s.cores := rfl
@[simp] theorem emit_active (s : State) (o : Out) : (s.emit o).active = s.active := rfl
@[simp] theorem emit_spad (s : State) (o : Out) : (s.emit o).spad = s.spad := rfl
@[simp] theorem emit_spadSeed (s : State) (o : Out) : (s.emit o).spadSeed = s.spadSeed := rfl
@[simp] theorem emit_dev (s : State) (o : Out) : (s.emit o).dev = s.dev := rfl
@[simp] theorem emit_devKeys (s : State) (o : Out) : (s.emit o).devKeys = s.devKeys := rfl
@[simp] theorem emit_host (s : State) (o : Out) : (s.emit o).host = s.host := rfl
@[simp] theorem emit_code (s : State) (o : Out) : (s.emit o).code = s.code := rfl
@[simp] theorem emit_codeSh (s : State) (o : Out) : (s.emit o).codeSh = s.codeSh := rfl
@[simp] theorem emit_queues (s : State) (o : Out) : (s.emit o).queues = s.queues := rfl
@[simp] theorem emit_parts (s : State) (o : Out) : (s.emit o).parts = s.parts := rfl
@[simp] theorem emit_fabric (s : State) (o : Out) : (s.emit o).fabric = s.fabric := rfl
@[simp] theorem emit_detour (s : State) (o : Out) : (s.emit o).detour = s.detour := rfl
@[simp] theorem emit_window (s : State) (o : Out) : (s.emit o).window = s.window := rfl
@[simp] theorem emit_images (s : State) (o : Out) : (s.emit o).images = s.images := rfl
@[simp] theorem emit_nodes (s : State) (o : Out) : (s.emit o).nodes = s.nodes := rfl
@[simp] theorem emit_rr (s : State) (o : Out) : (s.emit o).rr = s.rr := rfl
@[simp] theorem emit_musterUs (s : State) (o : Out) : (s.emit o).musterUs = s.musterUs := rfl
@[simp] theorem emit_musterNext (s : State) (o : Out) : (s.emit o).musterNext = s.musterNext := rfl
@[simp] theorem emit_shepNext (s : State) (o : Out) : (s.emit o).shepNext = s.shepNext := rfl
@[simp] theorem emit_ports (s : State) (o : Out) : (s.emit o).ports = s.ports := rfl
@[simp] theorem emit_transit (s : State) (o : Out) : (s.emit o).transit = s.transit := rfl
@[simp] theorem emit_phase (s : State) (o : Out) : (s.emit o).phase = s.phase := rfl
@[simp] theorem emit_turn (s : State) (o : Out) : (s.emit o).turn = s.turn := rfl
@[simp] theorem emit_cur (s : State) (o : Out) : (s.emit o).cur = s.cur := rfl
@[simp] theorem emit_evIss (s : State) (o : Out) : (s.emit o).evIss = s.evIss := rfl
@[simp] theorem emit_agenda (s : State) (o : Out) : (s.emit o).agenda = s.agenda := rfl
@[simp] theorem emit_effs (s : State) (o : Out) : (s.emit o).effs = s.effs := rfl
@[simp] theorem emit_causes (s : State) (o : Out) : (s.emit o).causes = s.causes := rfl
@[simp] theorem emit_before (s : State) (o : Out) : (s.emit o).before = s.before := rfl
@[simp] theorem emit_serial (s : State) (o : Out) : (s.emit o).serial = s.serial := rfl
@[simp] theorem emit_free (s : State) (o : Out) : (s.emit o).free = s.free := rfl

@[simp] theorem nextFree_cyc (s : State) : (s.nextFree).cyc = s.cyc := rfl
@[simp] theorem nextFree_drone (s : State) : (s.nextFree).drone = s.drone := rfl
@[simp] theorem nextFree_droneRem (s : State) : (s.nextFree).droneRem = s.droneRem := rfl
@[simp] theorem nextFree_slew (s : State) : (s.nextFree).slew = s.slew := rfl
@[simp] theorem nextFree_served (s : State) : (s.nextFree).served = s.served := rfl
@[simp] theorem nextFree_n65 (s : State) : (s.nextFree).n65 = s.n65 := rfl
@[simp] theorem nextFree_droop (s : State) : (s.nextFree).droop = s.droop := rfl
@[simp] theorem nextFree_catchUp (s : State) : (s.nextFree).catchUp = s.catchUp := rfl
@[simp] theorem nextFree_pitch (s : State) : (s.nextFree).pitch = s.pitch := rfl
@[simp] theorem nextFree_epoch (s : State) : (s.nextFree).epoch = s.epoch := rfl
@[simp] theorem nextFree_limit (s : State) : (s.nextFree).limit = s.limit := rfl
@[simp] theorem nextFree_forecasts (s : State) : (s.nextFree).forecasts = s.forecasts := rfl
@[simp] theorem nextFree_emerg (s : State) : (s.nextFree).emerg = s.emerg := rfl
@[simp] theorem nextFree_group (s : State) : (s.nextFree).group = s.group := rfl
@[simp] theorem nextFree_stage (s : State) : (s.nextFree).stage = s.stage := rfl
@[simp] theorem nextFree_err (s : State) : (s.nextFree).err = s.err := rfl
@[simp] theorem nextFree_errV (s : State) : (s.nextFree).errV = s.errV := rfl
@[simp] theorem nextFree_ready (s : State) : (s.nextFree).ready = s.ready := rfl
@[simp] theorem nextFree_alarm (s : State) : (s.nextFree).alarm = s.alarm := rfl
@[simp] theorem nextFree_alarmAt (s : State) : (s.nextFree).alarmAt = s.alarmAt := rfl
@[simp] theorem nextFree_outOfRange (s : State) : (s.nextFree).outOfRange = s.outOfRange := rfl
@[simp] theorem nextFree_keys (s : State) : (s.nextFree).keys = s.keys := rfl
@[simp] theorem nextFree_eraseMask (s : State) : (s.nextFree).eraseMask = s.eraseMask := rfl
@[simp] theorem nextFree_erased (s : State) : (s.nextFree).erased = s.erased := rfl
@[simp] theorem nextFree_keyBlobs (s : State) : (s.nextFree).keyBlobs = s.keyBlobs := rfl
@[simp] theorem nextFree_minVersion (s : State) : (s.nextFree).minVersion = s.minVersion := rfl
@[simp] theorem nextFree_cxl (s : State) : (s.nextFree).cxl = s.cxl := rfl
@[simp] theorem nextFree_trayCap (s : State) : (s.nextFree).trayCap = s.trayCap := rfl
@[simp] theorem nextFree_repair (s : State) : (s.nextFree).repair = s.repair := rfl
@[simp] theorem nextFree_spdm (s : State) : (s.nextFree).spdm = s.spdm := rfl
@[simp] theorem nextFree_bar0 (s : State) : (s.nextFree).bar0 = s.bar0 := rfl
@[simp] theorem nextFree_fwCalls (s : State) : (s.nextFree).fwCalls = s.fwCalls := rfl
@[simp] theorem nextFree_roots (s : State) : (s.nextFree).roots = s.roots := rfl
@[simp] theorem nextFree_lost (s : State) : (s.nextFree).lost = s.lost := rfl
@[simp] theorem nextFree_bound (s : State) : (s.nextFree).bound = s.bound := rfl
@[simp] theorem nextFree_cacheOn (s : State) : (s.nextFree).cacheOn = s.cacheOn := rfl
@[simp] theorem nextFree_hostDown (s : State) : (s.nextFree).hostDown = s.hostDown := rfl
@[simp] theorem nextFree_regionGuards (s : State) : (s.nextFree).regionGuards = s.regionGuards := rfl
@[simp] theorem nextFree_guardRecs (s : State) : (s.nextFree).guardRecs = s.guardRecs := rfl
@[simp] theorem nextFree_dieVersion (s : State) : (s.nextFree).dieVersion = s.dieVersion := rfl
@[simp] theorem nextFree_dieImages (s : State) : (s.nextFree).dieImages = s.dieImages := rfl
@[simp] theorem nextFree_retired (s : State) : (s.nextFree).retired = s.retired := rfl
@[simp] theorem nextFree_poisoned (s : State) : (s.nextFree).poisoned = s.poisoned := rfl
@[simp] theorem nextFree_badDev (s : State) : (s.nextFree).badDev = s.badDev := rfl
@[simp] theorem nextFree_badSpad (s : State) : (s.nextFree).badSpad = s.badSpad := rfl
@[simp] theorem nextFree_badHost (s : State) : (s.nextFree).badHost = s.badHost := rfl
@[simp] theorem nextFree_retrain (s : State) : (s.nextFree).retrain = s.retrain := rfl
@[simp] theorem nextFree_cores (s : State) : (s.nextFree).cores = s.cores := rfl
@[simp] theorem nextFree_active (s : State) : (s.nextFree).active = s.active := rfl
@[simp] theorem nextFree_spad (s : State) : (s.nextFree).spad = s.spad := rfl
@[simp] theorem nextFree_spadSeed (s : State) : (s.nextFree).spadSeed = s.spadSeed := rfl
@[simp] theorem nextFree_dev (s : State) : (s.nextFree).dev = s.dev := rfl
@[simp] theorem nextFree_devKeys (s : State) : (s.nextFree).devKeys = s.devKeys := rfl
@[simp] theorem nextFree_host (s : State) : (s.nextFree).host = s.host := rfl
@[simp] theorem nextFree_code (s : State) : (s.nextFree).code = s.code := rfl
@[simp] theorem nextFree_codeSh (s : State) : (s.nextFree).codeSh = s.codeSh := rfl
@[simp] theorem nextFree_queues (s : State) : (s.nextFree).queues = s.queues := rfl
@[simp] theorem nextFree_parts (s : State) : (s.nextFree).parts = s.parts := rfl
@[simp] theorem nextFree_fabric (s : State) : (s.nextFree).fabric = s.fabric := rfl
@[simp] theorem nextFree_detour (s : State) : (s.nextFree).detour = s.detour := rfl
@[simp] theorem nextFree_window (s : State) : (s.nextFree).window = s.window := rfl
@[simp] theorem nextFree_images (s : State) : (s.nextFree).images = s.images := rfl
@[simp] theorem nextFree_nodes (s : State) : (s.nextFree).nodes = s.nodes := rfl
@[simp] theorem nextFree_rr (s : State) : (s.nextFree).rr = s.rr := rfl
@[simp] theorem nextFree_musterUs (s : State) : (s.nextFree).musterUs = s.musterUs := rfl
@[simp] theorem nextFree_musterNext (s : State) : (s.nextFree).musterNext = s.musterNext := rfl
@[simp] theorem nextFree_shepNext (s : State) : (s.nextFree).shepNext = s.shepNext := rfl
@[simp] theorem nextFree_ports (s : State) : (s.nextFree).ports = s.ports := rfl
@[simp] theorem nextFree_transit (s : State) : (s.nextFree).transit = s.transit := rfl
@[simp] theorem nextFree_phase (s : State) : (s.nextFree).phase = s.phase := rfl
@[simp] theorem nextFree_turn (s : State) : (s.nextFree).turn = s.turn := rfl
@[simp] theorem nextFree_cur (s : State) : (s.nextFree).cur = s.cur := rfl
@[simp] theorem nextFree_evIss (s : State) : (s.nextFree).evIss = s.evIss := rfl
@[simp] theorem nextFree_agenda (s : State) : (s.nextFree).agenda = s.agenda := rfl
@[simp] theorem nextFree_effs (s : State) : (s.nextFree).effs = s.effs := rfl
@[simp] theorem nextFree_causes (s : State) : (s.nextFree).causes = s.causes := rfl
@[simp] theorem nextFree_before (s : State) : (s.nextFree).before = s.before := rfl
@[simp] theorem nextFree_outbox (s : State) : (s.nextFree).outbox = s.outbox := rfl
@[simp] theorem nextFree_serial (s : State) : (s.nextFree).serial = s.serial := rfl

@[simp] theorem addCause_cyc (s : State) (c : Cause) : (s.addCause c).cyc = s.cyc := rfl
@[simp] theorem addCause_drone (s : State) (c : Cause) : (s.addCause c).drone = s.drone := rfl
@[simp] theorem addCause_droneRem (s : State) (c : Cause) : (s.addCause c).droneRem = s.droneRem := rfl
@[simp] theorem addCause_slew (s : State) (c : Cause) : (s.addCause c).slew = s.slew := rfl
@[simp] theorem addCause_served (s : State) (c : Cause) : (s.addCause c).served = s.served := rfl
@[simp] theorem addCause_n65 (s : State) (c : Cause) : (s.addCause c).n65 = s.n65 := rfl
@[simp] theorem addCause_droop (s : State) (c : Cause) : (s.addCause c).droop = s.droop := rfl
@[simp] theorem addCause_catchUp (s : State) (c : Cause) : (s.addCause c).catchUp = s.catchUp := rfl
@[simp] theorem addCause_pitch (s : State) (c : Cause) : (s.addCause c).pitch = s.pitch := rfl
@[simp] theorem addCause_epoch (s : State) (c : Cause) : (s.addCause c).epoch = s.epoch := rfl
@[simp] theorem addCause_limit (s : State) (c : Cause) : (s.addCause c).limit = s.limit := rfl
@[simp] theorem addCause_forecasts (s : State) (c : Cause) : (s.addCause c).forecasts = s.forecasts := rfl
@[simp] theorem addCause_emerg (s : State) (c : Cause) : (s.addCause c).emerg = s.emerg := rfl
@[simp] theorem addCause_group (s : State) (c : Cause) : (s.addCause c).group = s.group := rfl
@[simp] theorem addCause_stage (s : State) (c : Cause) : (s.addCause c).stage = s.stage := rfl
@[simp] theorem addCause_err (s : State) (c : Cause) : (s.addCause c).err = s.err := rfl
@[simp] theorem addCause_errV (s : State) (c : Cause) : (s.addCause c).errV = s.errV := rfl
@[simp] theorem addCause_ready (s : State) (c : Cause) : (s.addCause c).ready = s.ready := rfl
@[simp] theorem addCause_alarm (s : State) (c : Cause) : (s.addCause c).alarm = s.alarm := rfl
@[simp] theorem addCause_alarmAt (s : State) (c : Cause) : (s.addCause c).alarmAt = s.alarmAt := rfl
@[simp] theorem addCause_outOfRange (s : State) (c : Cause) : (s.addCause c).outOfRange = s.outOfRange := rfl
@[simp] theorem addCause_keys (s : State) (c : Cause) : (s.addCause c).keys = s.keys := rfl
@[simp] theorem addCause_eraseMask (s : State) (c : Cause) : (s.addCause c).eraseMask = s.eraseMask := rfl
@[simp] theorem addCause_erased (s : State) (c : Cause) : (s.addCause c).erased = s.erased := rfl
@[simp] theorem addCause_keyBlobs (s : State) (c : Cause) : (s.addCause c).keyBlobs = s.keyBlobs := rfl
@[simp] theorem addCause_minVersion (s : State) (c : Cause) : (s.addCause c).minVersion = s.minVersion := rfl
@[simp] theorem addCause_cxl (s : State) (c : Cause) : (s.addCause c).cxl = s.cxl := rfl
@[simp] theorem addCause_trayCap (s : State) (c : Cause) : (s.addCause c).trayCap = s.trayCap := rfl
@[simp] theorem addCause_repair (s : State) (c : Cause) : (s.addCause c).repair = s.repair := rfl
@[simp] theorem addCause_spdm (s : State) (c : Cause) : (s.addCause c).spdm = s.spdm := rfl
@[simp] theorem addCause_bar0 (s : State) (c : Cause) : (s.addCause c).bar0 = s.bar0 := rfl
@[simp] theorem addCause_fwCalls (s : State) (c : Cause) : (s.addCause c).fwCalls = s.fwCalls := rfl
@[simp] theorem addCause_roots (s : State) (c : Cause) : (s.addCause c).roots = s.roots := rfl
@[simp] theorem addCause_lost (s : State) (c : Cause) : (s.addCause c).lost = s.lost := rfl
@[simp] theorem addCause_bound (s : State) (c : Cause) : (s.addCause c).bound = s.bound := rfl
@[simp] theorem addCause_cacheOn (s : State) (c : Cause) : (s.addCause c).cacheOn = s.cacheOn := rfl
@[simp] theorem addCause_hostDown (s : State) (c : Cause) : (s.addCause c).hostDown = s.hostDown := rfl
@[simp] theorem addCause_regionGuards (s : State) (c : Cause) : (s.addCause c).regionGuards = s.regionGuards := rfl
@[simp] theorem addCause_guardRecs (s : State) (c : Cause) : (s.addCause c).guardRecs = s.guardRecs := rfl
@[simp] theorem addCause_dieVersion (s : State) (c : Cause) : (s.addCause c).dieVersion = s.dieVersion := rfl
@[simp] theorem addCause_dieImages (s : State) (c : Cause) : (s.addCause c).dieImages = s.dieImages := rfl
@[simp] theorem addCause_retired (s : State) (c : Cause) : (s.addCause c).retired = s.retired := rfl
@[simp] theorem addCause_poisoned (s : State) (c : Cause) : (s.addCause c).poisoned = s.poisoned := rfl
@[simp] theorem addCause_badDev (s : State) (c : Cause) : (s.addCause c).badDev = s.badDev := rfl
@[simp] theorem addCause_badSpad (s : State) (c : Cause) : (s.addCause c).badSpad = s.badSpad := rfl
@[simp] theorem addCause_badHost (s : State) (c : Cause) : (s.addCause c).badHost = s.badHost := rfl
@[simp] theorem addCause_retrain (s : State) (c : Cause) : (s.addCause c).retrain = s.retrain := rfl
@[simp] theorem addCause_cores (s : State) (c : Cause) : (s.addCause c).cores = s.cores := rfl
@[simp] theorem addCause_active (s : State) (c : Cause) : (s.addCause c).active = s.active := rfl
@[simp] theorem addCause_spad (s : State) (c : Cause) : (s.addCause c).spad = s.spad := rfl
@[simp] theorem addCause_spadSeed (s : State) (c : Cause) : (s.addCause c).spadSeed = s.spadSeed := rfl
@[simp] theorem addCause_dev (s : State) (c : Cause) : (s.addCause c).dev = s.dev := rfl
@[simp] theorem addCause_devKeys (s : State) (c : Cause) : (s.addCause c).devKeys = s.devKeys := rfl
@[simp] theorem addCause_host (s : State) (c : Cause) : (s.addCause c).host = s.host := rfl
@[simp] theorem addCause_code (s : State) (c : Cause) : (s.addCause c).code = s.code := rfl
@[simp] theorem addCause_codeSh (s : State) (c : Cause) : (s.addCause c).codeSh = s.codeSh := rfl
@[simp] theorem addCause_queues (s : State) (c : Cause) : (s.addCause c).queues = s.queues := rfl
@[simp] theorem addCause_parts (s : State) (c : Cause) : (s.addCause c).parts = s.parts := rfl
@[simp] theorem addCause_fabric (s : State) (c : Cause) : (s.addCause c).fabric = s.fabric := rfl
@[simp] theorem addCause_detour (s : State) (c : Cause) : (s.addCause c).detour = s.detour := rfl
@[simp] theorem addCause_window (s : State) (c : Cause) : (s.addCause c).window = s.window := rfl
@[simp] theorem addCause_images (s : State) (c : Cause) : (s.addCause c).images = s.images := rfl
@[simp] theorem addCause_nodes (s : State) (c : Cause) : (s.addCause c).nodes = s.nodes := rfl
@[simp] theorem addCause_rr (s : State) (c : Cause) : (s.addCause c).rr = s.rr := rfl
@[simp] theorem addCause_musterUs (s : State) (c : Cause) : (s.addCause c).musterUs = s.musterUs := rfl
@[simp] theorem addCause_musterNext (s : State) (c : Cause) : (s.addCause c).musterNext = s.musterNext := rfl
@[simp] theorem addCause_shepNext (s : State) (c : Cause) : (s.addCause c).shepNext = s.shepNext := rfl
@[simp] theorem addCause_ports (s : State) (c : Cause) : (s.addCause c).ports = s.ports := rfl
@[simp] theorem addCause_transit (s : State) (c : Cause) : (s.addCause c).transit = s.transit := rfl
@[simp] theorem addCause_phase (s : State) (c : Cause) : (s.addCause c).phase = s.phase := rfl
@[simp] theorem addCause_turn (s : State) (c : Cause) : (s.addCause c).turn = s.turn := rfl
@[simp] theorem addCause_cur (s : State) (c : Cause) : (s.addCause c).cur = s.cur := rfl
@[simp] theorem addCause_evIss (s : State) (c : Cause) : (s.addCause c).evIss = s.evIss := rfl
@[simp] theorem addCause_agenda (s : State) (c : Cause) : (s.addCause c).agenda = s.agenda := rfl
@[simp] theorem addCause_effs (s : State) (c : Cause) : (s.addCause c).effs = s.effs := rfl
@[simp] theorem addCause_before (s : State) (c : Cause) : (s.addCause c).before = s.before := rfl
@[simp] theorem addCause_outbox (s : State) (c : Cause) : (s.addCause c).outbox = s.outbox := rfl
@[simp] theorem addCause_serial (s : State) (c : Cause) : (s.addCause c).serial = s.serial := rfl
@[simp] theorem addCause_free (s : State) (c : Cause) : (s.addCause c).free = s.free := rfl

@[simp] theorem later_cyc (s : State) (h : Hdr) (n : Nat) (r f : Bool) (op : EffOp) : (s.later h n r f op).cyc = s.cyc := rfl
@[simp] theorem later_drone (s : State) (h : Hdr) (n : Nat) (r f : Bool) (op : EffOp) : (s.later h n r f op).drone = s.drone := rfl
@[simp] theorem later_droneRem (s : State) (h : Hdr) (n : Nat) (r f : Bool) (op : EffOp) : (s.later h n r f op).droneRem = s.droneRem := rfl
@[simp] theorem later_slew (s : State) (h : Hdr) (n : Nat) (r f : Bool) (op : EffOp) : (s.later h n r f op).slew = s.slew := rfl
@[simp] theorem later_served (s : State) (h : Hdr) (n : Nat) (r f : Bool) (op : EffOp) : (s.later h n r f op).served = s.served := rfl
@[simp] theorem later_n65 (s : State) (h : Hdr) (n : Nat) (r f : Bool) (op : EffOp) : (s.later h n r f op).n65 = s.n65 := rfl
@[simp] theorem later_droop (s : State) (h : Hdr) (n : Nat) (r f : Bool) (op : EffOp) : (s.later h n r f op).droop = s.droop := rfl
@[simp] theorem later_catchUp (s : State) (h : Hdr) (n : Nat) (r f : Bool) (op : EffOp) : (s.later h n r f op).catchUp = s.catchUp := rfl
@[simp] theorem later_pitch (s : State) (h : Hdr) (n : Nat) (r f : Bool) (op : EffOp) : (s.later h n r f op).pitch = s.pitch := rfl
@[simp] theorem later_epoch (s : State) (h : Hdr) (n : Nat) (r f : Bool) (op : EffOp) : (s.later h n r f op).epoch = s.epoch := rfl
@[simp] theorem later_limit (s : State) (h : Hdr) (n : Nat) (r f : Bool) (op : EffOp) : (s.later h n r f op).limit = s.limit := rfl
@[simp] theorem later_forecasts (s : State) (h : Hdr) (n : Nat) (r f : Bool) (op : EffOp) : (s.later h n r f op).forecasts = s.forecasts := rfl
@[simp] theorem later_emerg (s : State) (h : Hdr) (n : Nat) (r f : Bool) (op : EffOp) : (s.later h n r f op).emerg = s.emerg := rfl
@[simp] theorem later_group (s : State) (h : Hdr) (n : Nat) (r f : Bool) (op : EffOp) : (s.later h n r f op).group = s.group := rfl
@[simp] theorem later_stage (s : State) (h : Hdr) (n : Nat) (r f : Bool) (op : EffOp) : (s.later h n r f op).stage = s.stage := rfl
@[simp] theorem later_err (s : State) (h : Hdr) (n : Nat) (r f : Bool) (op : EffOp) : (s.later h n r f op).err = s.err := rfl
@[simp] theorem later_errV (s : State) (h : Hdr) (n : Nat) (r f : Bool) (op : EffOp) : (s.later h n r f op).errV = s.errV := rfl
@[simp] theorem later_ready (s : State) (h : Hdr) (n : Nat) (r f : Bool) (op : EffOp) : (s.later h n r f op).ready = s.ready := rfl
@[simp] theorem later_alarm (s : State) (h : Hdr) (n : Nat) (r f : Bool) (op : EffOp) : (s.later h n r f op).alarm = s.alarm := rfl
@[simp] theorem later_alarmAt (s : State) (h : Hdr) (n : Nat) (r f : Bool) (op : EffOp) : (s.later h n r f op).alarmAt = s.alarmAt := rfl
@[simp] theorem later_outOfRange (s : State) (h : Hdr) (n : Nat) (r f : Bool) (op : EffOp) : (s.later h n r f op).outOfRange = s.outOfRange := rfl
@[simp] theorem later_keys (s : State) (h : Hdr) (n : Nat) (r f : Bool) (op : EffOp) : (s.later h n r f op).keys = s.keys := rfl
@[simp] theorem later_eraseMask (s : State) (h : Hdr) (n : Nat) (r f : Bool) (op : EffOp) : (s.later h n r f op).eraseMask = s.eraseMask := rfl
@[simp] theorem later_erased (s : State) (h : Hdr) (n : Nat) (r f : Bool) (op : EffOp) : (s.later h n r f op).erased = s.erased := rfl
@[simp] theorem later_keyBlobs (s : State) (h : Hdr) (n : Nat) (r f : Bool) (op : EffOp) : (s.later h n r f op).keyBlobs = s.keyBlobs := rfl
@[simp] theorem later_minVersion (s : State) (h : Hdr) (n : Nat) (r f : Bool) (op : EffOp) : (s.later h n r f op).minVersion = s.minVersion := rfl
@[simp] theorem later_cxl (s : State) (h : Hdr) (n : Nat) (r f : Bool) (op : EffOp) : (s.later h n r f op).cxl = s.cxl := rfl
@[simp] theorem later_trayCap (s : State) (h : Hdr) (n : Nat) (r f : Bool) (op : EffOp) : (s.later h n r f op).trayCap = s.trayCap := rfl
@[simp] theorem later_repair (s : State) (h : Hdr) (n : Nat) (r f : Bool) (op : EffOp) : (s.later h n r f op).repair = s.repair := rfl
@[simp] theorem later_spdm (s : State) (h : Hdr) (n : Nat) (r f : Bool) (op : EffOp) : (s.later h n r f op).spdm = s.spdm := rfl
@[simp] theorem later_bar0 (s : State) (h : Hdr) (n : Nat) (r f : Bool) (op : EffOp) : (s.later h n r f op).bar0 = s.bar0 := rfl
@[simp] theorem later_fwCalls (s : State) (h : Hdr) (n : Nat) (r f : Bool) (op : EffOp) : (s.later h n r f op).fwCalls = s.fwCalls := rfl
@[simp] theorem later_roots (s : State) (h : Hdr) (n : Nat) (r f : Bool) (op : EffOp) : (s.later h n r f op).roots = s.roots := rfl
@[simp] theorem later_lost (s : State) (h : Hdr) (n : Nat) (r f : Bool) (op : EffOp) : (s.later h n r f op).lost = s.lost := rfl
@[simp] theorem later_bound (s : State) (h : Hdr) (n : Nat) (r f : Bool) (op : EffOp) : (s.later h n r f op).bound = s.bound := rfl
@[simp] theorem later_cacheOn (s : State) (h : Hdr) (n : Nat) (r f : Bool) (op : EffOp) : (s.later h n r f op).cacheOn = s.cacheOn := rfl
@[simp] theorem later_hostDown (s : State) (h : Hdr) (n : Nat) (r f : Bool) (op : EffOp) : (s.later h n r f op).hostDown = s.hostDown := rfl
@[simp] theorem later_regionGuards (s : State) (h : Hdr) (n : Nat) (r f : Bool) (op : EffOp) : (s.later h n r f op).regionGuards = s.regionGuards := rfl
@[simp] theorem later_guardRecs (s : State) (h : Hdr) (n : Nat) (r f : Bool) (op : EffOp) : (s.later h n r f op).guardRecs = s.guardRecs := rfl
@[simp] theorem later_dieVersion (s : State) (h : Hdr) (n : Nat) (r f : Bool) (op : EffOp) : (s.later h n r f op).dieVersion = s.dieVersion := rfl
@[simp] theorem later_dieImages (s : State) (h : Hdr) (n : Nat) (r f : Bool) (op : EffOp) : (s.later h n r f op).dieImages = s.dieImages := rfl
@[simp] theorem later_retired (s : State) (h : Hdr) (n : Nat) (r f : Bool) (op : EffOp) : (s.later h n r f op).retired = s.retired := rfl
@[simp] theorem later_poisoned (s : State) (h : Hdr) (n : Nat) (r f : Bool) (op : EffOp) : (s.later h n r f op).poisoned = s.poisoned := rfl
@[simp] theorem later_badDev (s : State) (h : Hdr) (n : Nat) (r f : Bool) (op : EffOp) : (s.later h n r f op).badDev = s.badDev := rfl
@[simp] theorem later_badSpad (s : State) (h : Hdr) (n : Nat) (r f : Bool) (op : EffOp) : (s.later h n r f op).badSpad = s.badSpad := rfl
@[simp] theorem later_badHost (s : State) (h : Hdr) (n : Nat) (r f : Bool) (op : EffOp) : (s.later h n r f op).badHost = s.badHost := rfl
@[simp] theorem later_retrain (s : State) (h : Hdr) (n : Nat) (r f : Bool) (op : EffOp) : (s.later h n r f op).retrain = s.retrain := rfl
@[simp] theorem later_cores (s : State) (h : Hdr) (n : Nat) (r f : Bool) (op : EffOp) : (s.later h n r f op).cores = s.cores := rfl
@[simp] theorem later_active (s : State) (h : Hdr) (n : Nat) (r f : Bool) (op : EffOp) : (s.later h n r f op).active = s.active := rfl
@[simp] theorem later_spad (s : State) (h : Hdr) (n : Nat) (r f : Bool) (op : EffOp) : (s.later h n r f op).spad = s.spad := rfl
@[simp] theorem later_spadSeed (s : State) (h : Hdr) (n : Nat) (r f : Bool) (op : EffOp) : (s.later h n r f op).spadSeed = s.spadSeed := rfl
@[simp] theorem later_dev (s : State) (h : Hdr) (n : Nat) (r f : Bool) (op : EffOp) : (s.later h n r f op).dev = s.dev := rfl
@[simp] theorem later_devKeys (s : State) (h : Hdr) (n : Nat) (r f : Bool) (op : EffOp) : (s.later h n r f op).devKeys = s.devKeys := rfl
@[simp] theorem later_host (s : State) (h : Hdr) (n : Nat) (r f : Bool) (op : EffOp) : (s.later h n r f op).host = s.host := rfl
@[simp] theorem later_code (s : State) (h : Hdr) (n : Nat) (r f : Bool) (op : EffOp) : (s.later h n r f op).code = s.code := rfl
@[simp] theorem later_codeSh (s : State) (h : Hdr) (n : Nat) (r f : Bool) (op : EffOp) : (s.later h n r f op).codeSh = s.codeSh := rfl
@[simp] theorem later_queues (s : State) (h : Hdr) (n : Nat) (r f : Bool) (op : EffOp) : (s.later h n r f op).queues = s.queues := rfl
@[simp] theorem later_parts (s : State) (h : Hdr) (n : Nat) (r f : Bool) (op : EffOp) : (s.later h n r f op).parts = s.parts := rfl
@[simp] theorem later_fabric (s : State) (h : Hdr) (n : Nat) (r f : Bool) (op : EffOp) : (s.later h n r f op).fabric = s.fabric := rfl
@[simp] theorem later_detour (s : State) (h : Hdr) (n : Nat) (r f : Bool) (op : EffOp) : (s.later h n r f op).detour = s.detour := rfl
@[simp] theorem later_window (s : State) (h : Hdr) (n : Nat) (r f : Bool) (op : EffOp) : (s.later h n r f op).window = s.window := rfl
@[simp] theorem later_images (s : State) (h : Hdr) (n : Nat) (r f : Bool) (op : EffOp) : (s.later h n r f op).images = s.images := rfl
@[simp] theorem later_nodes (s : State) (h : Hdr) (n : Nat) (r f : Bool) (op : EffOp) : (s.later h n r f op).nodes = s.nodes := rfl
@[simp] theorem later_rr (s : State) (h : Hdr) (n : Nat) (r f : Bool) (op : EffOp) : (s.later h n r f op).rr = s.rr := rfl
@[simp] theorem later_musterUs (s : State) (h : Hdr) (n : Nat) (r f : Bool) (op : EffOp) : (s.later h n r f op).musterUs = s.musterUs := rfl
@[simp] theorem later_musterNext (s : State) (h : Hdr) (n : Nat) (r f : Bool) (op : EffOp) : (s.later h n r f op).musterNext = s.musterNext := rfl
@[simp] theorem later_shepNext (s : State) (h : Hdr) (n : Nat) (r f : Bool) (op : EffOp) : (s.later h n r f op).shepNext = s.shepNext := rfl
@[simp] theorem later_ports (s : State) (h : Hdr) (n : Nat) (r f : Bool) (op : EffOp) : (s.later h n r f op).ports = s.ports := rfl
@[simp] theorem later_transit (s : State) (h : Hdr) (n : Nat) (r f : Bool) (op : EffOp) : (s.later h n r f op).transit = s.transit := rfl
@[simp] theorem later_phase (s : State) (h : Hdr) (n : Nat) (r f : Bool) (op : EffOp) : (s.later h n r f op).phase = s.phase := rfl
@[simp] theorem later_turn (s : State) (h : Hdr) (n : Nat) (r f : Bool) (op : EffOp) : (s.later h n r f op).turn = s.turn := rfl
@[simp] theorem later_cur (s : State) (h : Hdr) (n : Nat) (r f : Bool) (op : EffOp) : (s.later h n r f op).cur = s.cur := rfl
@[simp] theorem later_evIss (s : State) (h : Hdr) (n : Nat) (r f : Bool) (op : EffOp) : (s.later h n r f op).evIss = s.evIss := rfl
@[simp] theorem later_agenda (s : State) (h : Hdr) (n : Nat) (r f : Bool) (op : EffOp) : (s.later h n r f op).agenda = s.agenda := rfl
@[simp] theorem later_causes (s : State) (h : Hdr) (n : Nat) (r f : Bool) (op : EffOp) : (s.later h n r f op).causes = s.causes := rfl
@[simp] theorem later_before (s : State) (h : Hdr) (n : Nat) (r f : Bool) (op : EffOp) : (s.later h n r f op).before = s.before := rfl
@[simp] theorem later_outbox (s : State) (h : Hdr) (n : Nat) (r f : Bool) (op : EffOp) : (s.later h n r f op).outbox = s.outbox := rfl
@[simp] theorem later_serial (s : State) (h : Hdr) (n : Nat) (r f : Bool) (op : EffOp) : (s.later h n r f op).serial = s.serial := rfl
@[simp] theorem later_free (s : State) (h : Hdr) (n : Nat) (r f : Bool) (op : EffOp) : (s.later h n r f op).free = s.free := rfl

@[simp] theorem retire_cyc (s : State) (len n : Nat) : (s.retire len n).cyc = s.cyc := rfl
@[simp] theorem retire_drone (s : State) (len n : Nat) : (s.retire len n).drone = s.drone := rfl
@[simp] theorem retire_droneRem (s : State) (len n : Nat) : (s.retire len n).droneRem = s.droneRem := rfl
@[simp] theorem retire_slew (s : State) (len n : Nat) : (s.retire len n).slew = s.slew := rfl
@[simp] theorem retire_served (s : State) (len n : Nat) : (s.retire len n).served = s.served := rfl
@[simp] theorem retire_n65 (s : State) (len n : Nat) : (s.retire len n).n65 = s.n65 := rfl
@[simp] theorem retire_droop (s : State) (len n : Nat) : (s.retire len n).droop = s.droop := rfl
@[simp] theorem retire_catchUp (s : State) (len n : Nat) : (s.retire len n).catchUp = s.catchUp := rfl
@[simp] theorem retire_pitch (s : State) (len n : Nat) : (s.retire len n).pitch = s.pitch := rfl
@[simp] theorem retire_epoch (s : State) (len n : Nat) : (s.retire len n).epoch = s.epoch := rfl
@[simp] theorem retire_limit (s : State) (len n : Nat) : (s.retire len n).limit = s.limit := rfl
@[simp] theorem retire_forecasts (s : State) (len n : Nat) : (s.retire len n).forecasts = s.forecasts := rfl
@[simp] theorem retire_emerg (s : State) (len n : Nat) : (s.retire len n).emerg = s.emerg := rfl
@[simp] theorem retire_group (s : State) (len n : Nat) : (s.retire len n).group = s.group := rfl
@[simp] theorem retire_stage (s : State) (len n : Nat) : (s.retire len n).stage = s.stage := rfl
@[simp] theorem retire_err (s : State) (len n : Nat) : (s.retire len n).err = s.err := rfl
@[simp] theorem retire_errV (s : State) (len n : Nat) : (s.retire len n).errV = s.errV := rfl
@[simp] theorem retire_ready (s : State) (len n : Nat) : (s.retire len n).ready = s.ready := rfl
@[simp] theorem retire_alarm (s : State) (len n : Nat) : (s.retire len n).alarm = s.alarm := rfl
@[simp] theorem retire_alarmAt (s : State) (len n : Nat) : (s.retire len n).alarmAt = s.alarmAt := rfl
@[simp] theorem retire_outOfRange (s : State) (len n : Nat) : (s.retire len n).outOfRange = s.outOfRange := rfl
@[simp] theorem retire_keys (s : State) (len n : Nat) : (s.retire len n).keys = s.keys := rfl
@[simp] theorem retire_eraseMask (s : State) (len n : Nat) : (s.retire len n).eraseMask = s.eraseMask := rfl
@[simp] theorem retire_erased (s : State) (len n : Nat) : (s.retire len n).erased = s.erased := rfl
@[simp] theorem retire_keyBlobs (s : State) (len n : Nat) : (s.retire len n).keyBlobs = s.keyBlobs := rfl
@[simp] theorem retire_minVersion (s : State) (len n : Nat) : (s.retire len n).minVersion = s.minVersion := rfl
@[simp] theorem retire_cxl (s : State) (len n : Nat) : (s.retire len n).cxl = s.cxl := rfl
@[simp] theorem retire_trayCap (s : State) (len n : Nat) : (s.retire len n).trayCap = s.trayCap := rfl
@[simp] theorem retire_repair (s : State) (len n : Nat) : (s.retire len n).repair = s.repair := rfl
@[simp] theorem retire_spdm (s : State) (len n : Nat) : (s.retire len n).spdm = s.spdm := rfl
@[simp] theorem retire_bar0 (s : State) (len n : Nat) : (s.retire len n).bar0 = s.bar0 := rfl
@[simp] theorem retire_fwCalls (s : State) (len n : Nat) : (s.retire len n).fwCalls = s.fwCalls := rfl
@[simp] theorem retire_roots (s : State) (len n : Nat) : (s.retire len n).roots = s.roots := rfl
@[simp] theorem retire_lost (s : State) (len n : Nat) : (s.retire len n).lost = s.lost := rfl
@[simp] theorem retire_bound (s : State) (len n : Nat) : (s.retire len n).bound = s.bound := rfl
@[simp] theorem retire_cacheOn (s : State) (len n : Nat) : (s.retire len n).cacheOn = s.cacheOn := rfl
@[simp] theorem retire_hostDown (s : State) (len n : Nat) : (s.retire len n).hostDown = s.hostDown := rfl
@[simp] theorem retire_regionGuards (s : State) (len n : Nat) : (s.retire len n).regionGuards = s.regionGuards := rfl
@[simp] theorem retire_guardRecs (s : State) (len n : Nat) : (s.retire len n).guardRecs = s.guardRecs := rfl
@[simp] theorem retire_dieVersion (s : State) (len n : Nat) : (s.retire len n).dieVersion = s.dieVersion := rfl
@[simp] theorem retire_dieImages (s : State) (len n : Nat) : (s.retire len n).dieImages = s.dieImages := rfl
@[simp] theorem retire_retired (s : State) (len n : Nat) : (s.retire len n).retired = s.retired := rfl
@[simp] theorem retire_poisoned (s : State) (len n : Nat) : (s.retire len n).poisoned = s.poisoned := rfl
@[simp] theorem retire_badDev (s : State) (len n : Nat) : (s.retire len n).badDev = s.badDev := rfl
@[simp] theorem retire_badSpad (s : State) (len n : Nat) : (s.retire len n).badSpad = s.badSpad := rfl
@[simp] theorem retire_badHost (s : State) (len n : Nat) : (s.retire len n).badHost = s.badHost := rfl
@[simp] theorem retire_retrain (s : State) (len n : Nat) : (s.retire len n).retrain = s.retrain := rfl
@[simp] theorem retire_active (s : State) (len n : Nat) : (s.retire len n).active = s.active := rfl
@[simp] theorem retire_spad (s : State) (len n : Nat) : (s.retire len n).spad = s.spad := rfl
@[simp] theorem retire_spadSeed (s : State) (len n : Nat) : (s.retire len n).spadSeed = s.spadSeed := rfl
@[simp] theorem retire_dev (s : State) (len n : Nat) : (s.retire len n).dev = s.dev := rfl
@[simp] theorem retire_devKeys (s : State) (len n : Nat) : (s.retire len n).devKeys = s.devKeys := rfl
@[simp] theorem retire_host (s : State) (len n : Nat) : (s.retire len n).host = s.host := rfl
@[simp] theorem retire_code (s : State) (len n : Nat) : (s.retire len n).code = s.code := rfl
@[simp] theorem retire_codeSh (s : State) (len n : Nat) : (s.retire len n).codeSh = s.codeSh := rfl
@[simp] theorem retire_queues (s : State) (len n : Nat) : (s.retire len n).queues = s.queues := rfl
@[simp] theorem retire_parts (s : State) (len n : Nat) : (s.retire len n).parts = s.parts := rfl
@[simp] theorem retire_fabric (s : State) (len n : Nat) : (s.retire len n).fabric = s.fabric := rfl
@[simp] theorem retire_detour (s : State) (len n : Nat) : (s.retire len n).detour = s.detour := rfl
@[simp] theorem retire_window (s : State) (len n : Nat) : (s.retire len n).window = s.window := rfl
@[simp] theorem retire_images (s : State) (len n : Nat) : (s.retire len n).images = s.images := rfl
@[simp] theorem retire_nodes (s : State) (len n : Nat) : (s.retire len n).nodes = s.nodes := rfl
@[simp] theorem retire_rr (s : State) (len n : Nat) : (s.retire len n).rr = s.rr := rfl
@[simp] theorem retire_musterUs (s : State) (len n : Nat) : (s.retire len n).musterUs = s.musterUs := rfl
@[simp] theorem retire_musterNext (s : State) (len n : Nat) : (s.retire len n).musterNext = s.musterNext := rfl
@[simp] theorem retire_shepNext (s : State) (len n : Nat) : (s.retire len n).shepNext = s.shepNext := rfl
@[simp] theorem retire_ports (s : State) (len n : Nat) : (s.retire len n).ports = s.ports := rfl
@[simp] theorem retire_transit (s : State) (len n : Nat) : (s.retire len n).transit = s.transit := rfl
@[simp] theorem retire_phase (s : State) (len n : Nat) : (s.retire len n).phase = s.phase := rfl
@[simp] theorem retire_turn (s : State) (len n : Nat) : (s.retire len n).turn = s.turn := rfl
@[simp] theorem retire_cur (s : State) (len n : Nat) : (s.retire len n).cur = s.cur := rfl
@[simp] theorem retire_evIss (s : State) (len n : Nat) : (s.retire len n).evIss = s.evIss := rfl
@[simp] theorem retire_agenda (s : State) (len n : Nat) : (s.retire len n).agenda = s.agenda := rfl
@[simp] theorem retire_effs (s : State) (len n : Nat) : (s.retire len n).effs = s.effs := rfl
@[simp] theorem retire_causes (s : State) (len n : Nat) : (s.retire len n).causes = s.causes := rfl
@[simp] theorem retire_before (s : State) (len n : Nat) : (s.retire len n).before = s.before := rfl
@[simp] theorem retire_outbox (s : State) (len n : Nat) : (s.retire len n).outbox = s.outbox := rfl
@[simp] theorem retire_serial (s : State) (len n : Nat) : (s.retire len n).serial = s.serial := rfl
@[simp] theorem retire_free (s : State) (len n : Nat) : (s.retire len n).free = s.free := rfl

@[simp] theorem setSpadByte_cyc (s : State) (a : Nat) (b : Byte) : (s.setSpadByte a b).cyc = s.cyc := rfl
@[simp] theorem setSpadByte_drone (s : State) (a : Nat) (b : Byte) : (s.setSpadByte a b).drone = s.drone := rfl
@[simp] theorem setSpadByte_droneRem (s : State) (a : Nat) (b : Byte) : (s.setSpadByte a b).droneRem = s.droneRem := rfl
@[simp] theorem setSpadByte_slew (s : State) (a : Nat) (b : Byte) : (s.setSpadByte a b).slew = s.slew := rfl
@[simp] theorem setSpadByte_served (s : State) (a : Nat) (b : Byte) : (s.setSpadByte a b).served = s.served := rfl
@[simp] theorem setSpadByte_n65 (s : State) (a : Nat) (b : Byte) : (s.setSpadByte a b).n65 = s.n65 := rfl
@[simp] theorem setSpadByte_droop (s : State) (a : Nat) (b : Byte) : (s.setSpadByte a b).droop = s.droop := rfl
@[simp] theorem setSpadByte_catchUp (s : State) (a : Nat) (b : Byte) : (s.setSpadByte a b).catchUp = s.catchUp := rfl
@[simp] theorem setSpadByte_pitch (s : State) (a : Nat) (b : Byte) : (s.setSpadByte a b).pitch = s.pitch := rfl
@[simp] theorem setSpadByte_epoch (s : State) (a : Nat) (b : Byte) : (s.setSpadByte a b).epoch = s.epoch := rfl
@[simp] theorem setSpadByte_limit (s : State) (a : Nat) (b : Byte) : (s.setSpadByte a b).limit = s.limit := rfl
@[simp] theorem setSpadByte_forecasts (s : State) (a : Nat) (b : Byte) : (s.setSpadByte a b).forecasts = s.forecasts := rfl
@[simp] theorem setSpadByte_emerg (s : State) (a : Nat) (b : Byte) : (s.setSpadByte a b).emerg = s.emerg := rfl
@[simp] theorem setSpadByte_group (s : State) (a : Nat) (b : Byte) : (s.setSpadByte a b).group = s.group := rfl
@[simp] theorem setSpadByte_stage (s : State) (a : Nat) (b : Byte) : (s.setSpadByte a b).stage = s.stage := rfl
@[simp] theorem setSpadByte_err (s : State) (a : Nat) (b : Byte) : (s.setSpadByte a b).err = s.err := rfl
@[simp] theorem setSpadByte_errV (s : State) (a : Nat) (b : Byte) : (s.setSpadByte a b).errV = s.errV := rfl
@[simp] theorem setSpadByte_ready (s : State) (a : Nat) (b : Byte) : (s.setSpadByte a b).ready = s.ready := rfl
@[simp] theorem setSpadByte_alarm (s : State) (a : Nat) (b : Byte) : (s.setSpadByte a b).alarm = s.alarm := rfl
@[simp] theorem setSpadByte_alarmAt (s : State) (a : Nat) (b : Byte) : (s.setSpadByte a b).alarmAt = s.alarmAt := rfl
@[simp] theorem setSpadByte_outOfRange (s : State) (a : Nat) (b : Byte) : (s.setSpadByte a b).outOfRange = s.outOfRange := rfl
@[simp] theorem setSpadByte_keys (s : State) (a : Nat) (b : Byte) : (s.setSpadByte a b).keys = s.keys := rfl
@[simp] theorem setSpadByte_eraseMask (s : State) (a : Nat) (b : Byte) : (s.setSpadByte a b).eraseMask = s.eraseMask := rfl
@[simp] theorem setSpadByte_erased (s : State) (a : Nat) (b : Byte) : (s.setSpadByte a b).erased = s.erased := rfl
@[simp] theorem setSpadByte_keyBlobs (s : State) (a : Nat) (b : Byte) : (s.setSpadByte a b).keyBlobs = s.keyBlobs := rfl
@[simp] theorem setSpadByte_minVersion (s : State) (a : Nat) (b : Byte) : (s.setSpadByte a b).minVersion = s.minVersion := rfl
@[simp] theorem setSpadByte_cxl (s : State) (a : Nat) (b : Byte) : (s.setSpadByte a b).cxl = s.cxl := rfl
@[simp] theorem setSpadByte_trayCap (s : State) (a : Nat) (b : Byte) : (s.setSpadByte a b).trayCap = s.trayCap := rfl
@[simp] theorem setSpadByte_repair (s : State) (a : Nat) (b : Byte) : (s.setSpadByte a b).repair = s.repair := rfl
@[simp] theorem setSpadByte_spdm (s : State) (a : Nat) (b : Byte) : (s.setSpadByte a b).spdm = s.spdm := rfl
@[simp] theorem setSpadByte_bar0 (s : State) (a : Nat) (b : Byte) : (s.setSpadByte a b).bar0 = s.bar0 := rfl
@[simp] theorem setSpadByte_fwCalls (s : State) (a : Nat) (b : Byte) : (s.setSpadByte a b).fwCalls = s.fwCalls := rfl
@[simp] theorem setSpadByte_roots (s : State) (a : Nat) (b : Byte) : (s.setSpadByte a b).roots = s.roots := rfl
@[simp] theorem setSpadByte_lost (s : State) (a : Nat) (b : Byte) : (s.setSpadByte a b).lost = s.lost := rfl
@[simp] theorem setSpadByte_bound (s : State) (a : Nat) (b : Byte) : (s.setSpadByte a b).bound = s.bound := rfl
@[simp] theorem setSpadByte_cacheOn (s : State) (a : Nat) (b : Byte) : (s.setSpadByte a b).cacheOn = s.cacheOn := rfl
@[simp] theorem setSpadByte_hostDown (s : State) (a : Nat) (b : Byte) : (s.setSpadByte a b).hostDown = s.hostDown := rfl
@[simp] theorem setSpadByte_regionGuards (s : State) (a : Nat) (b : Byte) : (s.setSpadByte a b).regionGuards = s.regionGuards := rfl
@[simp] theorem setSpadByte_guardRecs (s : State) (a : Nat) (b : Byte) : (s.setSpadByte a b).guardRecs = s.guardRecs := rfl
@[simp] theorem setSpadByte_dieVersion (s : State) (a : Nat) (b : Byte) : (s.setSpadByte a b).dieVersion = s.dieVersion := rfl
@[simp] theorem setSpadByte_dieImages (s : State) (a : Nat) (b : Byte) : (s.setSpadByte a b).dieImages = s.dieImages := rfl
@[simp] theorem setSpadByte_retired (s : State) (a : Nat) (b : Byte) : (s.setSpadByte a b).retired = s.retired := rfl
@[simp] theorem setSpadByte_poisoned (s : State) (a : Nat) (b : Byte) : (s.setSpadByte a b).poisoned = s.poisoned := rfl
@[simp] theorem setSpadByte_badDev (s : State) (a : Nat) (b : Byte) : (s.setSpadByte a b).badDev = s.badDev := rfl
@[simp] theorem setSpadByte_badSpad (s : State) (a : Nat) (b : Byte) : (s.setSpadByte a b).badSpad = s.badSpad := rfl
@[simp] theorem setSpadByte_badHost (s : State) (a : Nat) (b : Byte) : (s.setSpadByte a b).badHost = s.badHost := rfl
@[simp] theorem setSpadByte_retrain (s : State) (a : Nat) (b : Byte) : (s.setSpadByte a b).retrain = s.retrain := rfl
@[simp] theorem setSpadByte_cores (s : State) (a : Nat) (b : Byte) : (s.setSpadByte a b).cores = s.cores := rfl
@[simp] theorem setSpadByte_active (s : State) (a : Nat) (b : Byte) : (s.setSpadByte a b).active = s.active := rfl
@[simp] theorem setSpadByte_spadSeed (s : State) (a : Nat) (b : Byte) : (s.setSpadByte a b).spadSeed = s.spadSeed := rfl
@[simp] theorem setSpadByte_dev (s : State) (a : Nat) (b : Byte) : (s.setSpadByte a b).dev = s.dev := rfl
@[simp] theorem setSpadByte_devKeys (s : State) (a : Nat) (b : Byte) : (s.setSpadByte a b).devKeys = s.devKeys := rfl
@[simp] theorem setSpadByte_host (s : State) (a : Nat) (b : Byte) : (s.setSpadByte a b).host = s.host := rfl
@[simp] theorem setSpadByte_code (s : State) (a : Nat) (b : Byte) : (s.setSpadByte a b).code = s.code := rfl
@[simp] theorem setSpadByte_codeSh (s : State) (a : Nat) (b : Byte) : (s.setSpadByte a b).codeSh = s.codeSh := rfl
@[simp] theorem setSpadByte_queues (s : State) (a : Nat) (b : Byte) : (s.setSpadByte a b).queues = s.queues := rfl
@[simp] theorem setSpadByte_parts (s : State) (a : Nat) (b : Byte) : (s.setSpadByte a b).parts = s.parts := rfl
@[simp] theorem setSpadByte_fabric (s : State) (a : Nat) (b : Byte) : (s.setSpadByte a b).fabric = s.fabric := rfl
@[simp] theorem setSpadByte_detour (s : State) (a : Nat) (b : Byte) : (s.setSpadByte a b).detour = s.detour := rfl
@[simp] theorem setSpadByte_window (s : State) (a : Nat) (b : Byte) : (s.setSpadByte a b).window = s.window := rfl
@[simp] theorem setSpadByte_images (s : State) (a : Nat) (b : Byte) : (s.setSpadByte a b).images = s.images := rfl
@[simp] theorem setSpadByte_nodes (s : State) (a : Nat) (b : Byte) : (s.setSpadByte a b).nodes = s.nodes := rfl
@[simp] theorem setSpadByte_rr (s : State) (a : Nat) (b : Byte) : (s.setSpadByte a b).rr = s.rr := rfl
@[simp] theorem setSpadByte_musterUs (s : State) (a : Nat) (b : Byte) : (s.setSpadByte a b).musterUs = s.musterUs := rfl
@[simp] theorem setSpadByte_musterNext (s : State) (a : Nat) (b : Byte) : (s.setSpadByte a b).musterNext = s.musterNext := rfl
@[simp] theorem setSpadByte_shepNext (s : State) (a : Nat) (b : Byte) : (s.setSpadByte a b).shepNext = s.shepNext := rfl
@[simp] theorem setSpadByte_ports (s : State) (a : Nat) (b : Byte) : (s.setSpadByte a b).ports = s.ports := rfl
@[simp] theorem setSpadByte_transit (s : State) (a : Nat) (b : Byte) : (s.setSpadByte a b).transit = s.transit := rfl
@[simp] theorem setSpadByte_phase (s : State) (a : Nat) (b : Byte) : (s.setSpadByte a b).phase = s.phase := rfl
@[simp] theorem setSpadByte_turn (s : State) (a : Nat) (b : Byte) : (s.setSpadByte a b).turn = s.turn := rfl
@[simp] theorem setSpadByte_cur (s : State) (a : Nat) (b : Byte) : (s.setSpadByte a b).cur = s.cur := rfl
@[simp] theorem setSpadByte_evIss (s : State) (a : Nat) (b : Byte) : (s.setSpadByte a b).evIss = s.evIss := rfl
@[simp] theorem setSpadByte_agenda (s : State) (a : Nat) (b : Byte) : (s.setSpadByte a b).agenda = s.agenda := rfl
@[simp] theorem setSpadByte_effs (s : State) (a : Nat) (b : Byte) : (s.setSpadByte a b).effs = s.effs := rfl
@[simp] theorem setSpadByte_causes (s : State) (a : Nat) (b : Byte) : (s.setSpadByte a b).causes = s.causes := rfl
@[simp] theorem setSpadByte_before (s : State) (a : Nat) (b : Byte) : (s.setSpadByte a b).before = s.before := rfl
@[simp] theorem setSpadByte_outbox (s : State) (a : Nat) (b : Byte) : (s.setSpadByte a b).outbox = s.outbox := rfl
@[simp] theorem setSpadByte_serial (s : State) (a : Nat) (b : Byte) : (s.setSpadByte a b).serial = s.serial := rfl
@[simp] theorem setSpadByte_free (s : State) (a : Nat) (b : Byte) : (s.setSpadByte a b).free = s.free := rfl

@[simp] theorem setDevBytes_cyc (s : State) (a : Nat) (bs : List Byte) : (s.setDevBytes a bs).cyc = s.cyc := rfl
@[simp] theorem setDevBytes_drone (s : State) (a : Nat) (bs : List Byte) : (s.setDevBytes a bs).drone = s.drone := rfl
@[simp] theorem setDevBytes_droneRem (s : State) (a : Nat) (bs : List Byte) : (s.setDevBytes a bs).droneRem = s.droneRem := rfl
@[simp] theorem setDevBytes_slew (s : State) (a : Nat) (bs : List Byte) : (s.setDevBytes a bs).slew = s.slew := rfl
@[simp] theorem setDevBytes_served (s : State) (a : Nat) (bs : List Byte) : (s.setDevBytes a bs).served = s.served := rfl
@[simp] theorem setDevBytes_n65 (s : State) (a : Nat) (bs : List Byte) : (s.setDevBytes a bs).n65 = s.n65 := rfl
@[simp] theorem setDevBytes_droop (s : State) (a : Nat) (bs : List Byte) : (s.setDevBytes a bs).droop = s.droop := rfl
@[simp] theorem setDevBytes_catchUp (s : State) (a : Nat) (bs : List Byte) : (s.setDevBytes a bs).catchUp = s.catchUp := rfl
@[simp] theorem setDevBytes_pitch (s : State) (a : Nat) (bs : List Byte) : (s.setDevBytes a bs).pitch = s.pitch := rfl
@[simp] theorem setDevBytes_epoch (s : State) (a : Nat) (bs : List Byte) : (s.setDevBytes a bs).epoch = s.epoch := rfl
@[simp] theorem setDevBytes_limit (s : State) (a : Nat) (bs : List Byte) : (s.setDevBytes a bs).limit = s.limit := rfl
@[simp] theorem setDevBytes_forecasts (s : State) (a : Nat) (bs : List Byte) : (s.setDevBytes a bs).forecasts = s.forecasts := rfl
@[simp] theorem setDevBytes_emerg (s : State) (a : Nat) (bs : List Byte) : (s.setDevBytes a bs).emerg = s.emerg := rfl
@[simp] theorem setDevBytes_group (s : State) (a : Nat) (bs : List Byte) : (s.setDevBytes a bs).group = s.group := rfl
@[simp] theorem setDevBytes_stage (s : State) (a : Nat) (bs : List Byte) : (s.setDevBytes a bs).stage = s.stage := rfl
@[simp] theorem setDevBytes_err (s : State) (a : Nat) (bs : List Byte) : (s.setDevBytes a bs).err = s.err := rfl
@[simp] theorem setDevBytes_errV (s : State) (a : Nat) (bs : List Byte) : (s.setDevBytes a bs).errV = s.errV := rfl
@[simp] theorem setDevBytes_ready (s : State) (a : Nat) (bs : List Byte) : (s.setDevBytes a bs).ready = s.ready := rfl
@[simp] theorem setDevBytes_alarm (s : State) (a : Nat) (bs : List Byte) : (s.setDevBytes a bs).alarm = s.alarm := rfl
@[simp] theorem setDevBytes_alarmAt (s : State) (a : Nat) (bs : List Byte) : (s.setDevBytes a bs).alarmAt = s.alarmAt := rfl
@[simp] theorem setDevBytes_outOfRange (s : State) (a : Nat) (bs : List Byte) : (s.setDevBytes a bs).outOfRange = s.outOfRange := rfl
@[simp] theorem setDevBytes_keys (s : State) (a : Nat) (bs : List Byte) : (s.setDevBytes a bs).keys = s.keys := rfl
@[simp] theorem setDevBytes_eraseMask (s : State) (a : Nat) (bs : List Byte) : (s.setDevBytes a bs).eraseMask = s.eraseMask := rfl
@[simp] theorem setDevBytes_erased (s : State) (a : Nat) (bs : List Byte) : (s.setDevBytes a bs).erased = s.erased := rfl
@[simp] theorem setDevBytes_keyBlobs (s : State) (a : Nat) (bs : List Byte) : (s.setDevBytes a bs).keyBlobs = s.keyBlobs := rfl
@[simp] theorem setDevBytes_minVersion (s : State) (a : Nat) (bs : List Byte) : (s.setDevBytes a bs).minVersion = s.minVersion := rfl
@[simp] theorem setDevBytes_cxl (s : State) (a : Nat) (bs : List Byte) : (s.setDevBytes a bs).cxl = s.cxl := rfl
@[simp] theorem setDevBytes_trayCap (s : State) (a : Nat) (bs : List Byte) : (s.setDevBytes a bs).trayCap = s.trayCap := rfl
@[simp] theorem setDevBytes_repair (s : State) (a : Nat) (bs : List Byte) : (s.setDevBytes a bs).repair = s.repair := rfl
@[simp] theorem setDevBytes_spdm (s : State) (a : Nat) (bs : List Byte) : (s.setDevBytes a bs).spdm = s.spdm := rfl
@[simp] theorem setDevBytes_bar0 (s : State) (a : Nat) (bs : List Byte) : (s.setDevBytes a bs).bar0 = s.bar0 := rfl
@[simp] theorem setDevBytes_fwCalls (s : State) (a : Nat) (bs : List Byte) : (s.setDevBytes a bs).fwCalls = s.fwCalls := rfl
@[simp] theorem setDevBytes_roots (s : State) (a : Nat) (bs : List Byte) : (s.setDevBytes a bs).roots = s.roots := rfl
@[simp] theorem setDevBytes_lost (s : State) (a : Nat) (bs : List Byte) : (s.setDevBytes a bs).lost = s.lost := rfl
@[simp] theorem setDevBytes_bound (s : State) (a : Nat) (bs : List Byte) : (s.setDevBytes a bs).bound = s.bound := rfl
@[simp] theorem setDevBytes_cacheOn (s : State) (a : Nat) (bs : List Byte) : (s.setDevBytes a bs).cacheOn = s.cacheOn := rfl
@[simp] theorem setDevBytes_hostDown (s : State) (a : Nat) (bs : List Byte) : (s.setDevBytes a bs).hostDown = s.hostDown := rfl
@[simp] theorem setDevBytes_regionGuards (s : State) (a : Nat) (bs : List Byte) : (s.setDevBytes a bs).regionGuards = s.regionGuards := rfl
@[simp] theorem setDevBytes_guardRecs (s : State) (a : Nat) (bs : List Byte) : (s.setDevBytes a bs).guardRecs = s.guardRecs := rfl
@[simp] theorem setDevBytes_dieVersion (s : State) (a : Nat) (bs : List Byte) : (s.setDevBytes a bs).dieVersion = s.dieVersion := rfl
@[simp] theorem setDevBytes_dieImages (s : State) (a : Nat) (bs : List Byte) : (s.setDevBytes a bs).dieImages = s.dieImages := rfl
@[simp] theorem setDevBytes_retired (s : State) (a : Nat) (bs : List Byte) : (s.setDevBytes a bs).retired = s.retired := rfl
@[simp] theorem setDevBytes_poisoned (s : State) (a : Nat) (bs : List Byte) : (s.setDevBytes a bs).poisoned = s.poisoned := rfl
@[simp] theorem setDevBytes_badDev (s : State) (a : Nat) (bs : List Byte) : (s.setDevBytes a bs).badDev = s.badDev := rfl
@[simp] theorem setDevBytes_badSpad (s : State) (a : Nat) (bs : List Byte) : (s.setDevBytes a bs).badSpad = s.badSpad := rfl
@[simp] theorem setDevBytes_badHost (s : State) (a : Nat) (bs : List Byte) : (s.setDevBytes a bs).badHost = s.badHost := rfl
@[simp] theorem setDevBytes_retrain (s : State) (a : Nat) (bs : List Byte) : (s.setDevBytes a bs).retrain = s.retrain := rfl
@[simp] theorem setDevBytes_cores (s : State) (a : Nat) (bs : List Byte) : (s.setDevBytes a bs).cores = s.cores := rfl
@[simp] theorem setDevBytes_active (s : State) (a : Nat) (bs : List Byte) : (s.setDevBytes a bs).active = s.active := rfl
@[simp] theorem setDevBytes_spad (s : State) (a : Nat) (bs : List Byte) : (s.setDevBytes a bs).spad = s.spad := rfl
@[simp] theorem setDevBytes_spadSeed (s : State) (a : Nat) (bs : List Byte) : (s.setDevBytes a bs).spadSeed = s.spadSeed := rfl
@[simp] theorem setDevBytes_devKeys (s : State) (a : Nat) (bs : List Byte) : (s.setDevBytes a bs).devKeys = s.devKeys := rfl
@[simp] theorem setDevBytes_host (s : State) (a : Nat) (bs : List Byte) : (s.setDevBytes a bs).host = s.host := rfl
@[simp] theorem setDevBytes_code (s : State) (a : Nat) (bs : List Byte) : (s.setDevBytes a bs).code = s.code := rfl
@[simp] theorem setDevBytes_codeSh (s : State) (a : Nat) (bs : List Byte) : (s.setDevBytes a bs).codeSh = s.codeSh := rfl
@[simp] theorem setDevBytes_queues (s : State) (a : Nat) (bs : List Byte) : (s.setDevBytes a bs).queues = s.queues := rfl
@[simp] theorem setDevBytes_parts (s : State) (a : Nat) (bs : List Byte) : (s.setDevBytes a bs).parts = s.parts := rfl
@[simp] theorem setDevBytes_fabric (s : State) (a : Nat) (bs : List Byte) : (s.setDevBytes a bs).fabric = s.fabric := rfl
@[simp] theorem setDevBytes_detour (s : State) (a : Nat) (bs : List Byte) : (s.setDevBytes a bs).detour = s.detour := rfl
@[simp] theorem setDevBytes_window (s : State) (a : Nat) (bs : List Byte) : (s.setDevBytes a bs).window = s.window := rfl
@[simp] theorem setDevBytes_images (s : State) (a : Nat) (bs : List Byte) : (s.setDevBytes a bs).images = s.images := rfl
@[simp] theorem setDevBytes_nodes (s : State) (a : Nat) (bs : List Byte) : (s.setDevBytes a bs).nodes = s.nodes := rfl
@[simp] theorem setDevBytes_rr (s : State) (a : Nat) (bs : List Byte) : (s.setDevBytes a bs).rr = s.rr := rfl
@[simp] theorem setDevBytes_musterUs (s : State) (a : Nat) (bs : List Byte) : (s.setDevBytes a bs).musterUs = s.musterUs := rfl
@[simp] theorem setDevBytes_musterNext (s : State) (a : Nat) (bs : List Byte) : (s.setDevBytes a bs).musterNext = s.musterNext := rfl
@[simp] theorem setDevBytes_shepNext (s : State) (a : Nat) (bs : List Byte) : (s.setDevBytes a bs).shepNext = s.shepNext := rfl
@[simp] theorem setDevBytes_ports (s : State) (a : Nat) (bs : List Byte) : (s.setDevBytes a bs).ports = s.ports := rfl
@[simp] theorem setDevBytes_transit (s : State) (a : Nat) (bs : List Byte) : (s.setDevBytes a bs).transit = s.transit := rfl
@[simp] theorem setDevBytes_phase (s : State) (a : Nat) (bs : List Byte) : (s.setDevBytes a bs).phase = s.phase := rfl
@[simp] theorem setDevBytes_turn (s : State) (a : Nat) (bs : List Byte) : (s.setDevBytes a bs).turn = s.turn := rfl
@[simp] theorem setDevBytes_cur (s : State) (a : Nat) (bs : List Byte) : (s.setDevBytes a bs).cur = s.cur := rfl
@[simp] theorem setDevBytes_evIss (s : State) (a : Nat) (bs : List Byte) : (s.setDevBytes a bs).evIss = s.evIss := rfl
@[simp] theorem setDevBytes_agenda (s : State) (a : Nat) (bs : List Byte) : (s.setDevBytes a bs).agenda = s.agenda := rfl
@[simp] theorem setDevBytes_effs (s : State) (a : Nat) (bs : List Byte) : (s.setDevBytes a bs).effs = s.effs := rfl
@[simp] theorem setDevBytes_causes (s : State) (a : Nat) (bs : List Byte) : (s.setDevBytes a bs).causes = s.causes := rfl
@[simp] theorem setDevBytes_before (s : State) (a : Nat) (bs : List Byte) : (s.setDevBytes a bs).before = s.before := rfl
@[simp] theorem setDevBytes_outbox (s : State) (a : Nat) (bs : List Byte) : (s.setDevBytes a bs).outbox = s.outbox := rfl
@[simp] theorem setDevBytes_serial (s : State) (a : Nat) (bs : List Byte) : (s.setDevBytes a bs).serial = s.serial := rfl
@[simp] theorem setDevBytes_free (s : State) (a : Nat) (bs : List Byte) : (s.setDevBytes a bs).free = s.free := rfl

@[simp] theorem setHostBytes_cyc (s : State) (p a : Nat) (bs : List Byte) : (s.setHostBytes p a bs).cyc = s.cyc := rfl
@[simp] theorem setHostBytes_drone (s : State) (p a : Nat) (bs : List Byte) : (s.setHostBytes p a bs).drone = s.drone := rfl
@[simp] theorem setHostBytes_droneRem (s : State) (p a : Nat) (bs : List Byte) : (s.setHostBytes p a bs).droneRem = s.droneRem := rfl
@[simp] theorem setHostBytes_slew (s : State) (p a : Nat) (bs : List Byte) : (s.setHostBytes p a bs).slew = s.slew := rfl
@[simp] theorem setHostBytes_served (s : State) (p a : Nat) (bs : List Byte) : (s.setHostBytes p a bs).served = s.served := rfl
@[simp] theorem setHostBytes_n65 (s : State) (p a : Nat) (bs : List Byte) : (s.setHostBytes p a bs).n65 = s.n65 := rfl
@[simp] theorem setHostBytes_droop (s : State) (p a : Nat) (bs : List Byte) : (s.setHostBytes p a bs).droop = s.droop := rfl
@[simp] theorem setHostBytes_catchUp (s : State) (p a : Nat) (bs : List Byte) : (s.setHostBytes p a bs).catchUp = s.catchUp := rfl
@[simp] theorem setHostBytes_pitch (s : State) (p a : Nat) (bs : List Byte) : (s.setHostBytes p a bs).pitch = s.pitch := rfl
@[simp] theorem setHostBytes_epoch (s : State) (p a : Nat) (bs : List Byte) : (s.setHostBytes p a bs).epoch = s.epoch := rfl
@[simp] theorem setHostBytes_limit (s : State) (p a : Nat) (bs : List Byte) : (s.setHostBytes p a bs).limit = s.limit := rfl
@[simp] theorem setHostBytes_forecasts (s : State) (p a : Nat) (bs : List Byte) : (s.setHostBytes p a bs).forecasts = s.forecasts := rfl
@[simp] theorem setHostBytes_emerg (s : State) (p a : Nat) (bs : List Byte) : (s.setHostBytes p a bs).emerg = s.emerg := rfl
@[simp] theorem setHostBytes_group (s : State) (p a : Nat) (bs : List Byte) : (s.setHostBytes p a bs).group = s.group := rfl
@[simp] theorem setHostBytes_stage (s : State) (p a : Nat) (bs : List Byte) : (s.setHostBytes p a bs).stage = s.stage := rfl
@[simp] theorem setHostBytes_err (s : State) (p a : Nat) (bs : List Byte) : (s.setHostBytes p a bs).err = s.err := rfl
@[simp] theorem setHostBytes_errV (s : State) (p a : Nat) (bs : List Byte) : (s.setHostBytes p a bs).errV = s.errV := rfl
@[simp] theorem setHostBytes_ready (s : State) (p a : Nat) (bs : List Byte) : (s.setHostBytes p a bs).ready = s.ready := rfl
@[simp] theorem setHostBytes_alarm (s : State) (p a : Nat) (bs : List Byte) : (s.setHostBytes p a bs).alarm = s.alarm := rfl
@[simp] theorem setHostBytes_alarmAt (s : State) (p a : Nat) (bs : List Byte) : (s.setHostBytes p a bs).alarmAt = s.alarmAt := rfl
@[simp] theorem setHostBytes_outOfRange (s : State) (p a : Nat) (bs : List Byte) : (s.setHostBytes p a bs).outOfRange = s.outOfRange := rfl
@[simp] theorem setHostBytes_keys (s : State) (p a : Nat) (bs : List Byte) : (s.setHostBytes p a bs).keys = s.keys := rfl
@[simp] theorem setHostBytes_eraseMask (s : State) (p a : Nat) (bs : List Byte) : (s.setHostBytes p a bs).eraseMask = s.eraseMask := rfl
@[simp] theorem setHostBytes_erased (s : State) (p a : Nat) (bs : List Byte) : (s.setHostBytes p a bs).erased = s.erased := rfl
@[simp] theorem setHostBytes_keyBlobs (s : State) (p a : Nat) (bs : List Byte) : (s.setHostBytes p a bs).keyBlobs = s.keyBlobs := rfl
@[simp] theorem setHostBytes_minVersion (s : State) (p a : Nat) (bs : List Byte) : (s.setHostBytes p a bs).minVersion = s.minVersion := rfl
@[simp] theorem setHostBytes_cxl (s : State) (p a : Nat) (bs : List Byte) : (s.setHostBytes p a bs).cxl = s.cxl := rfl
@[simp] theorem setHostBytes_trayCap (s : State) (p a : Nat) (bs : List Byte) : (s.setHostBytes p a bs).trayCap = s.trayCap := rfl
@[simp] theorem setHostBytes_repair (s : State) (p a : Nat) (bs : List Byte) : (s.setHostBytes p a bs).repair = s.repair := rfl
@[simp] theorem setHostBytes_spdm (s : State) (p a : Nat) (bs : List Byte) : (s.setHostBytes p a bs).spdm = s.spdm := rfl
@[simp] theorem setHostBytes_bar0 (s : State) (p a : Nat) (bs : List Byte) : (s.setHostBytes p a bs).bar0 = s.bar0 := rfl
@[simp] theorem setHostBytes_fwCalls (s : State) (p a : Nat) (bs : List Byte) : (s.setHostBytes p a bs).fwCalls = s.fwCalls := rfl
@[simp] theorem setHostBytes_roots (s : State) (p a : Nat) (bs : List Byte) : (s.setHostBytes p a bs).roots = s.roots := rfl
@[simp] theorem setHostBytes_lost (s : State) (p a : Nat) (bs : List Byte) : (s.setHostBytes p a bs).lost = s.lost := rfl
@[simp] theorem setHostBytes_bound (s : State) (p a : Nat) (bs : List Byte) : (s.setHostBytes p a bs).bound = s.bound := rfl
@[simp] theorem setHostBytes_cacheOn (s : State) (p a : Nat) (bs : List Byte) : (s.setHostBytes p a bs).cacheOn = s.cacheOn := rfl
@[simp] theorem setHostBytes_hostDown (s : State) (p a : Nat) (bs : List Byte) : (s.setHostBytes p a bs).hostDown = s.hostDown := rfl
@[simp] theorem setHostBytes_regionGuards (s : State) (p a : Nat) (bs : List Byte) : (s.setHostBytes p a bs).regionGuards = s.regionGuards := rfl
@[simp] theorem setHostBytes_guardRecs (s : State) (p a : Nat) (bs : List Byte) : (s.setHostBytes p a bs).guardRecs = s.guardRecs := rfl
@[simp] theorem setHostBytes_dieVersion (s : State) (p a : Nat) (bs : List Byte) : (s.setHostBytes p a bs).dieVersion = s.dieVersion := rfl
@[simp] theorem setHostBytes_dieImages (s : State) (p a : Nat) (bs : List Byte) : (s.setHostBytes p a bs).dieImages = s.dieImages := rfl
@[simp] theorem setHostBytes_retired (s : State) (p a : Nat) (bs : List Byte) : (s.setHostBytes p a bs).retired = s.retired := rfl
@[simp] theorem setHostBytes_poisoned (s : State) (p a : Nat) (bs : List Byte) : (s.setHostBytes p a bs).poisoned = s.poisoned := rfl
@[simp] theorem setHostBytes_badDev (s : State) (p a : Nat) (bs : List Byte) : (s.setHostBytes p a bs).badDev = s.badDev := rfl
@[simp] theorem setHostBytes_badSpad (s : State) (p a : Nat) (bs : List Byte) : (s.setHostBytes p a bs).badSpad = s.badSpad := rfl
@[simp] theorem setHostBytes_badHost (s : State) (p a : Nat) (bs : List Byte) : (s.setHostBytes p a bs).badHost = s.badHost := rfl
@[simp] theorem setHostBytes_retrain (s : State) (p a : Nat) (bs : List Byte) : (s.setHostBytes p a bs).retrain = s.retrain := rfl
@[simp] theorem setHostBytes_cores (s : State) (p a : Nat) (bs : List Byte) : (s.setHostBytes p a bs).cores = s.cores := rfl
@[simp] theorem setHostBytes_active (s : State) (p a : Nat) (bs : List Byte) : (s.setHostBytes p a bs).active = s.active := rfl
@[simp] theorem setHostBytes_spad (s : State) (p a : Nat) (bs : List Byte) : (s.setHostBytes p a bs).spad = s.spad := rfl
@[simp] theorem setHostBytes_spadSeed (s : State) (p a : Nat) (bs : List Byte) : (s.setHostBytes p a bs).spadSeed = s.spadSeed := rfl
@[simp] theorem setHostBytes_dev (s : State) (p a : Nat) (bs : List Byte) : (s.setHostBytes p a bs).dev = s.dev := rfl
@[simp] theorem setHostBytes_devKeys (s : State) (p a : Nat) (bs : List Byte) : (s.setHostBytes p a bs).devKeys = s.devKeys := rfl
@[simp] theorem setHostBytes_code (s : State) (p a : Nat) (bs : List Byte) : (s.setHostBytes p a bs).code = s.code := rfl
@[simp] theorem setHostBytes_codeSh (s : State) (p a : Nat) (bs : List Byte) : (s.setHostBytes p a bs).codeSh = s.codeSh := rfl
@[simp] theorem setHostBytes_queues (s : State) (p a : Nat) (bs : List Byte) : (s.setHostBytes p a bs).queues = s.queues := rfl
@[simp] theorem setHostBytes_parts (s : State) (p a : Nat) (bs : List Byte) : (s.setHostBytes p a bs).parts = s.parts := rfl
@[simp] theorem setHostBytes_fabric (s : State) (p a : Nat) (bs : List Byte) : (s.setHostBytes p a bs).fabric = s.fabric := rfl
@[simp] theorem setHostBytes_detour (s : State) (p a : Nat) (bs : List Byte) : (s.setHostBytes p a bs).detour = s.detour := rfl
@[simp] theorem setHostBytes_window (s : State) (p a : Nat) (bs : List Byte) : (s.setHostBytes p a bs).window = s.window := rfl
@[simp] theorem setHostBytes_images (s : State) (p a : Nat) (bs : List Byte) : (s.setHostBytes p a bs).images = s.images := rfl
@[simp] theorem setHostBytes_nodes (s : State) (p a : Nat) (bs : List Byte) : (s.setHostBytes p a bs).nodes = s.nodes := rfl
@[simp] theorem setHostBytes_rr (s : State) (p a : Nat) (bs : List Byte) : (s.setHostBytes p a bs).rr = s.rr := rfl
@[simp] theorem setHostBytes_musterUs (s : State) (p a : Nat) (bs : List Byte) : (s.setHostBytes p a bs).musterUs = s.musterUs := rfl
@[simp] theorem setHostBytes_musterNext (s : State) (p a : Nat) (bs : List Byte) : (s.setHostBytes p a bs).musterNext = s.musterNext := rfl
@[simp] theorem setHostBytes_shepNext (s : State) (p a : Nat) (bs : List Byte) : (s.setHostBytes p a bs).shepNext = s.shepNext := rfl
@[simp] theorem setHostBytes_ports (s : State) (p a : Nat) (bs : List Byte) : (s.setHostBytes p a bs).ports = s.ports := rfl
@[simp] theorem setHostBytes_transit (s : State) (p a : Nat) (bs : List Byte) : (s.setHostBytes p a bs).transit = s.transit := rfl
@[simp] theorem setHostBytes_phase (s : State) (p a : Nat) (bs : List Byte) : (s.setHostBytes p a bs).phase = s.phase := rfl
@[simp] theorem setHostBytes_turn (s : State) (p a : Nat) (bs : List Byte) : (s.setHostBytes p a bs).turn = s.turn := rfl
@[simp] theorem setHostBytes_cur (s : State) (p a : Nat) (bs : List Byte) : (s.setHostBytes p a bs).cur = s.cur := rfl
@[simp] theorem setHostBytes_evIss (s : State) (p a : Nat) (bs : List Byte) : (s.setHostBytes p a bs).evIss = s.evIss := rfl
@[simp] theorem setHostBytes_agenda (s : State) (p a : Nat) (bs : List Byte) : (s.setHostBytes p a bs).agenda = s.agenda := rfl
@[simp] theorem setHostBytes_effs (s : State) (p a : Nat) (bs : List Byte) : (s.setHostBytes p a bs).effs = s.effs := rfl
@[simp] theorem setHostBytes_causes (s : State) (p a : Nat) (bs : List Byte) : (s.setHostBytes p a bs).causes = s.causes := rfl
@[simp] theorem setHostBytes_before (s : State) (p a : Nat) (bs : List Byte) : (s.setHostBytes p a bs).before = s.before := rfl
@[simp] theorem setHostBytes_outbox (s : State) (p a : Nat) (bs : List Byte) : (s.setHostBytes p a bs).outbox = s.outbox := rfl
@[simp] theorem setHostBytes_serial (s : State) (p a : Nat) (bs : List Byte) : (s.setHostBytes p a bs).serial = s.serial := rfl
@[simp] theorem setHostBytes_free (s : State) (p a : Nat) (bs : List Byte) : (s.setHostBytes p a bs).free = s.free := rfl

@[simp] theorem writeKey_cyc (s : State) (slot a : Nat) (bs : List Byte) : (s.writeKey slot a bs).cyc = s.cyc := rfl
@[simp] theorem writeKey_drone (s : State) (slot a : Nat) (bs : List Byte) : (s.writeKey slot a bs).drone = s.drone := rfl
@[simp] theorem writeKey_droneRem (s : State) (slot a : Nat) (bs : List Byte) : (s.writeKey slot a bs).droneRem = s.droneRem := rfl
@[simp] theorem writeKey_slew (s : State) (slot a : Nat) (bs : List Byte) : (s.writeKey slot a bs).slew = s.slew := rfl
@[simp] theorem writeKey_served (s : State) (slot a : Nat) (bs : List Byte) : (s.writeKey slot a bs).served = s.served := rfl
@[simp] theorem writeKey_n65 (s : State) (slot a : Nat) (bs : List Byte) : (s.writeKey slot a bs).n65 = s.n65 := rfl
@[simp] theorem writeKey_droop (s : State) (slot a : Nat) (bs : List Byte) : (s.writeKey slot a bs).droop = s.droop := rfl
@[simp] theorem writeKey_catchUp (s : State) (slot a : Nat) (bs : List Byte) : (s.writeKey slot a bs).catchUp = s.catchUp := rfl
@[simp] theorem writeKey_pitch (s : State) (slot a : Nat) (bs : List Byte) : (s.writeKey slot a bs).pitch = s.pitch := rfl
@[simp] theorem writeKey_epoch (s : State) (slot a : Nat) (bs : List Byte) : (s.writeKey slot a bs).epoch = s.epoch := rfl
@[simp] theorem writeKey_limit (s : State) (slot a : Nat) (bs : List Byte) : (s.writeKey slot a bs).limit = s.limit := rfl
@[simp] theorem writeKey_forecasts (s : State) (slot a : Nat) (bs : List Byte) : (s.writeKey slot a bs).forecasts = s.forecasts := rfl
@[simp] theorem writeKey_emerg (s : State) (slot a : Nat) (bs : List Byte) : (s.writeKey slot a bs).emerg = s.emerg := rfl
@[simp] theorem writeKey_group (s : State) (slot a : Nat) (bs : List Byte) : (s.writeKey slot a bs).group = s.group := rfl
@[simp] theorem writeKey_stage (s : State) (slot a : Nat) (bs : List Byte) : (s.writeKey slot a bs).stage = s.stage := rfl
@[simp] theorem writeKey_err (s : State) (slot a : Nat) (bs : List Byte) : (s.writeKey slot a bs).err = s.err := rfl
@[simp] theorem writeKey_errV (s : State) (slot a : Nat) (bs : List Byte) : (s.writeKey slot a bs).errV = s.errV := rfl
@[simp] theorem writeKey_ready (s : State) (slot a : Nat) (bs : List Byte) : (s.writeKey slot a bs).ready = s.ready := rfl
@[simp] theorem writeKey_alarm (s : State) (slot a : Nat) (bs : List Byte) : (s.writeKey slot a bs).alarm = s.alarm := rfl
@[simp] theorem writeKey_alarmAt (s : State) (slot a : Nat) (bs : List Byte) : (s.writeKey slot a bs).alarmAt = s.alarmAt := rfl
@[simp] theorem writeKey_outOfRange (s : State) (slot a : Nat) (bs : List Byte) : (s.writeKey slot a bs).outOfRange = s.outOfRange := rfl
@[simp] theorem writeKey_keys (s : State) (slot a : Nat) (bs : List Byte) : (s.writeKey slot a bs).keys = s.keys := rfl
@[simp] theorem writeKey_eraseMask (s : State) (slot a : Nat) (bs : List Byte) : (s.writeKey slot a bs).eraseMask = s.eraseMask := rfl
@[simp] theorem writeKey_erased (s : State) (slot a : Nat) (bs : List Byte) : (s.writeKey slot a bs).erased = s.erased := rfl
@[simp] theorem writeKey_keyBlobs (s : State) (slot a : Nat) (bs : List Byte) : (s.writeKey slot a bs).keyBlobs = s.keyBlobs := rfl
@[simp] theorem writeKey_minVersion (s : State) (slot a : Nat) (bs : List Byte) : (s.writeKey slot a bs).minVersion = s.minVersion := rfl
@[simp] theorem writeKey_cxl (s : State) (slot a : Nat) (bs : List Byte) : (s.writeKey slot a bs).cxl = s.cxl := rfl
@[simp] theorem writeKey_trayCap (s : State) (slot a : Nat) (bs : List Byte) : (s.writeKey slot a bs).trayCap = s.trayCap := rfl
@[simp] theorem writeKey_repair (s : State) (slot a : Nat) (bs : List Byte) : (s.writeKey slot a bs).repair = s.repair := rfl
@[simp] theorem writeKey_spdm (s : State) (slot a : Nat) (bs : List Byte) : (s.writeKey slot a bs).spdm = s.spdm := rfl
@[simp] theorem writeKey_bar0 (s : State) (slot a : Nat) (bs : List Byte) : (s.writeKey slot a bs).bar0 = s.bar0 := rfl
@[simp] theorem writeKey_fwCalls (s : State) (slot a : Nat) (bs : List Byte) : (s.writeKey slot a bs).fwCalls = s.fwCalls := rfl
@[simp] theorem writeKey_roots (s : State) (slot a : Nat) (bs : List Byte) : (s.writeKey slot a bs).roots = s.roots := rfl
@[simp] theorem writeKey_lost (s : State) (slot a : Nat) (bs : List Byte) : (s.writeKey slot a bs).lost = s.lost := rfl
@[simp] theorem writeKey_bound (s : State) (slot a : Nat) (bs : List Byte) : (s.writeKey slot a bs).bound = s.bound := rfl
@[simp] theorem writeKey_cacheOn (s : State) (slot a : Nat) (bs : List Byte) : (s.writeKey slot a bs).cacheOn = s.cacheOn := rfl
@[simp] theorem writeKey_hostDown (s : State) (slot a : Nat) (bs : List Byte) : (s.writeKey slot a bs).hostDown = s.hostDown := rfl
@[simp] theorem writeKey_regionGuards (s : State) (slot a : Nat) (bs : List Byte) : (s.writeKey slot a bs).regionGuards = s.regionGuards := rfl
@[simp] theorem writeKey_guardRecs (s : State) (slot a : Nat) (bs : List Byte) : (s.writeKey slot a bs).guardRecs = s.guardRecs := rfl
@[simp] theorem writeKey_dieVersion (s : State) (slot a : Nat) (bs : List Byte) : (s.writeKey slot a bs).dieVersion = s.dieVersion := rfl
@[simp] theorem writeKey_dieImages (s : State) (slot a : Nat) (bs : List Byte) : (s.writeKey slot a bs).dieImages = s.dieImages := rfl
@[simp] theorem writeKey_retired (s : State) (slot a : Nat) (bs : List Byte) : (s.writeKey slot a bs).retired = s.retired := rfl
@[simp] theorem writeKey_poisoned (s : State) (slot a : Nat) (bs : List Byte) : (s.writeKey slot a bs).poisoned = s.poisoned := rfl
@[simp] theorem writeKey_badDev (s : State) (slot a : Nat) (bs : List Byte) : (s.writeKey slot a bs).badDev = s.badDev := rfl
@[simp] theorem writeKey_badSpad (s : State) (slot a : Nat) (bs : List Byte) : (s.writeKey slot a bs).badSpad = s.badSpad := rfl
@[simp] theorem writeKey_badHost (s : State) (slot a : Nat) (bs : List Byte) : (s.writeKey slot a bs).badHost = s.badHost := rfl
@[simp] theorem writeKey_retrain (s : State) (slot a : Nat) (bs : List Byte) : (s.writeKey slot a bs).retrain = s.retrain := rfl
@[simp] theorem writeKey_cores (s : State) (slot a : Nat) (bs : List Byte) : (s.writeKey slot a bs).cores = s.cores := rfl
@[simp] theorem writeKey_active (s : State) (slot a : Nat) (bs : List Byte) : (s.writeKey slot a bs).active = s.active := rfl
@[simp] theorem writeKey_spad (s : State) (slot a : Nat) (bs : List Byte) : (s.writeKey slot a bs).spad = s.spad := rfl
@[simp] theorem writeKey_spadSeed (s : State) (slot a : Nat) (bs : List Byte) : (s.writeKey slot a bs).spadSeed = s.spadSeed := rfl
@[simp] theorem writeKey_host (s : State) (slot a : Nat) (bs : List Byte) : (s.writeKey slot a bs).host = s.host := rfl
@[simp] theorem writeKey_code (s : State) (slot a : Nat) (bs : List Byte) : (s.writeKey slot a bs).code = s.code := rfl
@[simp] theorem writeKey_codeSh (s : State) (slot a : Nat) (bs : List Byte) : (s.writeKey slot a bs).codeSh = s.codeSh := rfl
@[simp] theorem writeKey_queues (s : State) (slot a : Nat) (bs : List Byte) : (s.writeKey slot a bs).queues = s.queues := rfl
@[simp] theorem writeKey_parts (s : State) (slot a : Nat) (bs : List Byte) : (s.writeKey slot a bs).parts = s.parts := rfl
@[simp] theorem writeKey_fabric (s : State) (slot a : Nat) (bs : List Byte) : (s.writeKey slot a bs).fabric = s.fabric := rfl
@[simp] theorem writeKey_detour (s : State) (slot a : Nat) (bs : List Byte) : (s.writeKey slot a bs).detour = s.detour := rfl
@[simp] theorem writeKey_window (s : State) (slot a : Nat) (bs : List Byte) : (s.writeKey slot a bs).window = s.window := rfl
@[simp] theorem writeKey_images (s : State) (slot a : Nat) (bs : List Byte) : (s.writeKey slot a bs).images = s.images := rfl
@[simp] theorem writeKey_nodes (s : State) (slot a : Nat) (bs : List Byte) : (s.writeKey slot a bs).nodes = s.nodes := rfl
@[simp] theorem writeKey_rr (s : State) (slot a : Nat) (bs : List Byte) : (s.writeKey slot a bs).rr = s.rr := rfl
@[simp] theorem writeKey_musterUs (s : State) (slot a : Nat) (bs : List Byte) : (s.writeKey slot a bs).musterUs = s.musterUs := rfl
@[simp] theorem writeKey_musterNext (s : State) (slot a : Nat) (bs : List Byte) : (s.writeKey slot a bs).musterNext = s.musterNext := rfl
@[simp] theorem writeKey_shepNext (s : State) (slot a : Nat) (bs : List Byte) : (s.writeKey slot a bs).shepNext = s.shepNext := rfl
@[simp] theorem writeKey_ports (s : State) (slot a : Nat) (bs : List Byte) : (s.writeKey slot a bs).ports = s.ports := rfl
@[simp] theorem writeKey_transit (s : State) (slot a : Nat) (bs : List Byte) : (s.writeKey slot a bs).transit = s.transit := rfl
@[simp] theorem writeKey_phase (s : State) (slot a : Nat) (bs : List Byte) : (s.writeKey slot a bs).phase = s.phase := rfl
@[simp] theorem writeKey_turn (s : State) (slot a : Nat) (bs : List Byte) : (s.writeKey slot a bs).turn = s.turn := rfl
@[simp] theorem writeKey_cur (s : State) (slot a : Nat) (bs : List Byte) : (s.writeKey slot a bs).cur = s.cur := rfl
@[simp] theorem writeKey_evIss (s : State) (slot a : Nat) (bs : List Byte) : (s.writeKey slot a bs).evIss = s.evIss := rfl
@[simp] theorem writeKey_agenda (s : State) (slot a : Nat) (bs : List Byte) : (s.writeKey slot a bs).agenda = s.agenda := rfl
@[simp] theorem writeKey_effs (s : State) (slot a : Nat) (bs : List Byte) : (s.writeKey slot a bs).effs = s.effs := rfl
@[simp] theorem writeKey_causes (s : State) (slot a : Nat) (bs : List Byte) : (s.writeKey slot a bs).causes = s.causes := rfl
@[simp] theorem writeKey_before (s : State) (slot a : Nat) (bs : List Byte) : (s.writeKey slot a bs).before = s.before := rfl
@[simp] theorem writeKey_outbox (s : State) (slot a : Nat) (bs : List Byte) : (s.writeKey slot a bs).outbox = s.outbox := rfl
@[simp] theorem writeKey_serial (s : State) (slot a : Nat) (bs : List Byte) : (s.writeKey slot a bs).serial = s.serial := rfl
@[simp] theorem writeKey_free (s : State) (slot a : Nat) (bs : List Byte) : (s.writeKey slot a bs).free = s.free := rfl

@[simp] theorem blankKey_cyc (s : State) (slot a n : Nat) : (s.blankKey slot a n).cyc = s.cyc := rfl
@[simp] theorem blankKey_drone (s : State) (slot a n : Nat) : (s.blankKey slot a n).drone = s.drone := rfl
@[simp] theorem blankKey_droneRem (s : State) (slot a n : Nat) : (s.blankKey slot a n).droneRem = s.droneRem := rfl
@[simp] theorem blankKey_slew (s : State) (slot a n : Nat) : (s.blankKey slot a n).slew = s.slew := rfl
@[simp] theorem blankKey_served (s : State) (slot a n : Nat) : (s.blankKey slot a n).served = s.served := rfl
@[simp] theorem blankKey_n65 (s : State) (slot a n : Nat) : (s.blankKey slot a n).n65 = s.n65 := rfl
@[simp] theorem blankKey_droop (s : State) (slot a n : Nat) : (s.blankKey slot a n).droop = s.droop := rfl
@[simp] theorem blankKey_catchUp (s : State) (slot a n : Nat) : (s.blankKey slot a n).catchUp = s.catchUp := rfl
@[simp] theorem blankKey_pitch (s : State) (slot a n : Nat) : (s.blankKey slot a n).pitch = s.pitch := rfl
@[simp] theorem blankKey_epoch (s : State) (slot a n : Nat) : (s.blankKey slot a n).epoch = s.epoch := rfl
@[simp] theorem blankKey_limit (s : State) (slot a n : Nat) : (s.blankKey slot a n).limit = s.limit := rfl
@[simp] theorem blankKey_forecasts (s : State) (slot a n : Nat) : (s.blankKey slot a n).forecasts = s.forecasts := rfl
@[simp] theorem blankKey_emerg (s : State) (slot a n : Nat) : (s.blankKey slot a n).emerg = s.emerg := rfl
@[simp] theorem blankKey_group (s : State) (slot a n : Nat) : (s.blankKey slot a n).group = s.group := rfl
@[simp] theorem blankKey_stage (s : State) (slot a n : Nat) : (s.blankKey slot a n).stage = s.stage := rfl
@[simp] theorem blankKey_err (s : State) (slot a n : Nat) : (s.blankKey slot a n).err = s.err := rfl
@[simp] theorem blankKey_errV (s : State) (slot a n : Nat) : (s.blankKey slot a n).errV = s.errV := rfl
@[simp] theorem blankKey_ready (s : State) (slot a n : Nat) : (s.blankKey slot a n).ready = s.ready := rfl
@[simp] theorem blankKey_alarm (s : State) (slot a n : Nat) : (s.blankKey slot a n).alarm = s.alarm := rfl
@[simp] theorem blankKey_alarmAt (s : State) (slot a n : Nat) : (s.blankKey slot a n).alarmAt = s.alarmAt := rfl
@[simp] theorem blankKey_outOfRange (s : State) (slot a n : Nat) : (s.blankKey slot a n).outOfRange = s.outOfRange := rfl
@[simp] theorem blankKey_keys (s : State) (slot a n : Nat) : (s.blankKey slot a n).keys = s.keys := rfl
@[simp] theorem blankKey_eraseMask (s : State) (slot a n : Nat) : (s.blankKey slot a n).eraseMask = s.eraseMask := rfl
@[simp] theorem blankKey_erased (s : State) (slot a n : Nat) : (s.blankKey slot a n).erased = s.erased := rfl
@[simp] theorem blankKey_keyBlobs (s : State) (slot a n : Nat) : (s.blankKey slot a n).keyBlobs = s.keyBlobs := rfl
@[simp] theorem blankKey_minVersion (s : State) (slot a n : Nat) : (s.blankKey slot a n).minVersion = s.minVersion := rfl
@[simp] theorem blankKey_cxl (s : State) (slot a n : Nat) : (s.blankKey slot a n).cxl = s.cxl := rfl
@[simp] theorem blankKey_trayCap (s : State) (slot a n : Nat) : (s.blankKey slot a n).trayCap = s.trayCap := rfl
@[simp] theorem blankKey_repair (s : State) (slot a n : Nat) : (s.blankKey slot a n).repair = s.repair := rfl
@[simp] theorem blankKey_spdm (s : State) (slot a n : Nat) : (s.blankKey slot a n).spdm = s.spdm := rfl
@[simp] theorem blankKey_bar0 (s : State) (slot a n : Nat) : (s.blankKey slot a n).bar0 = s.bar0 := rfl
@[simp] theorem blankKey_fwCalls (s : State) (slot a n : Nat) : (s.blankKey slot a n).fwCalls = s.fwCalls := rfl
@[simp] theorem blankKey_roots (s : State) (slot a n : Nat) : (s.blankKey slot a n).roots = s.roots := rfl
@[simp] theorem blankKey_lost (s : State) (slot a n : Nat) : (s.blankKey slot a n).lost = s.lost := rfl
@[simp] theorem blankKey_bound (s : State) (slot a n : Nat) : (s.blankKey slot a n).bound = s.bound := rfl
@[simp] theorem blankKey_cacheOn (s : State) (slot a n : Nat) : (s.blankKey slot a n).cacheOn = s.cacheOn := rfl
@[simp] theorem blankKey_hostDown (s : State) (slot a n : Nat) : (s.blankKey slot a n).hostDown = s.hostDown := rfl
@[simp] theorem blankKey_regionGuards (s : State) (slot a n : Nat) : (s.blankKey slot a n).regionGuards = s.regionGuards := rfl
@[simp] theorem blankKey_guardRecs (s : State) (slot a n : Nat) : (s.blankKey slot a n).guardRecs = s.guardRecs := rfl
@[simp] theorem blankKey_dieVersion (s : State) (slot a n : Nat) : (s.blankKey slot a n).dieVersion = s.dieVersion := rfl
@[simp] theorem blankKey_dieImages (s : State) (slot a n : Nat) : (s.blankKey slot a n).dieImages = s.dieImages := rfl
@[simp] theorem blankKey_retired (s : State) (slot a n : Nat) : (s.blankKey slot a n).retired = s.retired := rfl
@[simp] theorem blankKey_poisoned (s : State) (slot a n : Nat) : (s.blankKey slot a n).poisoned = s.poisoned := rfl
@[simp] theorem blankKey_badDev (s : State) (slot a n : Nat) : (s.blankKey slot a n).badDev = s.badDev := rfl
@[simp] theorem blankKey_badSpad (s : State) (slot a n : Nat) : (s.blankKey slot a n).badSpad = s.badSpad := rfl
@[simp] theorem blankKey_badHost (s : State) (slot a n : Nat) : (s.blankKey slot a n).badHost = s.badHost := rfl
@[simp] theorem blankKey_retrain (s : State) (slot a n : Nat) : (s.blankKey slot a n).retrain = s.retrain := rfl
@[simp] theorem blankKey_cores (s : State) (slot a n : Nat) : (s.blankKey slot a n).cores = s.cores := rfl
@[simp] theorem blankKey_active (s : State) (slot a n : Nat) : (s.blankKey slot a n).active = s.active := rfl
@[simp] theorem blankKey_spad (s : State) (slot a n : Nat) : (s.blankKey slot a n).spad = s.spad := rfl
@[simp] theorem blankKey_spadSeed (s : State) (slot a n : Nat) : (s.blankKey slot a n).spadSeed = s.spadSeed := rfl
@[simp] theorem blankKey_host (s : State) (slot a n : Nat) : (s.blankKey slot a n).host = s.host := rfl
@[simp] theorem blankKey_code (s : State) (slot a n : Nat) : (s.blankKey slot a n).code = s.code := rfl
@[simp] theorem blankKey_codeSh (s : State) (slot a n : Nat) : (s.blankKey slot a n).codeSh = s.codeSh := rfl
@[simp] theorem blankKey_queues (s : State) (slot a n : Nat) : (s.blankKey slot a n).queues = s.queues := rfl
@[simp] theorem blankKey_parts (s : State) (slot a n : Nat) : (s.blankKey slot a n).parts = s.parts := rfl
@[simp] theorem blankKey_fabric (s : State) (slot a n : Nat) : (s.blankKey slot a n).fabric = s.fabric := rfl
@[simp] theorem blankKey_detour (s : State) (slot a n : Nat) : (s.blankKey slot a n).detour = s.detour := rfl
@[simp] theorem blankKey_window (s : State) (slot a n : Nat) : (s.blankKey slot a n).window = s.window := rfl
@[simp] theorem blankKey_images (s : State) (slot a n : Nat) : (s.blankKey slot a n).images = s.images := rfl
@[simp] theorem blankKey_nodes (s : State) (slot a n : Nat) : (s.blankKey slot a n).nodes = s.nodes := rfl
@[simp] theorem blankKey_rr (s : State) (slot a n : Nat) : (s.blankKey slot a n).rr = s.rr := rfl
@[simp] theorem blankKey_musterUs (s : State) (slot a n : Nat) : (s.blankKey slot a n).musterUs = s.musterUs := rfl
@[simp] theorem blankKey_musterNext (s : State) (slot a n : Nat) : (s.blankKey slot a n).musterNext = s.musterNext := rfl
@[simp] theorem blankKey_shepNext (s : State) (slot a n : Nat) : (s.blankKey slot a n).shepNext = s.shepNext := rfl
@[simp] theorem blankKey_ports (s : State) (slot a n : Nat) : (s.blankKey slot a n).ports = s.ports := rfl
@[simp] theorem blankKey_transit (s : State) (slot a n : Nat) : (s.blankKey slot a n).transit = s.transit := rfl
@[simp] theorem blankKey_phase (s : State) (slot a n : Nat) : (s.blankKey slot a n).phase = s.phase := rfl
@[simp] theorem blankKey_turn (s : State) (slot a n : Nat) : (s.blankKey slot a n).turn = s.turn := rfl
@[simp] theorem blankKey_cur (s : State) (slot a n : Nat) : (s.blankKey slot a n).cur = s.cur := rfl
@[simp] theorem blankKey_evIss (s : State) (slot a n : Nat) : (s.blankKey slot a n).evIss = s.evIss := rfl
@[simp] theorem blankKey_agenda (s : State) (slot a n : Nat) : (s.blankKey slot a n).agenda = s.agenda := rfl
@[simp] theorem blankKey_effs (s : State) (slot a n : Nat) : (s.blankKey slot a n).effs = s.effs := rfl
@[simp] theorem blankKey_causes (s : State) (slot a n : Nat) : (s.blankKey slot a n).causes = s.causes := rfl
@[simp] theorem blankKey_before (s : State) (slot a n : Nat) : (s.blankKey slot a n).before = s.before := rfl
@[simp] theorem blankKey_outbox (s : State) (slot a n : Nat) : (s.blankKey slot a n).outbox = s.outbox := rfl
@[simp] theorem blankKey_serial (s : State) (slot a n : Nat) : (s.blankKey slot a n).serial = s.serial := rfl
@[simp] theorem blankKey_free (s : State) (slot a n : Nat) : (s.blankKey slot a n).free = s.free := rfl

@[simp] theorem setEntry_cyc (s : State) (a : Nat) (v : Dword) : (s.setEntry a v).cyc = s.cyc := rfl
@[simp] theorem setEntry_drone (s : State) (a : Nat) (v : Dword) : (s.setEntry a v).drone = s.drone := rfl
@[simp] theorem setEntry_droneRem (s : State) (a : Nat) (v : Dword) : (s.setEntry a v).droneRem = s.droneRem := rfl
@[simp] theorem setEntry_slew (s : State) (a : Nat) (v : Dword) : (s.setEntry a v).slew = s.slew := rfl
@[simp] theorem setEntry_served (s : State) (a : Nat) (v : Dword) : (s.setEntry a v).served = s.served := rfl
@[simp] theorem setEntry_n65 (s : State) (a : Nat) (v : Dword) : (s.setEntry a v).n65 = s.n65 := rfl
@[simp] theorem setEntry_droop (s : State) (a : Nat) (v : Dword) : (s.setEntry a v).droop = s.droop := rfl
@[simp] theorem setEntry_catchUp (s : State) (a : Nat) (v : Dword) : (s.setEntry a v).catchUp = s.catchUp := rfl
@[simp] theorem setEntry_pitch (s : State) (a : Nat) (v : Dword) : (s.setEntry a v).pitch = s.pitch := rfl
@[simp] theorem setEntry_epoch (s : State) (a : Nat) (v : Dword) : (s.setEntry a v).epoch = s.epoch := rfl
@[simp] theorem setEntry_limit (s : State) (a : Nat) (v : Dword) : (s.setEntry a v).limit = s.limit := rfl
@[simp] theorem setEntry_forecasts (s : State) (a : Nat) (v : Dword) : (s.setEntry a v).forecasts = s.forecasts := rfl
@[simp] theorem setEntry_emerg (s : State) (a : Nat) (v : Dword) : (s.setEntry a v).emerg = s.emerg := rfl
@[simp] theorem setEntry_group (s : State) (a : Nat) (v : Dword) : (s.setEntry a v).group = s.group := rfl
@[simp] theorem setEntry_stage (s : State) (a : Nat) (v : Dword) : (s.setEntry a v).stage = s.stage := rfl
@[simp] theorem setEntry_err (s : State) (a : Nat) (v : Dword) : (s.setEntry a v).err = s.err := rfl
@[simp] theorem setEntry_errV (s : State) (a : Nat) (v : Dword) : (s.setEntry a v).errV = s.errV := rfl
@[simp] theorem setEntry_ready (s : State) (a : Nat) (v : Dword) : (s.setEntry a v).ready = s.ready := rfl
@[simp] theorem setEntry_alarm (s : State) (a : Nat) (v : Dword) : (s.setEntry a v).alarm = s.alarm := rfl
@[simp] theorem setEntry_alarmAt (s : State) (a : Nat) (v : Dword) : (s.setEntry a v).alarmAt = s.alarmAt := rfl
@[simp] theorem setEntry_outOfRange (s : State) (a : Nat) (v : Dword) : (s.setEntry a v).outOfRange = s.outOfRange := rfl
@[simp] theorem setEntry_keys (s : State) (a : Nat) (v : Dword) : (s.setEntry a v).keys = s.keys := rfl
@[simp] theorem setEntry_eraseMask (s : State) (a : Nat) (v : Dword) : (s.setEntry a v).eraseMask = s.eraseMask := rfl
@[simp] theorem setEntry_erased (s : State) (a : Nat) (v : Dword) : (s.setEntry a v).erased = s.erased := rfl
@[simp] theorem setEntry_keyBlobs (s : State) (a : Nat) (v : Dword) : (s.setEntry a v).keyBlobs = s.keyBlobs := rfl
@[simp] theorem setEntry_minVersion (s : State) (a : Nat) (v : Dword) : (s.setEntry a v).minVersion = s.minVersion := rfl
@[simp] theorem setEntry_cxl (s : State) (a : Nat) (v : Dword) : (s.setEntry a v).cxl = s.cxl := rfl
@[simp] theorem setEntry_trayCap (s : State) (a : Nat) (v : Dword) : (s.setEntry a v).trayCap = s.trayCap := rfl
@[simp] theorem setEntry_repair (s : State) (a : Nat) (v : Dword) : (s.setEntry a v).repair = s.repair := rfl
@[simp] theorem setEntry_spdm (s : State) (a : Nat) (v : Dword) : (s.setEntry a v).spdm = s.spdm := rfl
@[simp] theorem setEntry_bar0 (s : State) (a : Nat) (v : Dword) : (s.setEntry a v).bar0 = s.bar0 := rfl
@[simp] theorem setEntry_fwCalls (s : State) (a : Nat) (v : Dword) : (s.setEntry a v).fwCalls = s.fwCalls := rfl
@[simp] theorem setEntry_roots (s : State) (a : Nat) (v : Dword) : (s.setEntry a v).roots = s.roots := rfl
@[simp] theorem setEntry_lost (s : State) (a : Nat) (v : Dword) : (s.setEntry a v).lost = s.lost := rfl
@[simp] theorem setEntry_bound (s : State) (a : Nat) (v : Dword) : (s.setEntry a v).bound = s.bound := rfl
@[simp] theorem setEntry_cacheOn (s : State) (a : Nat) (v : Dword) : (s.setEntry a v).cacheOn = s.cacheOn := rfl
@[simp] theorem setEntry_hostDown (s : State) (a : Nat) (v : Dword) : (s.setEntry a v).hostDown = s.hostDown := rfl
@[simp] theorem setEntry_regionGuards (s : State) (a : Nat) (v : Dword) : (s.setEntry a v).regionGuards = s.regionGuards := rfl
@[simp] theorem setEntry_guardRecs (s : State) (a : Nat) (v : Dword) : (s.setEntry a v).guardRecs = s.guardRecs := rfl
@[simp] theorem setEntry_dieVersion (s : State) (a : Nat) (v : Dword) : (s.setEntry a v).dieVersion = s.dieVersion := rfl
@[simp] theorem setEntry_dieImages (s : State) (a : Nat) (v : Dword) : (s.setEntry a v).dieImages = s.dieImages := rfl
@[simp] theorem setEntry_retired (s : State) (a : Nat) (v : Dword) : (s.setEntry a v).retired = s.retired := rfl
@[simp] theorem setEntry_poisoned (s : State) (a : Nat) (v : Dword) : (s.setEntry a v).poisoned = s.poisoned := rfl
@[simp] theorem setEntry_badDev (s : State) (a : Nat) (v : Dword) : (s.setEntry a v).badDev = s.badDev := rfl
@[simp] theorem setEntry_badSpad (s : State) (a : Nat) (v : Dword) : (s.setEntry a v).badSpad = s.badSpad := rfl
@[simp] theorem setEntry_badHost (s : State) (a : Nat) (v : Dword) : (s.setEntry a v).badHost = s.badHost := rfl
@[simp] theorem setEntry_retrain (s : State) (a : Nat) (v : Dword) : (s.setEntry a v).retrain = s.retrain := rfl
@[simp] theorem setEntry_cores (s : State) (a : Nat) (v : Dword) : (s.setEntry a v).cores = s.cores := rfl
@[simp] theorem setEntry_active (s : State) (a : Nat) (v : Dword) : (s.setEntry a v).active = s.active := rfl
@[simp] theorem setEntry_spad (s : State) (a : Nat) (v : Dword) : (s.setEntry a v).spad = s.spad := rfl
@[simp] theorem setEntry_spadSeed (s : State) (a : Nat) (v : Dword) : (s.setEntry a v).spadSeed = s.spadSeed := rfl
@[simp] theorem setEntry_host (s : State) (a : Nat) (v : Dword) : (s.setEntry a v).host = s.host := rfl
@[simp] theorem setEntry_code (s : State) (a : Nat) (v : Dword) : (s.setEntry a v).code = s.code := rfl
@[simp] theorem setEntry_codeSh (s : State) (a : Nat) (v : Dword) : (s.setEntry a v).codeSh = s.codeSh := rfl
@[simp] theorem setEntry_queues (s : State) (a : Nat) (v : Dword) : (s.setEntry a v).queues = s.queues := rfl
@[simp] theorem setEntry_parts (s : State) (a : Nat) (v : Dword) : (s.setEntry a v).parts = s.parts := rfl
@[simp] theorem setEntry_fabric (s : State) (a : Nat) (v : Dword) : (s.setEntry a v).fabric = s.fabric := rfl
@[simp] theorem setEntry_detour (s : State) (a : Nat) (v : Dword) : (s.setEntry a v).detour = s.detour := rfl
@[simp] theorem setEntry_window (s : State) (a : Nat) (v : Dword) : (s.setEntry a v).window = s.window := rfl
@[simp] theorem setEntry_images (s : State) (a : Nat) (v : Dword) : (s.setEntry a v).images = s.images := rfl
@[simp] theorem setEntry_nodes (s : State) (a : Nat) (v : Dword) : (s.setEntry a v).nodes = s.nodes := rfl
@[simp] theorem setEntry_rr (s : State) (a : Nat) (v : Dword) : (s.setEntry a v).rr = s.rr := rfl
@[simp] theorem setEntry_musterUs (s : State) (a : Nat) (v : Dword) : (s.setEntry a v).musterUs = s.musterUs := rfl
@[simp] theorem setEntry_musterNext (s : State) (a : Nat) (v : Dword) : (s.setEntry a v).musterNext = s.musterNext := rfl
@[simp] theorem setEntry_shepNext (s : State) (a : Nat) (v : Dword) : (s.setEntry a v).shepNext = s.shepNext := rfl
@[simp] theorem setEntry_ports (s : State) (a : Nat) (v : Dword) : (s.setEntry a v).ports = s.ports := rfl
@[simp] theorem setEntry_transit (s : State) (a : Nat) (v : Dword) : (s.setEntry a v).transit = s.transit := rfl
@[simp] theorem setEntry_phase (s : State) (a : Nat) (v : Dword) : (s.setEntry a v).phase = s.phase := rfl
@[simp] theorem setEntry_turn (s : State) (a : Nat) (v : Dword) : (s.setEntry a v).turn = s.turn := rfl
@[simp] theorem setEntry_cur (s : State) (a : Nat) (v : Dword) : (s.setEntry a v).cur = s.cur := rfl
@[simp] theorem setEntry_evIss (s : State) (a : Nat) (v : Dword) : (s.setEntry a v).evIss = s.evIss := rfl
@[simp] theorem setEntry_agenda (s : State) (a : Nat) (v : Dword) : (s.setEntry a v).agenda = s.agenda := rfl
@[simp] theorem setEntry_effs (s : State) (a : Nat) (v : Dword) : (s.setEntry a v).effs = s.effs := rfl
@[simp] theorem setEntry_causes (s : State) (a : Nat) (v : Dword) : (s.setEntry a v).causes = s.causes := rfl
@[simp] theorem setEntry_before (s : State) (a : Nat) (v : Dword) : (s.setEntry a v).before = s.before := rfl
@[simp] theorem setEntry_outbox (s : State) (a : Nat) (v : Dword) : (s.setEntry a v).outbox = s.outbox := rfl
@[simp] theorem setEntry_serial (s : State) (a : Nat) (v : Dword) : (s.setEntry a v).serial = s.serial := rfl
@[simp] theorem setEntry_free (s : State) (a : Nat) (v : Dword) : (s.setEntry a v).free = s.free := rfl


/-! ### Reading back -/

@[simp] theorem core_setCore_same (s : State) (u : UnitId) (c : Core) : (s.setCore u c).core u = c := by
  show (s.cores.set u.val c u.isLt)[u.val] = c
  simp

theorem core_setCore_other (s : State) (u v : UnitId) (c : Core) (h : v ≠ u) : (s.setCore u c).core v = s.core v := by
  have hv : u.val ≠ v.val := fun e => h (Fin.ext e.symm)
  show (s.cores.set u.val c u.isLt)[v.val] = s.cores[v.val]
  simp [hv]

theorem core_setCore (s : State) (u v : UnitId) (c : Core) : (s.setCore u c).core v = if v = u then c else s.core v := by
  split
  · subst v; simp
  · exact core_setCore_other s u v c ‹_›

@[simp] theorem core_modCore_same (s : State) (u : UnitId) (f : Core → Core) : (s.modCore u f).core u = f (s.core u) := by
  simp [State.modCore]

theorem core_modCore_other (s : State) (u v : UnitId) (f : Core → Core) (h : v ≠ u) : (s.modCore u f).core v = s.core v := by
  simp [State.modCore, core_setCore_other, h]

@[simp] theorem seq_setSeq_core_same (c : Core) (q : SeqName) (v : Seq) : (c.setSeq q v).seq q = v := by
  cases q <;> rfl

theorem seq_setSeq_core_other (c : Core) (q r : SeqName) (v : Seq) (h : r ≠ q) : (c.setSeq q v).seq r = c.seq r := by
  cases q <;> cases r <;> first | rfl | exact absurd rfl h

@[simp] theorem seq_setSeq_same (s : State) (q : SeqId) (v : Seq) : (s.setSeq q v).seq q = v := by
  simp [State.seq, State.setSeq]

theorem seq_setSeq_other (s : State) (q r : SeqId) (v : Seq) (h : r ≠ q) : (s.setSeq q v).seq r = s.seq r := by
  unfold State.seq State.setSeq
  by_cases hu : r.unit = q.unit
  · rw [hu, core_setCore_same, seq_setSeq_core_other]
    intro hq; exact h (by cases r; cases q; simp_all)
  · rw [core_setCore_other _ _ _ _ hu]

@[simp] theorem me_setMe (s : State) (v : Seq) : (s.setMe v).me = v := by
  unfold State.me State.setMe
  exact seq_setSeq_same s s.cur v

theorem seq_setMe_other (s : State) (v : Seq) (q : SeqId) (h : q ≠ s.cur) : (s.setMe v).seq q = s.seq q :=
  seq_setSeq_other s s.cur q v h

@[simp] theorem setCore_setCore (s : State) (u : UnitId) (c d : Core) : (s.setCore u c).setCore u d = s.setCore u d := by
  simp [State.setCore]

@[simp] theorem setSeq_setSeq_core (c : Core) (q : SeqName) (v w : Seq) : (c.setSeq q v).setSeq q w = c.setSeq q w := by
  cases q <;> rfl

@[simp] theorem setSeq_setSeq (s : State) (q : SeqId) (v w : Seq) : (s.setSeq q v).setSeq q w = s.setSeq q w := by
  simp [State.setSeq]

@[simp] theorem setMe_setMe (s : State) (v w : Seq) : (s.setMe v).setMe w = s.setMe w :=
  setSeq_setSeq s s.cur v w

@[simp] theorem setCore_self (s : State) (u : UnitId) : s.setCore u (s.core u) = s := by
  have : s.cores.set u.val (s.core u) u.isLt = s.cores := by
    apply Vector.ext
    intro i hi
    rw [Vector.getElem_set]
    split
    · subst_vars; rfl
    · rfl
  show { s with cores := s.cores.set u.val (s.core u) u.isLt } = s
  rw [this]

@[simp] theorem setSeq_self_core (c : Core) (q : SeqName) : c.setSeq q (c.seq q) = c := by
  cases q <;> rfl

@[simp] theorem setSeq_self (s : State) (q : SeqId) : s.setSeq q (s.seq q) = s := by
  unfold State.setSeq State.seq
  rw [setSeq_self_core, setCore_self]

/-- i0 reads as zero (02 R27). -/
@[simp] theorem xr_zero (q : Seq) : q.xr 0 = 0 := rfl

/-- p0 reads true (02 R27). -/
@[simp] theorem pr_zero (q : Seq) : q.pr 0 = true := rfl

theorem xr_setX (q : Seq) (r k : XReg) (v : Dword) :
    (q.setX r v).xr k = if k = r ∧ r ≠ 0 then v else q.xr k := by
  unfold Seq.setX
  by_cases hr : r = 0
  · simp [hr]
  · rw [if_neg hr]
    show (if k = 0 then 0 else (q.x.set r.toNat v r.isLt)[k.toNat]'k.isLt) = if k = r ∧ r ≠ 0 then v else if k = 0 then 0 else q.x[k.toNat]'k.isLt
    by_cases hk : k = r
    · subst hk; rw [if_neg hr, if_pos ⟨rfl, hr⟩]; simp
    · have : r.toNat ≠ k.toNat := fun e => hk (BitVec.eq_of_toNat_eq e.symm)
      simp [hk, this]

theorem pr_setP (q : Seq) (r k : PReg) (v : Bool) :
    (q.setP r v).pr k = if k = r ∧ r ≠ 0 then v else q.pr k := by
  unfold Seq.setP
  by_cases hr : r = 0
  · simp [hr]
  · rw [if_neg hr]
    show (if k = 0 then true else (q.p.set r.toNat v r.isLt)[k.toNat]'k.isLt) = if k = r ∧ r ≠ 0 then v else if k = 0 then true else q.p[k.toNat]'k.isLt
    by_cases hk : k = r
    · subst hk; rw [if_neg hr, if_pos ⟨rfl, hr⟩]; simp
    · have : r.toNat ≠ k.toNat := fun e => hk (BitVec.eq_of_toNat_eq e.symm)
      simp [hk, this]

@[simp] theorem pr_setX (q : Seq) (r : XReg) (v : Dword) (k : PReg) : (q.setX r v).pr k = q.pr k := by
  unfold Seq.setX; split <;> rfl

@[simp] theorem xr_setP (q : Seq) (r : PReg) (v : Bool) (k : XReg) : (q.setP r v).xr k = q.xr k := by
  unfold Seq.setP; split <;> rfl

/-- The loop end check writes loop levels alone. -/
theorem endCheck_frame (ls : List (Fin 4)) (q : Seq) (n : Dword) :
    (endCheck ls q n).1 = { q with loops := (endCheck ls q n).1.loops } := by
  induction ls generalizing q with
  | nil => rfl
  | cons l ls ih =>
    unfold endCheck
    dsimp only
    split
    · rfl
    · rw [ih]

/-- What `advance` does to a sequencer: its loop levels, `pc` (or the target that a taken branch left for it), `base`, count of
issued instructions and wait. -/
theorem advance_eq (q : Seq) (len n c : Nat) :
    q.advance len n c = { q with
      loops := (endCheck (endingLevels q len) q (q.pc + BitVec.ofNat 64 (4 * len))).1.loops
      pc := q.after.getD (endCheck (endingLevels q len) q (q.pc + BitVec.ofNat 64 (4 * len))).2
      after := none
      base := c + 1 + n
      issued := q.counted
      wait := none
      held := false } := by
  unfold Seq.advance
  dsimp only
  generalize hq : (endCheck (endingLevels q len) q (q.pc + BitVec.ofNat 64 (4 * len))).2 = n'
  have := endCheck_frame (endingLevels q len) q (q.pc + BitVec.ofNat 64 (4 * len))
  generalize (endCheck (endingLevels q len) q (q.pc + BitVec.ofNat 64 (4 * len))).1 = q' at *
  rw [this]

end Sys2Proof.Machine
end

