-- ==== Sys2Proof/Laws/Issue.lean ====
section
/-! SUPPORT. What an instruction can do at its issue: the outcomes of `issue`, `guarded` and `waitForm`, and what taking an exception
leaves. -/

namespace Sys2Proof.Machine
open Host

/-- What an instruction that issues does is what its meaning answers, but that a word with an uncorrectable error faults in its place
(15 R326). -/
theorem judge_cases (s : State) (a : Ask) (v : Verdict) :
    s.judge a v = v ∨ (s.judge a v = .fault { code := .uncorrectable } ∧ a.reads.any (s.badRead a) = true ∧ ∀ t, v ≠ .stall t) := by
  unfold State.judge
  split
  · exact .inl rfl
  · next h =>
    split
    · next hb => exact .inr ⟨rfl, hb, h⟩
    · exact .inl rfl

theorem judge_clean {s : State} {a : Ask} (hb : a.reads.any (s.badRead a) = false) (v : Verdict) : s.judge a v = v :=
  (judge_cases s a v).elim id (fun h => absurd h.2.1 (by rw [hb]; exact Bool.false_ne_true))

/-- Everything that `issue` can answer. -/
theorem issue_cases (h : Hdr) (len : Nat) (a : Ask) (body : State → Verdict) (s : State) :
    (issue h len a body s = .next s ∧ s.gate h a = .wait) ∨
    (issue h len a body s = .next s.holdSerial ∧ s.gate h a = .hold) ∨
    (issue h len a body s = .next (s.killed a len) ∧ (h.sq && s.killing) = true ∧ (s.gate h a = .go ∨ ∃ r, s.gate h a = .fault r)) ∨
    (∃ r, issue h len a body s = .next (s.raise h len r) ∧ (h.sq && s.killing) = false ∧
      (s.gate h a = .fault r ∨ (s.gate h a = .go ∧ s.judge a (body s) = .fault r))) ∨
    (s.gate h a = .go ∧ (h.sq && s.killing) = false ∧
      ((∃ t, body s = .ok t ∧ issue h len a body s = .next (t.retire len 0)) ∨
       (∃ t n, body s = .delay t n ∧ issue h len a body s = .next (t.retire len n)) ∨
       (∃ t d, body s = .jump t d ∧ issue h len a body s = .next (t.setMe (t.me.goto_ d t.cyc))) ∨
       (∃ t, body s = .hold t ∧ issue h len a body s = .next (t.holdWait)) ∨
       (∃ c, body s = .stall c ∧ issue h len a body s = .next (s.setMe { s.me with base := max s.me.base (c - h.idle.toNat) })))) := by
  unfold issue
  cases hg : s.gate h a with
  | wait => simp
  | hold => simp
  | fault r => by_cases hk : (h.sq && s.killing) = true <;> simp [hk]
  | go =>
    by_cases hk : (h.sq && s.killing) = true
    · simp [hk]
    · rcases judge_cases s a (body s) with hj | ⟨hj, -, -⟩
      · rw [hj]; cases hb : body s <;> simp [hk]
      · rw [hj]; simp [hk]

/-- `issue` always answers a next state. -/
theorem issue_next (h : Hdr) (len : Nat) (a : Ask) (body : State → Verdict) (s : State) : ∃ t, issue h len a body s = .next t := by
  unfold issue
  repeat' (first | exact ⟨_, rfl⟩ | split)

theorem guarded_next (h : Hdr) (len : Nat) (pg : PReg) (a : Ask) (body : State → Verdict) (s : State) :
    ∃ t, guarded h len pg a body s = .next t := by
  unfold guarded
  split <;> exact issue_next _ _ _ _ _

theorem waitForm_next (h : Hdr) (reads : List Dest) (what : State → WaitFor) (tmo : State → Dword) (s : State) :
    ∃ t, waitForm h reads what tmo s = .next t := by
  unfold waitForm
  split
  · repeat' (first | exact ⟨_, rfl⟩ | split)
  · exact issue_next _ _ _ _ _

/-- An instruction that issues with its own effect does what its meaning answers. -/
theorem issue_go {h : Hdr} {len : Nat} {a : Ask} {body : State → Verdict} {s : State} (hi : s.issues h a) :
    issue h len a body s = (match body s with
      | .ok t => .next (t.retire len 0)
      | .delay t n => .next (t.retire len n)
      | .jump t d => .next (t.setMe (t.me.goto_ d t.cyc))
      | .hold t => .next (t.holdWait)
      | .stall c => .next (s.setMe { s.me with base := max s.me.base (c - h.idle.toNat) })
      | .fault r => .next (s.raise h len r)) := by
  unfold issue
  rw [hi.1, hi.2.1, judge_clean hi.2.2]
  rfl

theorem issue_ok {h : Hdr} {len : Nat} {a : Ask} {body : State → Verdict} {s t : State} (hi : s.issues h a) (hb : body s = .ok t) :
    issue h len a body s = .next (t.retire len 0) := by
  unfold issue; simp [hi.1, hi.2.1, judge_clean hi.2.2, hb]

theorem issue_delay {h : Hdr} {len n : Nat} {a : Ask} {body : State → Verdict} {s t : State} (hi : s.issues h a)
    (hb : body s = .delay t n) : issue h len a body s = .next (t.retire len n) := by
  unfold issue; simp [hi.1, hi.2.1, judge_clean hi.2.2, hb]

theorem issue_jump {h : Hdr} {len : Nat} {a : Ask} {body : State → Verdict} {s t : State} {d : Dword} (hi : s.issues h a)
    (hb : body s = .jump t d) : issue h len a body s = .next (t.setMe (t.me.goto_ d t.cyc)) := by
  unfold issue; simp [hi.1, hi.2.1, judge_clean hi.2.2, hb]

theorem issue_hold {h : Hdr} {len : Nat} {a : Ask} {body : State → Verdict} {s t : State} (hi : s.issues h a) (hb : body s = .hold t) :
    issue h len a body s = .next (t.holdWait) := by
  unfold issue; simp [hi.1, hi.2.1, judge_clean hi.2.2, hb]

theorem issue_fault {h : Hdr} {len : Nat} {a : Ask} {body : State → Verdict} {s : State} {r : Raise} (hi : s.issues h a)
    (hb : body s = .fault r) : issue h len a body s = .next (s.raise h len r) := by
  unfold issue; simp [hi.1, hi.2.1, judge_clean hi.2.2, hb]

/-- An exception in free issue, outside every branch shadow, only adds its cause (15 R313). -/
theorem raise_eq (s : State) (h : Hdr) (len : Nat) (r : Raise) (hu : s.unresolved = none) :
    s.raise h len r = s.raiseAt s.cur s.me.pc s.myNode r := by
  unfold State.raise; rw [hu]

theorem guarded_true {h : Hdr} {len : Nat} {pg : PReg} {a : Ask} {body : State → Verdict} {s : State} (hp : s.pr pg = true) :
    guarded h len pg a body s = issue h len { a with reads := .p s.cur pg :: a.reads } body s := by
  unfold guarded; rw [if_pos hp]

theorem guarded_false {h : Hdr} {len : Nat} {pg : PReg} {a : Ask} {body : State → Verdict} {s : State} (hp : s.pr pg = false)
    (hi : s.issues h { reads := [.p s.cur pg] }) : guarded h len pg a body s = .next (s.retire len 0) := by
  unfold guarded; rw [if_neg (by rw [hp]; exact Bool.false_ne_true)]; exact issue_ok hi rfl

end Sys2Proof.Machine
end

