-- ==== Sys2Proof/Laws/Mem.lean ====
section
/-! SUPPORT. Memories: reading after writing, and the canonical form that every memory operation keeps. -/

namespace Sys2Proof.Machine
open Host

/-- Nothing is listed at or below a bound. -/
theorem cellsAbove_mono (bg : Nat → Byte) (m : List Cell) (k l : Nat) (h : cellsAbove bg (some l) m = true) (hk : k ≤ l) :
    cellsAbove bg (some k) m = true := by
  cases m with
  | nil => rfl
  | cons c t =>
    simp only [cellsAbove, Bool.and_eq_true, decide_eq_true_eq] at h ⊢
    exact ⟨⟨by omega, h.1.2⟩, h.2⟩

theorem cellsAbove_none (bg : Nat → Byte) (m : List Cell) (l : Nat) (h : cellsAbove bg (some l) m = true) :
    cellsAbove bg none m = true := by
  cases m with
  | nil => rfl
  | cons c t =>
    simp only [cellsAbove, Bool.and_eq_true] at h ⊢
    exact ⟨⟨trivial, h.1.2⟩, h.2⟩

/-- Below every listed address a memory reads as unlisted. -/
theorem cellRead_below (bg : Nat → Byte) (m : List Cell) (l a : Nat) (h : cellsAbove bg (some l) m = true) (ha : a ≤ l) :
    cellRead bg m a = bg a := by
  cases m with
  | nil => rfl
  | cons c t =>
    obtain ⟨k, v⟩ := c
    simp only [cellsAbove, Bool.and_eq_true, decide_eq_true_eq] at h
    have h1 : k ≠ a := by omega
    have h2 : a < k := by omega
    simp [cellRead, h1, h2]

/-- A write keeps the cells above a bound that lies below its address. -/
theorem cellsAbove_write (bg : Nat → Byte) (m : List Cell) (lo : Option Nat) (a : Nat) (b : Byte)
    (h : cellsAbove bg lo m = true) (hlo : ∀ l, lo = some l → l < a) : cellsAbove bg lo (cellWrite bg m a b) = true := by
  induction m generalizing lo with
  | nil =>
    unfold cellWrite
    split
    · rfl
    · cases lo with
      | none => simp_all [cellsAbove]
      | some l => simp_all [cellsAbove]
  | cons c t ih =>
    obtain ⟨k, v⟩ := c
    have ht : cellsAbove bg (some k) t = true := by
      simp only [cellsAbove, Bool.and_eq_true] at h; exact h.2
    have hv : (v != bg k) = true := by
      simp only [cellsAbove, Bool.and_eq_true] at h; exact h.1.2
    unfold cellWrite
    by_cases h1 : a < k
    · rw [if_pos h1]
      split
      · exact h
      · have hb : (b != bg a) = true := by simpa using ‹¬b = bg a›
        cases lo with
        | none => simp [cellsAbove, hb, h1, hv, ht]
        | some l => simp [cellsAbove, hb, h1, hv, ht, hlo l rfl]
    · rw [if_neg h1]
      by_cases h2 : a = k
      · rw [if_pos h2]
        split
        · cases lo with
          | none => exact cellsAbove_none bg t k ht
          | some l => exact cellsAbove_mono bg t l k ht (by have := hlo l rfl; omega)
        · have hb : (b != bg a) = true := by simpa using ‹¬b = bg a›
          subst h2
          cases lo with
          | none => simp [cellsAbove, hb, ht]
          | some l => simp [cellsAbove, hb, ht, hlo l rfl]
      · rw [if_neg h2]
        have hr := ih (some k) ht (by intro l e; injection e; omega)
        cases lo with
        | none => simp [cellsAbove, hv, hr]
        | some l =>
          simp only [cellsAbove, Bool.and_eq_true, decide_eq_true_eq] at h
          simp [cellsAbove, hv, hr, h.1.1]

/-- A write of one byte keeps the canonical form. -/
theorem wf_cellWrite (bg : Nat → Byte) (m : List Cell) (a : Nat) (b : Byte) (h : Memory.wf bg m = true) :
    Memory.wf bg (cellWrite bg m a b) = true :=
  cellsAbove_write bg m none a b h (by intro l e; cases e)

/-- Writes of bytes keep the canonical form. -/
theorem wf_cellWrites (bg : Nat → Byte) (bs : List Byte) (m : List Cell) (a : Nat) (h : Memory.wf bg m = true) :
    Memory.wf bg (cellWrites bg m a bs) = true := by
  induction bs generalizing m a with
  | nil => exact h
  | cons b bs ih => exact ih _ _ (wf_cellWrite bg m a b h)

/-- Dropping cells keeps the canonical form. -/
theorem cellsAbove_filter (bg : Nat → Byte) (p : Cell → Bool) (m : List Cell) (lo : Option Nat) (h : cellsAbove bg lo m = true) :
    cellsAbove bg lo (m.filter p) = true := by
  induction m generalizing lo with
  | nil => rfl
  | cons c t ih =>
    obtain ⟨k, v⟩ := c
    simp only [cellsAbove, Bool.and_eq_true] at h
    rw [List.filter_cons]
    split
    · simp only [cellsAbove, Bool.and_eq_true]
      exact ⟨h.1, ih _ h.2⟩
    · cases lo with
      | none => exact ih none (cellsAbove_none bg t k h.2)
      | some l => exact ih (some l) (cellsAbove_mono bg t l k h.2 (by have := h.1.1; simp only [decide_eq_true_eq] at this; omega))

/-- The canonical form depends on what an unlisted byte reads as at the listed addresses alone. -/
theorem cellsAbove_congr (bg bg' : Nat → Byte) (m : List Cell) (lo : Option Nat) (he : ∀ c ∈ m, bg' c.1 = bg c.1)
    (h : cellsAbove bg lo m = true) : cellsAbove bg' lo m = true := by
  induction m generalizing lo with
  | nil => rfl
  | cons c t ih =>
    obtain ⟨k, v⟩ := c
    simp only [cellsAbove, Bool.and_eq_true] at h ⊢
    refine ⟨⟨h.1.1, ?_⟩, ih _ (fun c hc => he c (List.mem_cons_of_mem _ hc)) h.2⟩
    rw [he (k, v) (List.mem_cons_self ..)]
    exact h.1.2

/-- A range is forgotten, and what its bytes read as changes: the form stays canonical. -/
theorem wf_cellForget (bg bg' : Nat → Byte) (m : List Cell) (lo hi : Nat) (he : ∀ a, a < lo ∨ hi ≤ a → bg' a = bg a)
    (h : Memory.wf bg m = true) : Memory.wf bg' (cellForget m lo hi) = true := by
  apply cellsAbove_congr bg
  · intro c hc
    apply he
    have := (List.mem_filter.1 hc).2
    simpa using this
  · exact cellsAbove_filter bg _ m none h

/-- Reading after a write gives the byte written at its address, and what was there before at every other one. -/
theorem cellRead_cellWrite (bg : Nat → Byte) (m : List Cell) (a k : Nat) (b : Byte) (h : Memory.wf bg m = true) :
    cellRead bg (cellWrite bg m a b) k = if k = a then b else cellRead bg m k := by
  have key : ∀ (m : List Cell) (lo : Option Nat), cellsAbove bg lo m = true →
      cellRead bg (cellWrite bg m a b) k = if k = a then b else cellRead bg m k := by
    intro m
    induction m with
    | nil =>
      intro lo _
      unfold cellWrite
      by_cases hk : k = a
      · subst hk; by_cases hb : b = bg k <;> simp [cellRead, hb]
      · have hak : a ≠ k := fun e => hk e.symm
        by_cases hb : b = bg a <;> simp [cellRead, hb, hk, hak]
    | cons c t ih =>
      obtain ⟨j, v⟩ := c
      intro lo hc
      have ht : cellsAbove bg (some j) t = true := by
        simp only [cellsAbove, Bool.and_eq_true] at hc; exact hc.2
      have hbelow := fun x hx => cellRead_below bg t j x ht hx
      unfold cellWrite
      by_cases h1 : a < j
      · rw [if_pos h1]
        have hja : j ≠ a := by omega
        by_cases hk : k = a
        · subst hk; by_cases hb : b = bg k <;> simp [cellRead, hb, hja, h1]
        · have hak : a ≠ k := fun e => hk e.symm
          by_cases hb : b = bg a
          · simp [hb, hk]
          · by_cases hlt : k < a
            · have hjk : j ≠ k := by omega
              have hkj : k < j := by omega
              simp [cellRead, hb, hk, hak, hlt, hjk, hkj]
            · simp [cellRead, hb, hk, hak, hlt]
      · rw [if_neg h1]
        by_cases h2 : a = j
        · rw [if_pos h2]
          subst h2
          by_cases hk : k = a
          · subst hk; by_cases hb : b = bg k <;> simp [cellRead, hb, hbelow]
          · have hak : a ≠ k := fun e => hk e.symm
            by_cases hb : b = bg a
            · by_cases hlt : k < a
              · have := hbelow k (by omega)
                simp [cellRead, hb, hk, hak, hlt, this]
              · simp [cellRead, hb, hk, hak, hlt]
            · simp [cellRead, hb, hk, hak]
        · rw [if_neg h2]
          by_cases hk : k = j
          · subst hk
            have : k ≠ a := fun e => h2 e.symm
            simp [cellRead, this]
          · have hjk : j ≠ k := fun e => hk e.symm
            by_cases hlt : k < j
            · have hka : k ≠ a := by omega
              simp [cellRead, hjk, hlt, hka]
            · simp only [cellRead, if_neg hjk, if_neg hlt]
              exact ih (some j) ht
  exact key m none h

/-- Two canonical memories that read alike are the same list. -/
theorem canonical_ext (bg : Nat → Byte) (m n : List Cell) (hm : Memory.wf bg m = true) (hn : Memory.wf bg n = true)
    (he : ∀ a, cellRead bg m a = cellRead bg n a) : m = n := by
  have key : ∀ (m n : List Cell) (lo hi : Option Nat), cellsAbove bg lo m = true → cellsAbove bg hi n = true →
      (∀ a, cellRead bg m a = cellRead bg n a) → m = n := by
    intro m
    induction m with
    | nil =>
      intro n lo hi _ hn he
      cases n with
      | nil => rfl
      | cons d u =>
        obtain ⟨k, v⟩ := d
        simp only [cellsAbove, Bool.and_eq_true, bne_iff_ne, ne_eq] at hn
        have := he k
        simp only [cellRead, ↓reduceIte] at this
        exact absurd this.symm hn.1.2
    | cons c t ih =>
      obtain ⟨j, w⟩ := c
      intro n lo hi hm hn he
      simp only [cellsAbove, Bool.and_eq_true, bne_iff_ne, ne_eq] at hm
      cases n with
      | nil =>
        have := he j
        simp only [cellRead, ↓reduceIte] at this
        exact absurd this hm.1.2
      | cons d u =>
        obtain ⟨k, v⟩ := d
        simp only [cellsAbove, Bool.and_eq_true, bne_iff_ne, ne_eq] at hn
        have hjk : j = k := by
          rcases Nat.lt_trichotomy j k with h | h | h
          · have := he j
            have hkj : k ≠ j := by omega
            simp only [cellRead, ↓reduceIte, if_neg hkj, if_pos h] at this
            exact absurd this hm.1.2
          · exact h
          · have := he k
            have hjk : j ≠ k := by omega
            simp only [cellRead, ↓reduceIte, if_neg hjk, if_pos h] at this
            exact absurd this.symm hn.1.2
        subst hjk
        have hvw : w = v := by simpa [cellRead] using he j
        subst hvw
        congr 1
        refine ih u (some j) (some j) hm.2 hn.2 ?_
        intro a
        by_cases ha : a ≤ j
        · rw [cellRead_below bg t j a hm.2 ha, cellRead_below bg u j a hn.2 ha]
        · have := he a
          have h1 : j ≠ a := by omega
          have h2 : ¬a < j := by omega
          simpa [cellRead, h1, h2] using this
  exact key m n none none hm hn he

/-- Reset lists nothing, so its memories are canonical. -/
theorem reset_memories : Memory.wf State.reset.spadBg State.reset.spad = true ∧ Memory.wf zeroBg State.reset.dev = true ∧
    Memory.wf zeroBg State.reset.host = true ∧ Memory.wf zeroBg State.reset.code = true ∧ Memory.wf zeroBg State.reset.codeSh = true ∧
    Memory.wf zeroBg State.reset.bar0 = true :=
  ⟨rfl, rfl, rfl, rfl, rfl, rfl⟩

/-! ### The scratchpads and the device and host memory of the package -/

@[simp] theorem spadBg_setSpadByte (s : State) (a : Nat) (b : Byte) : (s.setSpadByte a b).spadBg = s.spadBg := rfl

theorem wf_setSpadByte (s : State) (a : Nat) (b : Byte) (h : Memory.wf s.spadBg s.spad = true) :
    Memory.wf (s.setSpadByte a b).spadBg (s.setSpadByte a b).spad = true := wf_cellWrite s.spadBg s.spad a b h

/-- Reading a scratchpad byte after one was written. -/
theorem spadByte_setSpadByte (s : State) (a k : Nat) (b : Byte) (h : Memory.wf s.spadBg s.spad = true) :
    (s.setSpadByte a b).spadByte k = if k = a then b else s.spadByte k := cellRead_cellWrite s.spadBg s.spad a k b h

/-- A write of cells leaves every field but the scratchpads as it was. -/
theorem setSpadCells_eq (cells : List (Nat × Byte)) (s : State) :
    s.setSpadCells cells = { s with spad := (s.setSpadCells cells).spad } := by
  unfold State.setSpadCells
  induction cells generalizing s with
  | nil => rfl
  | cons c cs ih => rw [List.foldl_cons, ih]; rfl

theorem wf_setSpadCells (cells : List (Nat × Byte)) (s : State) (h : Memory.wf s.spadBg s.spad = true) :
    Memory.wf (s.setSpadCells cells).spadBg (s.setSpadCells cells).spad = true := by
  unfold State.setSpadCells
  induction cells generalizing s with
  | nil => exact h
  | cons c cs ih => exact ih _ (wf_setSpadByte s c.1 c.2 h)

/-- A write of cells changes no byte outside them. -/
theorem spadByte_setSpadCells_other (cells : List (Nat × Byte)) (s : State) (k : Nat) (h : Memory.wf s.spadBg s.spad = true)
    (hk : ∀ c ∈ cells, c.1 ≠ k) : (s.setSpadCells cells).spadByte k = s.spadByte k := by
  unfold State.setSpadCells
  induction cells generalizing s with
  | nil => rfl
  | cons c cs ih =>
    rw [List.foldl_cons, ih _ (wf_setSpadByte s c.1 c.2 h) (fun d hd => hk d (List.mem_cons_of_mem _ hd)),
      spadByte_setSpadByte s c.1 k c.2 h, if_neg (fun e => hk c (List.mem_cons_self ..) e.symm)]

theorem wf_setDevBytes (s : State) (a : Nat) (bs : List Byte) (h : Memory.wf zeroBg s.dev = true) :
    Memory.wf zeroBg (s.setDevBytes a bs).dev = true := wf_cellWrites zeroBg bs s.dev a h

theorem wf_setHostBytes (s : State) (p a : Nat) (bs : List Byte) (h : Memory.wf zeroBg s.host = true) :
    Memory.wf zeroBg (s.setHostBytes p a bs).host = true := wf_cellWrites zeroBg bs s.host _ h

theorem wf_setCodeBytes (s : State) (sh : Bool) (a : Nat) (bs : List Byte)
    (h : Memory.wf zeroBg s.code = true ∧ Memory.wf zeroBg s.codeSh = true) :
    Memory.wf zeroBg (s.setCodeBytes sh a bs).code = true ∧ Memory.wf zeroBg (s.setCodeBytes sh a bs).codeSh = true := by
  unfold State.setCodeBytes
  split
  · exact ⟨h.1, wf_cellWrites zeroBg bs _ _ h.2⟩
  · exact ⟨wf_cellWrites zeroBg bs _ _ h.1, h.2⟩

/-- A line that stood under another key is rewritten in canonical form. -/
theorem wf_rekeyed (s : State) (key : List Byte) (d : List Cell) (x : Nat) (h : Memory.wf zeroBg d = true) :
    Memory.wf zeroBg (s.rekeyed key d x) = true := by
  unfold State.rekeyed
  split
  · exact wf_cellWrites zeroBg _ d _ h
  · exact h

/-- A write under a key keeps device memory canonical (16 R352). -/
theorem wf_writeKey (s : State) (slot a : Nat) (bs : List Byte) (h : Memory.wf zeroBg s.dev = true) :
    Memory.wf zeroBg (s.writeKey slot a bs).dev = true := by
  refine wf_cellWrites zeroBg bs _ a ?_
  split
  · exact h
  · exact wf_rekeyed s _ _ _ (wf_rekeyed s _ _ _ h)

/-- A write of an entry keeps device memory canonical. -/
theorem wf_setEntry (s : State) (a : Nat) (v : Dword) (h : Memory.wf zeroBg s.dev = true) :
    Memory.wf zeroBg (s.setEntry a v).dev = true := wf_writeKey s 0 a _ h

/-- Lines that are made to read as zero leave device memory canonical. -/
theorem wf_blankKey (s : State) (slot a n : Nat) (h : Memory.wf zeroBg s.dev = true) :
    Memory.wf zeroBg (s.blankKey slot a n).dev = true := wf_cellForget zeroBg _ s.dev a (a + n) (fun _ _ => rfl) h

/-- Where no line has been written under a key, device memory reads the same under every key. -/
theorem readKey_unlisted (s : State) (slot a n : Nat) (h : s.devKeys = []) : s.readKey slot a n = s.devBytes a n := by
  unfold State.readKey
  simp [h]

/-- A write to the mailboxes of BAR0 keeps them canonical (17 R358). -/
theorem wf_bar0Write (s : State) (port : Fin 2) (off : Nat) (bs : List Byte) (h : Memory.wf zeroBg s.bar0 = true) :
    Memory.wf zeroBg (s.bar0Write port off bs).bar0 = true := by
  unfold State.bar0Write
  split
  · exact h
  · show Memory.wf zeroBg (List.foldl _ s.bar0 bs.zipIdx) = true
    generalize bs.zipIdx = l
    revert h
    generalize s.bar0 = m
    intro h
    induction l generalizing m with
    | nil => exact h
    | cons b l ih =>
      rw [List.foldl_cons]
      refine ih _ ?_
      dsimp only
      split
      · exact wf_cellWrite zeroBg m _ _ h
      · exact h

/-- A scratchpad whose content is lost stays canonical. -/
theorem wf_wipeSpad (s : State) (u : UnitId) (seed : Nat) (h : Memory.wf s.spadBg s.spad = true) :
    Memory.wf (s.wipeSpad u seed).spadBg (s.wipeSpad u seed).spad = true := by
  unfold State.wipeSpad
  split
  · rename_i hu
    refine wf_cellForget s.spadBg _ s.spad (u.val * spadSize) ((u.val + 1) * spadSize) ?_ h
    intro x hx
    unfold State.spadBg
    by_cases hlt : x < 2 ^ 34
    · have hq : x / spadSize < 32 := by unfold spadSize; omega
      have hne : u.val ≠ x / spadSize := by
        intro e
        rw [e] at hx
        unfold spadSize at hx
        omega
      have hget : (s.spadSeed.set u.val seed hu).get (Fin.ofNat 32 (x / spadSize)) = s.spadSeed.get (Fin.ofNat 32 (x / spadSize)) := by
        show (s.spadSeed.set u.val seed hu)[(x / spadSize) % 32] = s.spadSeed[(x / spadSize) % 32]
        rw [Vector.getElem_set_ne]
        rw [Nat.mod_eq_of_lt hq]
        exact hne
      simp only [hget]
    · simp only [hlt, decide_false, Bool.false_and, Bool.false_eq_true, if_false]
  · exact h

end Sys2Proof.Machine
end

