-- ==== Sys2Proof/Laws/PerInstr.lean ====
section
/-! SUPPORT. For every instruction: the words that `encode` gives a legal one are as many as its length, one or two (02 R19, R20). -/

namespace Sys2Proof.Laws.Words
open Sys2Proof

/-- A legal instruction is encoded in as many words as its length says, one or two. -/
def Statement (i : Instr) : Prop :=
  ∀ (k : SeqName) (sh : Bool), i.wf k sh = true → (encode i).length = i.len ∧ 1 ≤ i.len ∧ i.len ≤ 2

theorem nop (h : Hdr) : Statement (.nop h) := fun _ _ _ => ⟨rfl, Nat.le_refl 1, Nat.le_succ 1⟩
theorem wait (h : Hdr) (n : BitVec 21) : Statement (.wait h n) := fun _ _ _ => ⟨rfl, Nat.le_refl 1, Nat.le_succ 1⟩
theorem j (h : Hdr) (off : BitVec 21) : Statement (.j h off) := fun _ _ _ => ⟨rfl, Nat.le_refl 1, Nat.le_succ 1⟩
theorem call (h : Hdr) (off : BitVec 21) : Statement (.call h off) := fun _ _ _ => ⟨rfl, Nat.le_refl 1, Nat.le_succ 1⟩
theorem ret (h : Hdr) : Statement (.ret h) := fun _ _ _ => ⟨rfl, Nat.le_refl 1, Nat.le_succ 1⟩
theorem loop (h : Hdr) (lvl : BitVec 2) (xa : XReg) (len : BitVec 14) : Statement (.loop h lvl xa len) := fun _ _ _ => ⟨rfl, Nat.le_refl 1, Nat.le_succ 1⟩
theorem loopi (h : Hdr) (lvl : BitVec 2) (len : BitVec 14) (count : BitVec 32) : Statement (.loopi h lvl len count) := fun _ _ _ => ⟨rfl, Nat.le_succ 1, Nat.le_refl 2⟩
theorem align (h : Hdr) (lvl : BitVec 2) (seg : BitVec 8) (xa : XReg) (budget : BitVec 32) : Statement (.align h lvl seg xa budget) := fun _ _ _ => ⟨rfl, Nat.le_succ 1, Nat.le_refl 2⟩
theorem relax (h : Hdr) : Statement (.relax h) := fun _ _ _ => ⟨rfl, Nat.le_refl 1, Nat.le_succ 1⟩
theorem bar (h : Hdr) (lvl : BitVec 3) (xt : XReg) : Statement (.bar h lvl xt) := fun _ _ _ => ⟨rfl, Nat.le_refl 1, Nat.le_succ 1⟩
theorem movi (h : Hdr) (xd : XReg) (imm : BitVec 16) : Statement (.movi h xd imm) := fun _ _ _ => ⟨rfl, Nat.le_refl 1, Nat.le_succ 1⟩
theorem movw (h : Hdr) (xd : XReg) (imm : BitVec 32) : Statement (.movw h xd imm) := fun _ _ _ => ⟨rfl, Nat.le_succ 1, Nat.le_refl 2⟩
theorem movh (h : Hdr) (xd : XReg) (imm : BitVec 32) : Statement (.movh h xd imm) := fun _ _ _ => ⟨rfl, Nat.le_succ 1, Nat.le_refl 2⟩
theorem addi (h : Hdr) (xd xa : XReg) (imm : BitVec 11) : Statement (.addi h xd xa imm) := fun _ _ _ => ⟨rfl, Nat.le_refl 1, Nat.le_succ 1⟩
theorem add (h : Hdr) (xd xa xb : XReg) (pg : PReg) : Statement (.add h xd xa xb pg) := fun _ _ _ => ⟨rfl, Nat.le_refl 1, Nat.le_succ 1⟩
theorem sub (h : Hdr) (xd xa xb : XReg) (pg : PReg) : Statement (.sub h xd xa xb pg) := fun _ _ _ => ⟨rfl, Nat.le_refl 1, Nat.le_succ 1⟩
theorem and_ (h : Hdr) (xd xa xb : XReg) (pg : PReg) : Statement (.and_ h xd xa xb pg) := fun _ _ _ => ⟨rfl, Nat.le_refl 1, Nat.le_succ 1⟩
theorem or_ (h : Hdr) (xd xa xb : XReg) (pg : PReg) : Statement (.or_ h xd xa xb pg) := fun _ _ _ => ⟨rfl, Nat.le_refl 1, Nat.le_succ 1⟩
theorem xor_ (h : Hdr) (xd xa xb : XReg) (pg : PReg) : Statement (.xor_ h xd xa xb pg) := fun _ _ _ => ⟨rfl, Nat.le_refl 1, Nat.le_succ 1⟩
theorem shl (h : Hdr) (xd xa xb : XReg) (pg : PReg) : Statement (.shl h xd xa xb pg) := fun _ _ _ => ⟨rfl, Nat.le_refl 1, Nat.le_succ 1⟩
theorem shr (h : Hdr) (xd xa xb : XReg) (pg : PReg) : Statement (.shr h xd xa xb pg) := fun _ _ _ => ⟨rfl, Nat.le_refl 1, Nat.le_succ 1⟩
theorem sar (h : Hdr) (xd xa xb : XReg) (pg : PReg) : Statement (.sar h xd xa xb pg) := fun _ _ _ => ⟨rfl, Nat.le_refl 1, Nat.le_succ 1⟩
theorem andi (h : Hdr) (xd xa : XReg) (imm : BitVec 8) : Statement (.andi h xd xa imm) := fun _ _ _ => ⟨rfl, Nat.le_refl 1, Nat.le_succ 1⟩
theorem ori (h : Hdr) (xd xa : XReg) (imm : BitVec 8) : Statement (.ori h xd xa imm) := fun _ _ _ => ⟨rfl, Nat.le_refl 1, Nat.le_succ 1⟩
theorem xori (h : Hdr) (xd xa : XReg) (imm : BitVec 8) : Statement (.xori h xd xa imm) := fun _ _ _ => ⟨rfl, Nat.le_refl 1, Nat.le_succ 1⟩
theorem shli (h : Hdr) (xd xa : XReg) (imm : BitVec 8) : Statement (.shli h xd xa imm) := fun _ _ _ => ⟨rfl, Nat.le_refl 1, Nat.le_succ 1⟩
theorem shri (h : Hdr) (xd xa : XReg) (imm : BitVec 8) : Statement (.shri h xd xa imm) := fun _ _ _ => ⟨rfl, Nat.le_refl 1, Nat.le_succ 1⟩
theorem sari (h : Hdr) (xd xa : XReg) (imm : BitVec 8) : Statement (.sari h xd xa imm) := fun _ _ _ => ⟨rfl, Nat.le_refl 1, Nat.le_succ 1⟩
theorem pcmp (h : Hdr) (pd : PReg) (xa xb : XReg) (cond : BitVec 3) : Statement (.pcmp h pd xa xb cond) := fun _ _ _ => ⟨rfl, Nat.le_refl 1, Nat.le_succ 1⟩
theorem pcmpi (h : Hdr) (pd : PReg) (xa : XReg) (cond : BitVec 3) (imm : BitVec 10) : Statement (.pcmpi h pd xa cond imm) := fun _ _ _ => ⟨rfl, Nat.le_refl 1, Nat.le_succ 1⟩
theorem pand (h : Hdr) (pd pa pb : PReg) : Statement (.pand h pd pa pb) := fun _ _ _ => ⟨rfl, Nat.le_refl 1, Nat.le_succ 1⟩
theorem por (h : Hdr) (pd pa pb : PReg) : Statement (.por h pd pa pb) := fun _ _ _ => ⟨rfl, Nat.le_refl 1, Nat.le_succ 1⟩
theorem pxor (h : Hdr) (pd pa pb : PReg) : Statement (.pxor h pd pa pb) := fun _ _ _ => ⟨rfl, Nat.le_refl 1, Nat.le_succ 1⟩
theorem pandn (h : Hdr) (pd pa pb : PReg) : Statement (.pandn h pd pa pb) := fun _ _ _ => ⟨rfl, Nat.le_refl 1, Nat.le_succ 1⟩
theorem sel (h : Hdr) (xd xa xb : XReg) (pg : PReg) : Statement (.sel h xd xa xb pg) := fun _ _ _ => ⟨rfl, Nat.le_refl 1, Nat.le_succ 1⟩
theorem mfs (h : Hdr) (xd : XReg) (sreg : BitVec 12) : Statement (.mfs h xd sreg) := fun _ _ _ => ⟨rfl, Nat.le_refl 1, Nat.le_succ 1⟩
theorem mts (h : Hdr) (xa : XReg) (sreg : BitVec 12) : Statement (.mts h xa sreg) := fun _ _ _ => ⟨rfl, Nat.le_refl 1, Nat.le_succ 1⟩
theorem fence (h : Hdr) (mask : BitVec 16) (scope : BitVec 3) : Statement (.fence h mask scope) := fun _ _ _ => ⟨rfl, Nat.le_refl 1, Nat.le_succ 1⟩
theorem drain (h : Hdr) (mask : BitVec 16) (scope : BitVec 3) : Statement (.drain h mask scope) := fun _ _ _ => ⟨rfl, Nat.le_refl 1, Nat.le_succ 1⟩
theorem waitany (h : Hdr) (xa xt : XReg) : Statement (.waitany h xa xt) := fun _ _ _ => ⟨rfl, Nat.le_refl 1, Nat.le_succ 1⟩
theorem waitall (h : Hdr) (xa xt : XReg) : Statement (.waitall h xa xt) := fun _ _ _ => ⟨rfl, Nat.le_refl 1, Nat.le_succ 1⟩
theorem ffrdy (h : Hdr) (pd : PReg) (xa : XReg) : Statement (.ffrdy h pd xa) := fun _ _ _ => ⟨rfl, Nat.le_refl 1, Nat.le_succ 1⟩
theorem waittl (h : Hdr) (ctx : BitVec 2) (xa xt : XReg) : Statement (.waittl h ctx xa xt) := fun _ _ _ => ⟨rfl, Nat.le_refl 1, Nat.le_succ 1⟩
theorem tlrdy (h : Hdr) (pd : PReg) (ctx : BitVec 2) (xa : XReg) : Statement (.tlrdy h pd ctx xa) := fun _ _ _ => ⟨rfl, Nat.le_refl 1, Nat.le_succ 1⟩
theorem end_ (h : Hdr) : Statement (.end_ h) := fun _ _ _ => ⟨rfl, Nat.le_refl 1, Nat.le_succ 1⟩
theorem trap (h : Hdr) (n : BitVec 21) : Statement (.trap h n) := fun _ _ _ => ⟨rfl, Nat.le_refl 1, Nat.le_succ 1⟩
theorem brk (h : Hdr) (n : BitVec 21) : Statement (.brk h n) := fun _ _ _ => ⟨rfl, Nat.le_refl 1, Nat.le_succ 1⟩
theorem chkP (h : Hdr) (p : PReg) (neg : BitVec 1) : Statement (.chkP h p neg) := fun _ _ _ => ⟨rfl, Nat.le_refl 1, Nat.le_succ 1⟩
theorem chkF (h : Hdr) (mask : BitVec 16) : Statement (.chkF h mask) := fun _ _ _ => ⟨rfl, Nat.le_refl 1, Nat.le_succ 1⟩
theorem mul (h : Hdr) (xd xa xb : XReg) (pg : PReg) : Statement (.mul h xd xa xb pg) := fun _ _ _ => ⟨rfl, Nat.le_refl 1, Nat.le_succ 1⟩
theorem mulhs (h : Hdr) (xd xa xb : XReg) (pg : PReg) : Statement (.mulhs h xd xa xb pg) := fun _ _ _ => ⟨rfl, Nat.le_refl 1, Nat.le_succ 1⟩
theorem mulhu (h : Hdr) (xd xa xb : XReg) (pg : PReg) : Statement (.mulhu h xd xa xb pg) := fun _ _ _ => ⟨rfl, Nat.le_refl 1, Nat.le_succ 1⟩
theorem idiv (h : Hdr) (xd xa xb : XReg) (pg : PReg) : Statement (.idiv h xd xa xb pg) := fun _ _ _ => ⟨rfl, Nat.le_refl 1, Nat.le_succ 1⟩
theorem idivu (h : Hdr) (xd xa xb : XReg) (pg : PReg) : Statement (.idivu h xd xa xb pg) := fun _ _ _ => ⟨rfl, Nat.le_refl 1, Nat.le_succ 1⟩
theorem irem (h : Hdr) (xd xa xb : XReg) (pg : PReg) : Statement (.irem h xd xa xb pg) := fun _ _ _ => ⟨rfl, Nat.le_refl 1, Nat.le_succ 1⟩
theorem iremu (h : Hdr) (xd xa xb : XReg) (pg : PReg) : Statement (.iremu h xd xa xb pg) := fun _ _ _ => ⟨rfl, Nat.le_refl 1, Nat.le_succ 1⟩
theorem min (h : Hdr) (xd xa xb : XReg) (pg : PReg) : Statement (.min h xd xa xb pg) := fun _ _ _ => ⟨rfl, Nat.le_refl 1, Nat.le_succ 1⟩
theorem max (h : Hdr) (xd xa xb : XReg) (pg : PReg) : Statement (.max h xd xa xb pg) := fun _ _ _ => ⟨rfl, Nat.le_refl 1, Nat.le_succ 1⟩
theorem minu (h : Hdr) (xd xa xb : XReg) (pg : PReg) : Statement (.minu h xd xa xb pg) := fun _ _ _ => ⟨rfl, Nat.le_refl 1, Nat.le_succ 1⟩
theorem maxu (h : Hdr) (xd xa xb : XReg) (pg : PReg) : Statement (.maxu h xd xa xb pg) := fun _ _ _ => ⟨rfl, Nat.le_refl 1, Nat.le_succ 1⟩
theorem andn (h : Hdr) (xd xa xb : XReg) (pg : PReg) : Statement (.andn h xd xa xb pg) := fun _ _ _ => ⟨rfl, Nat.le_refl 1, Nat.le_succ 1⟩
theorem orn (h : Hdr) (xd xa xb : XReg) (pg : PReg) : Statement (.orn h xd xa xb pg) := fun _ _ _ => ⟨rfl, Nat.le_refl 1, Nat.le_succ 1⟩
theorem xnor (h : Hdr) (xd xa xb : XReg) (pg : PReg) : Statement (.xnor h xd xa xb pg) := fun _ _ _ => ⟨rfl, Nat.le_refl 1, Nat.le_succ 1⟩
theorem rol (h : Hdr) (xd xa xb : XReg) (pg : PReg) : Statement (.rol h xd xa xb pg) := fun _ _ _ => ⟨rfl, Nat.le_refl 1, Nat.le_succ 1⟩
theorem ror (h : Hdr) (xd xa xb : XReg) (pg : PReg) : Statement (.ror h xd xa xb pg) := fun _ _ _ => ⟨rfl, Nat.le_refl 1, Nat.le_succ 1⟩
theorem clz (h : Hdr) (xd xa : XReg) (pg : PReg) : Statement (.clz h xd xa pg) := fun _ _ _ => ⟨rfl, Nat.le_refl 1, Nat.le_succ 1⟩
theorem ctz (h : Hdr) (xd xa : XReg) (pg : PReg) : Statement (.ctz h xd xa pg) := fun _ _ _ => ⟨rfl, Nat.le_refl 1, Nat.le_succ 1⟩
theorem popc (h : Hdr) (xd xa : XReg) (pg : PReg) : Statement (.popc h xd xa pg) := fun _ _ _ => ⟨rfl, Nat.le_refl 1, Nat.le_succ 1⟩
theorem brev (h : Hdr) (xd xa : XReg) (pg : PReg) : Statement (.brev h xd xa pg) := fun _ _ _ => ⟨rfl, Nat.le_refl 1, Nat.le_succ 1⟩
theorem bswap (h : Hdr) (xd xa : XReg) (pg : PReg) : Statement (.bswap h xd xa pg) := fun _ _ _ => ⟨rfl, Nat.le_refl 1, Nat.le_succ 1⟩
theorem setc (h : Hdr) (xd xa xb : XReg) (pg : PReg) (cond : BitVec 3) : Statement (.setc h xd xa xb pg cond) := fun _ _ _ => ⟨rfl, Nat.le_refl 1, Nat.le_succ 1⟩
theorem br (h : Hdr) (p : PReg) (neg : BitVec 1) (off : BitVec 17) : Statement (.br h p neg off) := fun _ _ _ => ⟨rfl, Nat.le_refl 1, Nat.le_succ 1⟩
theorem beqz (h : Hdr) (xa : XReg) (off : BitVec 14) : Statement (.beqz h xa off) := fun _ _ _ => ⟨rfl, Nat.le_refl 1, Nat.le_succ 1⟩
theorem bnez (h : Hdr) (xa : XReg) (off : BitVec 14) : Statement (.bnez h xa off) := fun _ _ _ => ⟨rfl, Nat.le_refl 1, Nat.le_succ 1⟩
theorem bltz (h : Hdr) (xa : XReg) (off : BitVec 14) : Statement (.bltz h xa off) := fun _ _ _ => ⟨rfl, Nat.le_refl 1, Nat.le_succ 1⟩
theorem bgez (h : Hdr) (xa : XReg) (off : BitVec 14) : Statement (.bgez h xa off) := fun _ _ _ => ⟨rfl, Nat.le_refl 1, Nat.le_succ 1⟩
theorem jx (h : Hdr) (xa : XReg) : Statement (.jx h xa) := fun _ _ _ => ⟨rfl, Nat.le_refl 1, Nat.le_succ 1⟩
theorem callx (h : Hdr) (xa : XReg) : Statement (.callx h xa) := fun _ _ _ => ⟨rfl, Nat.le_refl 1, Nat.le_succ 1⟩
theorem xset (h : Hdr) (seq : BitVec 2) (xd xa : XReg) : Statement (.xset h seq xd xa) := fun _ _ _ => ⟨rfl, Nat.le_refl 1, Nat.le_succ 1⟩
theorem xsetp (h : Hdr) (seq : BitVec 2) (pd ps : PReg) : Statement (.xsetp h seq pd ps) := fun _ _ _ => ⟨rfl, Nat.le_refl 1, Nat.le_succ 1⟩
theorem sld (h : Hdr) (xd xa : XReg) (oc : BitVec 4) (ord : BitVec 3) (size : BitVec 2) (sx : BitVec 1) : Statement (.sld h xd xa oc ord size sx) := fun _ _ _ => ⟨rfl, Nat.le_refl 1, Nat.le_succ 1⟩
theorem sst (h : Hdr) (xd xa : XReg) (oc : BitVec 4) (ord : BitVec 3) (size : BitVec 2) (sx : BitVec 1) : Statement (.sst h xd xa oc ord size sx) := fun _ _ _ => ⟨rfl, Nat.le_refl 1, Nat.le_succ 1⟩
theorem sldDisp (h : Hdr) (xd xa : XReg) (oc : BitVec 4) (ord : BitVec 3) (size : BitVec 2) (sx : BitVec 1) (disp : BitVec 32) : Statement (.sldDisp h xd xa oc ord size sx disp) := fun _ _ _ => ⟨rfl, Nat.le_succ 1, Nat.le_refl 2⟩
theorem sstDisp (h : Hdr) (xd xa : XReg) (oc : BitVec 4) (ord : BitVec 3) (size : BitVec 2) (sx : BitVec 1) (disp : BitVec 32) : Statement (.sstDisp h xd xa oc ord size sx disp) := fun _ _ _ => ⟨rfl, Nat.le_succ 1, Nat.le_refl 2⟩
theorem satm (h : Hdr) (xd xa xb : XReg) (fn : BitVec 3) (size : BitVec 1) (oc : BitVec 4) (ord : BitVec 3) (xc : XReg) : Statement (.satm h xd xa xb fn size oc ord xc) := fun _ _ _ => ⟨rfl, Nat.le_succ 1, Nat.le_refl 2⟩
theorem waita (h : Hdr) (xa xb : XReg) (cond : BitVec 3) (xt : XReg) (size : BitVec 1) (oc : BitVec 4) (ord : BitVec 3) : Statement (.waita h xa xb cond xt size oc ord) := fun _ _ _ => ⟨rfl, Nat.le_succ 1, Nat.le_refl 2⟩
theorem rdt (h : Hdr) (xd : XReg) : Statement (.rdt h xd) := fun _ _ _ => ⟨rfl, Nat.le_refl 1, Nat.le_succ 1⟩
theorem rdc (h : Hdr) (xd : XReg) : Statement (.rdc h xd) := fun _ _ _ => ⟨rfl, Nat.le_refl 1, Nat.le_succ 1⟩
theorem rdslip (h : Hdr) (xd : XReg) : Statement (.rdslip h xd) := fun _ _ _ => ⟨rfl, Nat.le_refl 1, Nat.le_succ 1⟩
theorem pitchq (h : Hdr) (xd : XReg) : Statement (.pitchq h xd) := fun _ _ _ => ⟨rfl, Nat.le_refl 1, Nat.le_succ 1⟩
theorem pitchw (h : Hdr) (xa xt : XReg) : Statement (.pitchw h xa xt) := fun _ _ _ => ⟨rfl, Nat.le_refl 1, Nat.le_succ 1⟩
theorem dronew (h : Hdr) (xa xt : XReg) : Statement (.dronew h xa xt) := fun _ _ _ => ⟨rfl, Nat.le_refl 1, Nat.le_succ 1⟩
theorem droneck (h : Hdr) (pd : PReg) (xa : XReg) : Statement (.droneck h pd xa) := fun _ _ _ => ⟨rfl, Nat.le_refl 1, Nat.le_succ 1⟩
theorem flgrd (h : Hdr) (xd : XReg) : Statement (.flgrd h xd) := fun _ _ _ => ⟨rfl, Nat.le_refl 1, Nat.le_succ 1⟩
theorem flgclr (h : Hdr) (mask : BitVec 16) : Statement (.flgclr h mask) := fun _ _ _ => ⟨rfl, Nat.le_refl 1, Nat.le_succ 1⟩
theorem flgtst (h : Hdr) (pd : PReg) (mask : BitVec 16) : Statement (.flgtst h pd mask) := fun _ _ _ => ⟨rfl, Nat.le_refl 1, Nat.le_succ 1⟩
theorem stepreq (h : Hdr) (xa xt : XReg) : Statement (.stepreq h xa xt) := fun _ _ _ => ⟨rfl, Nat.le_refl 1, Nat.le_succ 1⟩
theorem stepget (h : Hdr) (xd : XReg) : Statement (.stepget h xd) := fun _ _ _ => ⟨rfl, Nat.le_refl 1, Nat.le_succ 1⟩
theorem lnkst (h : Hdr) (xd : XReg) (port : BitVec 4) : Statement (.lnkst h xd port) := fun _ _ _ => ⟨rfl, Nat.le_refl 1, Nat.le_succ 1⟩
theorem ld (h : Hdr) (vt : TileCode) (xa : XReg) (oc : BitVec 4) (ord : BitVec 3) : Statement (.ld h vt xa oc ord) := fun _ _ _ => ⟨rfl, Nat.le_refl 1, Nat.le_succ 1⟩
theorem ldDisp (h : Hdr) (vt : TileCode) (xa : XReg) (oc : BitVec 4) (ord : BitVec 3) (disp : BitVec 32) : Statement (.ldDisp h vt xa oc ord disp) := fun _ _ _ => ⟨rfl, Nat.le_succ 1, Nat.le_refl 2⟩
theorem ldb (h : Hdr) (vt vi : TileCode) (xa : XReg) (oc : BitVec 4) (budget : BitVec 9) (size : BitVec 2) (ord : BitVec 3) : Statement (.ldb h vt vi xa oc budget size ord) := fun _ _ _ => ⟨rfl, Nat.le_succ 1, Nat.le_refl 2⟩
theorem pld (h : Hdr) (slot : BitVec 3) (xa : XReg) (oc planes : BitVec 4) : Statement (.pld h slot xa oc planes) := fun _ _ _ => ⟨rfl, Nat.le_refl 1, Nat.le_succ 1⟩
theorem pldDisp (h : Hdr) (slot : BitVec 3) (xa : XReg) (oc planes : BitVec 4) (disp : BitVec 32) : Statement (.pldDisp h slot xa oc planes disp) := fun _ _ _ => ⟨rfl, Nat.le_succ 1, Nat.le_refl 2⟩
theorem rld (h : Hdr) (slot : BitVec 3) (xa : XReg) (oc : BitVec 4) : Statement (.rld h slot xa oc) := fun _ _ _ => ⟨rfl, Nat.le_refl 1, Nat.le_succ 1⟩
theorem rldDisp (h : Hdr) (slot : BitVec 3) (xa : XReg) (oc : BitVec 4) (disp : BitVec 32) : Statement (.rldDisp h slot xa oc disp) := fun _ _ _ => ⟨rfl, Nat.le_succ 1, Nat.le_refl 2⟩
theorem sqld (h : Hdr) (xa : XReg) (oc : BitVec 4) : Statement (.sqld h xa oc) := fun _ _ _ => ⟨rfl, Nat.le_refl 1, Nat.le_succ 1⟩
theorem sqldDisp (h : Hdr) (xa : XReg) (oc : BitVec 4) (disp : BitVec 32) : Statement (.sqldDisp h xa oc disp) := fun _ _ _ => ⟨rfl, Nat.le_succ 1, Nat.le_refl 2⟩
theorem rrot (h : Hdr) (xa xb : XReg) (dir : BitVec 1) (oc : BitVec 4) : Statement (.rrot h xa xb dir oc) := fun _ _ _ => ⟨rfl, Nat.le_refl 1, Nat.le_succ 1⟩
theorem cpy (h : Hdr) (xd xa xb : XReg) (tag : BitVec 6) (ctx : BitVec 2) (oc : BitVec 4) (ord : BitVec 3) : Statement (.cpy h xd xa xb tag ctx oc ord) := fun _ _ _ => ⟨rfl, Nat.le_succ 1, Nat.le_refl 2⟩
theorem cpy2 (h : Hdr) (xd xa xb : XReg) (tag : BitVec 6) (ctx : BitVec 2) (oc : BitVec 4) (ord : BitVec 3) (xr xs xt : XReg) : Statement (.cpy2 h xd xa xb tag ctx oc ord xr xs xt) := fun _ _ _ => ⟨rfl, Nat.le_succ 1, Nat.le_refl 2⟩
theorem cfill (h : Hdr) (xd xa xb : XReg) (tag : BitVec 6) (ctx : BitVec 2) (oc : BitVec 4) (ord : BitVec 3) : Statement (.cfill h xd xa xb tag ctx oc ord) := fun _ _ _ => ⟨rfl, Nat.le_succ 1, Nat.le_refl 2⟩
theorem cpt (h : Hdr) (xd xa xb : XReg) (tag : BitVec 6) (ctx : BitVec 2) (oc : BitVec 4) (ord : BitVec 3) (xr xs xt : XReg) (fmt : BitVec 4) : Statement (.cpt h xd xa xb tag ctx oc ord xr xs xt fmt) := fun _ _ _ => ⟨rfl, Nat.le_succ 1, Nat.le_refl 2⟩
theorem tagclr (h : Hdr) (xa : XReg) : Statement (.tagclr h xa) := fun _ _ _ => ⟨rfl, Nat.le_refl 1, Nat.le_succ 1⟩
theorem rxarm (h : Hdr) (xa : XReg) (rx : BitVec 6) : Statement (.rxarm h xa rx) := fun _ _ _ => ⟨rfl, Nat.le_refl 1, Nat.le_succ 1⟩
theorem rxchk (h : Hdr) (pd : PReg) (rx : BitVec 6) : Statement (.rxchk h pd rx) := fun _ _ _ => ⟨rfl, Nat.le_refl 1, Nat.le_succ 1⟩
theorem rxmsk (h : Hdr) (xd : XReg) (rx : BitVec 6) : Statement (.rxmsk h xd rx) := fun _ _ _ => ⟨rfl, Nat.le_refl 1, Nat.le_succ 1⟩
theorem vfadd (h : Hdr) (vd va vb : TileCode) (pg : PReg) : Statement (.vfadd h vd va vb pg) := fun _ _ _ => ⟨rfl, Nat.le_refl 1, Nat.le_succ 1⟩
theorem vfsub (h : Hdr) (vd va vb : TileCode) (pg : PReg) : Statement (.vfsub h vd va vb pg) := fun _ _ _ => ⟨rfl, Nat.le_refl 1, Nat.le_succ 1⟩
theorem vfmul (h : Hdr) (vd va vb : TileCode) (pg : PReg) : Statement (.vfmul h vd va vb pg) := fun _ _ _ => ⟨rfl, Nat.le_refl 1, Nat.le_succ 1⟩
theorem vfma (h : Hdr) (vd va vb : TileCode) (pg : PReg) (vc : TileCode) : Statement (.vfma h vd va vb pg vc) := fun _ _ _ => ⟨rfl, Nat.le_succ 1, Nat.le_refl 2⟩
theorem vfms (h : Hdr) (vd va vb : TileCode) (pg : PReg) (vc : TileCode) : Statement (.vfms h vd va vb pg vc) := fun _ _ _ => ⟨rfl, Nat.le_succ 1, Nat.le_refl 2⟩
theorem vfnma (h : Hdr) (vd va vb : TileCode) (pg : PReg) (vc : TileCode) : Statement (.vfnma h vd va vb pg vc) := fun _ _ _ => ⟨rfl, Nat.le_succ 1, Nat.le_refl 2⟩
theorem vfmin (h : Hdr) (vd va vb : TileCode) (pg : PReg) : Statement (.vfmin h vd va vb pg) := fun _ _ _ => ⟨rfl, Nat.le_refl 1, Nat.le_succ 1⟩
theorem vfmax (h : Hdr) (vd va vb : TileCode) (pg : PReg) : Statement (.vfmax h vd va vb pg) := fun _ _ _ => ⟨rfl, Nat.le_refl 1, Nat.le_succ 1⟩
theorem vfabs (h : Hdr) (vd va : TileCode) (pg : PReg) : Statement (.vfabs h vd va pg) := fun _ _ _ => ⟨rfl, Nat.le_refl 1, Nat.le_succ 1⟩
theorem vfneg (h : Hdr) (vd va : TileCode) (pg : PReg) : Statement (.vfneg h vd va pg) := fun _ _ _ => ⟨rfl, Nat.le_refl 1, Nat.le_succ 1⟩
theorem vfceq (h : Hdr) (vd va vb : TileCode) (pg : PReg) : Statement (.vfceq h vd va vb pg) := fun _ _ _ => ⟨rfl, Nat.le_refl 1, Nat.le_succ 1⟩
theorem vfclt (h : Hdr) (vd va vb : TileCode) (pg : PReg) : Statement (.vfclt h vd va vb pg) := fun _ _ _ => ⟨rfl, Nat.le_refl 1, Nat.le_succ 1⟩
theorem vfcle (h : Hdr) (vd va vb : TileCode) (pg : PReg) : Statement (.vfcle h vd va vb pg) := fun _ _ _ => ⟨rfl, Nat.le_refl 1, Nat.le_succ 1⟩
theorem vfcun (h : Hdr) (vd va vb : TileCode) (pg : PReg) : Statement (.vfcun h vd va vb pg) := fun _ _ _ => ⟨rfl, Nat.le_refl 1, Nat.le_succ 1⟩
theorem viadd (h : Hdr) (vd va vb : TileCode) (pg : PReg) : Statement (.viadd h vd va vb pg) := fun _ _ _ => ⟨rfl, Nat.le_refl 1, Nat.le_succ 1⟩
theorem visub (h : Hdr) (vd va vb : TileCode) (pg : PReg) : Statement (.visub h vd va vb pg) := fun _ _ _ => ⟨rfl, Nat.le_refl 1, Nat.le_succ 1⟩
theorem vimul (h : Hdr) (vd va vb : TileCode) (pg : PReg) : Statement (.vimul h vd va vb pg) := fun _ _ _ => ⟨rfl, Nat.le_refl 1, Nat.le_succ 1⟩
theorem vimulh (h : Hdr) (vd va vb : TileCode) (pg : PReg) : Statement (.vimulh h vd va vb pg) := fun _ _ _ => ⟨rfl, Nat.le_refl 1, Nat.le_succ 1⟩
theorem vimin (h : Hdr) (vd va vb : TileCode) (pg : PReg) : Statement (.vimin h vd va vb pg) := fun _ _ _ => ⟨rfl, Nat.le_refl 1, Nat.le_succ 1⟩
theorem vimax (h : Hdr) (vd va vb : TileCode) (pg : PReg) : Statement (.vimax h vd va vb pg) := fun _ _ _ => ⟨rfl, Nat.le_refl 1, Nat.le_succ 1⟩
theorem vumin (h : Hdr) (vd va vb : TileCode) (pg : PReg) : Statement (.vumin h vd va vb pg) := fun _ _ _ => ⟨rfl, Nat.le_refl 1, Nat.le_succ 1⟩
theorem vumax (h : Hdr) (vd va vb : TileCode) (pg : PReg) : Statement (.vumax h vd va vb pg) := fun _ _ _ => ⟨rfl, Nat.le_refl 1, Nat.le_succ 1⟩
theorem viadds (h : Hdr) (vd va vb : TileCode) (pg : PReg) : Statement (.viadds h vd va vb pg) := fun _ _ _ => ⟨rfl, Nat.le_refl 1, Nat.le_succ 1⟩
theorem visubs (h : Hdr) (vd va vb : TileCode) (pg : PReg) : Statement (.visubs h vd va vb pg) := fun _ _ _ => ⟨rfl, Nat.le_refl 1, Nat.le_succ 1⟩
theorem vand (h : Hdr) (vd va vb : TileCode) (pg : PReg) : Statement (.vand h vd va vb pg) := fun _ _ _ => ⟨rfl, Nat.le_refl 1, Nat.le_succ 1⟩
theorem vor (h : Hdr) (vd va vb : TileCode) (pg : PReg) : Statement (.vor h vd va vb pg) := fun _ _ _ => ⟨rfl, Nat.le_refl 1, Nat.le_succ 1⟩
theorem vxor (h : Hdr) (vd va vb : TileCode) (pg : PReg) : Statement (.vxor h vd va vb pg) := fun _ _ _ => ⟨rfl, Nat.le_refl 1, Nat.le_succ 1⟩
theorem vandn (h : Hdr) (vd va vb : TileCode) (pg : PReg) : Statement (.vandn h vd va vb pg) := fun _ _ _ => ⟨rfl, Nat.le_refl 1, Nat.le_succ 1⟩
theorem vshl (h : Hdr) (vd va vb : TileCode) (pg : PReg) : Statement (.vshl h vd va vb pg) := fun _ _ _ => ⟨rfl, Nat.le_refl 1, Nat.le_succ 1⟩
theorem vshr (h : Hdr) (vd va vb : TileCode) (pg : PReg) : Statement (.vshr h vd va vb pg) := fun _ _ _ => ⟨rfl, Nat.le_refl 1, Nat.le_succ 1⟩
theorem vsar (h : Hdr) (vd va vb : TileCode) (pg : PReg) : Statement (.vsar h vd va vb pg) := fun _ _ _ => ⟨rfl, Nat.le_refl 1, Nat.le_succ 1⟩
theorem viceq (h : Hdr) (vd va vb : TileCode) (pg : PReg) : Statement (.viceq h vd va vb pg) := fun _ _ _ => ⟨rfl, Nat.le_refl 1, Nat.le_succ 1⟩
theorem viclt (h : Hdr) (vd va vb : TileCode) (pg : PReg) : Statement (.viclt h vd va vb pg) := fun _ _ _ => ⟨rfl, Nat.le_refl 1, Nat.le_succ 1⟩
theorem vuclt (h : Hdr) (vd va vb : TileCode) (pg : PReg) : Statement (.vuclt h vd va vb pg) := fun _ _ _ => ⟨rfl, Nat.le_refl 1, Nat.le_succ 1⟩
theorem vmov (h : Hdr) (vd va : TileCode) (pg : PReg) : Statement (.vmov h vd va pg) := fun _ _ _ => ⟨rfl, Nat.le_refl 1, Nat.le_succ 1⟩
theorem vxm (h : Hdr) (vd va : TileCode) (pg : PReg) : Statement (.vxm h vd va pg) := fun _ _ _ => ⟨rfl, Nat.le_refl 1, Nat.le_succ 1⟩
theorem vsel (h : Hdr) (vd va vb : TileCode) (pg : PReg) (vc : TileCode) : Statement (.vsel h vd va vb pg vc) := fun _ _ _ => ⟨rfl, Nat.le_succ 1, Nat.le_refl 2⟩
theorem vbcast (h : Hdr) (vd : TileCode) (xa : XReg) (pg : PReg) : Statement (.vbcast h vd xa pg) := fun _ _ _ => ⟨rfl, Nat.le_refl 1, Nat.le_succ 1⟩
theorem vget (h : Hdr) (xd : XReg) (va : TileCode) (lane : BitVec 8) : Statement (.vget h xd va lane) := fun _ _ _ => ⟨rfl, Nat.le_refl 1, Nat.le_succ 1⟩
theorem vcvt (h : Hdr) (vd va : TileCode) (src dst : BitVec 4) (sat : BitVec 1) : Statement (.vcvt h vd va src dst sat) := fun _ _ _ => ⟨rfl, Nat.le_refl 1, Nat.le_succ 1⟩
theorem vpush (h : Hdr) (q : BitVec 2) (va vm : TileCode) (pg : PReg) : Statement (.vpush h q va vm pg) := fun _ _ _ => ⟨rfl, Nat.le_refl 1, Nat.le_succ 1⟩
theorem vpop (h : Hdr) (q : BitVec 2) (vd : TileCode) (xd : XReg) : Statement (.vpop h q vd xd) := fun _ _ _ => ⟨rfl, Nat.le_refl 1, Nat.le_succ 1⟩
theorem vqcnt (h : Hdr) (xd : XReg) (q : BitVec 2) : Statement (.vqcnt h xd q) := fun _ _ _ => ⟨rfl, Nat.le_refl 1, Nat.le_succ 1⟩
theorem shape (h : Hdr) (rows cols : BitVec 4) : Statement (.shape h rows cols) := fun _ _ _ => ⟨rfl, Nat.le_refl 1, Nat.le_succ 1⟩
theorem exp2 (h : Hdr) (vd va : TileCode) (pg : PReg) : Statement (.exp2 h vd va pg) := fun _ _ _ => ⟨rfl, Nat.le_refl 1, Nat.le_succ 1⟩
theorem log2 (h : Hdr) (vd va : TileCode) (pg : PReg) : Statement (.log2 h vd va pg) := fun _ _ _ => ⟨rfl, Nat.le_refl 1, Nat.le_succ 1⟩
theorem rcp (h : Hdr) (vd va : TileCode) (pg : PReg) : Statement (.rcp h vd va pg) := fun _ _ _ => ⟨rfl, Nat.le_refl 1, Nat.le_succ 1⟩
theorem rsq (h : Hdr) (vd va : TileCode) (pg : PReg) : Statement (.rsq h vd va pg) := fun _ _ _ => ⟨rfl, Nat.le_refl 1, Nat.le_succ 1⟩
theorem sqrt (h : Hdr) (vd va : TileCode) (pg : PReg) : Statement (.sqrt h vd va pg) := fun _ _ _ => ⟨rfl, Nat.le_refl 1, Nat.le_succ 1⟩
theorem div (h : Hdr) (vd va vb : TileCode) (pg : PReg) : Statement (.div h vd va vb pg) := fun _ _ _ => ⟨rfl, Nat.le_refl 1, Nat.le_succ 1⟩
theorem vrsum (h : Hdr) (vd va : TileCode) (pg : PReg) : Statement (.vrsum h vd va pg) := fun _ _ _ => ⟨rfl, Nat.le_refl 1, Nat.le_succ 1⟩
theorem vrisum (h : Hdr) (vd va : TileCode) (pg : PReg) : Statement (.vrisum h vd va pg) := fun _ _ _ => ⟨rfl, Nat.le_refl 1, Nat.le_succ 1⟩
theorem vrmax (h : Hdr) (vd va : TileCode) (nan : BitVec 1) (pg : PReg) : Statement (.vrmax h vd va nan pg) := fun _ _ _ => ⟨rfl, Nat.le_refl 1, Nat.le_succ 1⟩
theorem vrmin (h : Hdr) (vd va : TileCode) (nan : BitVec 1) (pg : PReg) : Statement (.vrmin h vd va nan pg) := fun _ _ _ => ⟨rfl, Nat.le_refl 1, Nat.le_succ 1⟩
theorem vrimax (h : Hdr) (vd va : TileCode) (pg : PReg) : Statement (.vrimax h vd va pg) := fun _ _ _ => ⟨rfl, Nat.le_refl 1, Nat.le_succ 1⟩
theorem vrimin (h : Hdr) (vd va : TileCode) (pg : PReg) : Statement (.vrimin h vd va pg) := fun _ _ _ => ⟨rfl, Nat.le_refl 1, Nat.le_succ 1⟩
theorem vrdot (h : Hdr) (vd va vb : TileCode) (pg : PReg) : Statement (.vrdot h vd va vb pg) := fun _ _ _ => ⟨rfl, Nat.le_refl 1, Nat.le_succ 1⟩
theorem vrlsum (h : Hdr) (vd va vb : TileCode) (pg : PReg) : Statement (.vrlsum h vd va vb pg) := fun _ _ _ => ⟨rfl, Nat.le_refl 1, Nat.le_succ 1⟩
theorem vrscl (h : Hdr) (vd va vb : TileCode) (pg : PReg) : Statement (.vrscl h vd va vb pg) := fun _ _ _ => ⟨rfl, Nat.le_refl 1, Nat.le_succ 1⟩
theorem vmcnt (h : Hdr) (vd va : TileCode) (pg : PReg) : Statement (.vmcnt h vd va pg) := fun _ _ _ => ⟨rfl, Nat.le_refl 1, Nat.le_succ 1⟩
theorem mma (h : Hdr) (c : BitVec 2) (pa pb : BitVec 3) (fsrc : BitVec 1) (lvl : BitVec 2) (planes fa fb : BitVec 4) (zero : BitVec 1) (kblk : BitVec 3) : Statement (.mma h c pa pb fsrc lvl planes fa fb zero kblk) := fun _ _ _ => ⟨rfl, Nat.le_succ 1, Nat.le_refl 2⟩
theorem mmas (h : Hdr) (c : BitVec 2) (pa pb : BitVec 3) (fsrc : BitVec 1) (lvl : BitVec 2) (planes : BitVec 4) (pm : BitVec 3) (fa fb : BitVec 4) (zero : BitVec 1) (kblk : BitVec 3) : Statement (.mmas h c pa pb fsrc lvl planes pm fa fb zero kblk) := fun _ _ _ => ⟨rfl, Nat.le_succ 1, Nat.le_refl 2⟩
theorem mclr (h : Hdr) (c : BitVec 2) : Statement (.mclr h c) := fun _ _ _ => ⟨rfl, Nat.le_refl 1, Nat.le_succ 1⟩
theorem accmv (h : Hdr) (vt : TileCode) (c : BitVec 2) (row0 : BitVec 7) (pg : PReg) (col0 : BitVec 8) (fmt : BitVec 4) (sat tr : BitVec 1) : Statement (.accmv h vt c row0 pg col0 fmt sat tr) := fun _ _ _ => ⟨rfl, Nat.le_succ 1, Nat.le_refl 2⟩
theorem accin (h : Hdr) (vt : TileCode) (c : BitVec 2) (row0 : BitVec 7) (pg : PReg) (col0 : BitVec 8) (fmt : BitVec 4) (sat tr : BitVec 1) : Statement (.accin h vt c row0 pg col0 fmt sat tr) := fun _ _ _ => ⟨rfl, Nat.le_succ 1, Nat.le_refl 2⟩
theorem ftset (h : Hdr) (ft : BitVec 4) (xa : XReg) : Statement (.ftset h ft xa) := fun _ _ _ => ⟨rfl, Nat.le_refl 1, Nat.le_succ 1⟩
theorem ftget (h : Hdr) (xd : XReg) (ft : BitVec 4) : Statement (.ftget h xd ft) := fun _ _ _ => ⟨rfl, Nat.le_refl 1, Nat.le_succ 1⟩
theorem sqcnt (h : Hdr) (xd : XReg) : Statement (.sqcnt h xd) := fun _ _ _ => ⟨rfl, Nat.le_refl 1, Nat.le_succ 1⟩
theorem sqdrop (h : Hdr) (xa : XReg) : Statement (.sqdrop h xa) := fun _ _ _ => ⟨rfl, Nat.le_refl 1, Nat.le_succ 1⟩
theorem st (h : Hdr) (vt : TileCode) (xa : XReg) (oc : BitVec 4) (ord : BitVec 3) : Statement (.st h vt xa oc ord) := fun _ _ _ => ⟨rfl, Nat.le_refl 1, Nat.le_succ 1⟩
theorem stDisp (h : Hdr) (vt : TileCode) (xa : XReg) (oc : BitVec 4) (ord : BitVec 3) (disp : BitVec 32) : Statement (.stDisp h vt xa oc ord disp) := fun _ _ _ => ⟨rfl, Nat.le_succ 1, Nat.le_refl 2⟩
theorem stb (h : Hdr) (vt vi : TileCode) (xa : XReg) (oc : BitVec 4) (budget : BitVec 9) (size : BitVec 2) (ord : BitVec 3) : Statement (.stb h vt vi xa oc budget size ord) := fun _ _ _ => ⟨rfl, Nat.le_succ 1, Nat.le_refl 2⟩
theorem atm (h : Hdr) (xd xa xb : XReg) (fn : BitVec 3) (size : BitVec 1) (oc : BitVec 4) (ord : BitVec 3) (xc : XReg) : Statement (.atm h xd xa xb fn size oc ord xc) := fun _ _ _ => ⟨rfl, Nat.le_succ 1, Nat.le_refl 2⟩
theorem rst (h : Hdr) (xa xb xc : XReg) (cls : BitVec 1) (xr : XReg) : Statement (.rst h xa xb xc cls xr) := fun _ _ _ => ⟨rfl, Nat.le_succ 1, Nat.le_refl 2⟩
theorem rsig (h : Hdr) (xa xb xr : XReg) : Statement (.rsig h xa xb xr) := fun _ _ _ => ⟨rfl, Nat.le_refl 1, Nat.le_succ 1⟩
theorem ratm (h : Hdr) (xd xa xb : XReg) (fn : BitVec 3) (size : BitVec 1) (xr xc : XReg) : Statement (.ratm h xd xa xb fn size xr xc) := fun _ _ _ => ⟨rfl, Nat.le_succ 1, Nat.le_refl 2⟩
theorem coll (h : Hdr) (xa : XReg) (hd : BitVec 6) : Statement (.coll h xa hd) := fun _ _ _ => ⟨rfl, Nat.le_refl 1, Nat.le_succ 1⟩
theorem collw (h : Hdr) (hd : BitVec 6) (xt : XReg) : Statement (.collw h hd xt) := fun _ _ _ => ⟨rfl, Nat.le_refl 1, Nat.le_succ 1⟩
theorem a2a (h : Hdr) (xa xb : XReg) (hd : BitVec 6) : Statement (.a2a h xa xb hd) := fun _ _ _ => ⟨rfl, Nat.le_refl 1, Nat.le_succ 1⟩
theorem psend (h : Hdr) (xa : XReg) : Statement (.psend h xa) := fun _ _ _ => ⟨rfl, Nat.le_refl 1, Nat.le_succ 1⟩
theorem guard (h : Hdr) (port : BitVec 4) (beats : BitVec 8) : Statement (.guard h port beats) := fun _ _ _ => ⟨rfl, Nat.le_refl 1, Nat.le_succ 1⟩
theorem alignRelease (who : List SeqId) (lvl : Nat) (k : Nat) : Statement (.alignRelease who lvl k) := fun _ _ h => nomatch h
theorem segmentDeadline (q : SeqId) (serial : Nat) : Statement (.segmentDeadline q serial) := fun _ _ h => nomatch h
theorem barComplete (who : List SeqId) (lvl : Nat) : Statement (.barComplete who lvl) := fun _ _ h => nomatch h
theorem waitTimeout (q : SeqId) (t0 : Nat) : Statement (.waitTimeout q t0) := fun _ _ h => nomatch h
theorem branchResolve (unit : UnitId) (id : Nat) : Statement (.branchResolve unit id) := fun _ _ h => nomatch h
theorem waitaReread (q : SeqId) (t0 : Nat) : Statement (.waitaReread q t0) := fun _ _ h => nomatch h
theorem droneInstantReached (q : SeqId) (t0 : Nat) : Statement (.droneInstantReached q t0) := fun _ _ h => nomatch h
theorem copyComplete (unit : UnitId) (serial : Nat) : Statement (.copyComplete unit serial) := fun _ _ h => nomatch h
theorem collStep (unit : UnitId) (hd : Idx64) (j : Nat) : Statement (.collStep unit hd j) := fun _ _ h => nomatch h
theorem guardIntervalStart (unit : UnitId) (port : PortId) (beats : Nat) (aligned : Bool) (pc : Dword) : Statement (.guardIntervalStart unit port beats aligned pc) := fun _ _ h => nomatch h
theorem signalAdd (id : Nat) : Statement (.signalAdd id) := fun _ _ h => nomatch h
theorem remoteAtomic (id : Nat) : Statement (.remoteAtomic id) := fun _ _ h => nomatch h
theorem exchangeStage1 (a : Arrival) : Statement (.exchangeStage1 a) := fun _ _ h => nomatch h
theorem exchangeStage2 (a : Arrival) : Statement (.exchangeStage2 a) := fun _ _ h => nomatch h
theorem descriptorClose (unit : UnitId) (rx : Idx64) (serial : Nat) : Statement (.descriptorClose unit rx serial) := fun _ _ h => nomatch h
theorem silence (rank : Nat) : Statement (.silence rank) := fun _ _ h => nomatch h
theorem noticeApply (x : Nat) : Statement (.noticeApply x) := fun _ _ h => nomatch h
theorem variantPlacement (nd : Nat) : Statement (.variantPlacement nd) := fun _ _ h => nomatch h
theorem nodeArm (nd : Nat) : Statement (.nodeArm nd) := fun _ _ h => nomatch h
theorem semaphorePoll (q : QueueId) (sq : Nat) : Statement (.semaphorePoll q sq) := fun _ _ h => nomatch h
theorem semwaitTimeout (q : QueueId) (sq : Nat) : Statement (.semwaitTimeout q sq) := fun _ _ h => nomatch h
theorem park (q : QueueId) (sq : Nat) : Statement (.park q sq) := fun _ _ h => nomatch h
theorem parkedPoll (q : QueueId) (sq : Nat) : Statement (.parkedPoll q sq) := fun _ _ h => nomatch h
theorem imageRelease (image : Nat) : Statement (.imageRelease image) := fun _ _ h => nomatch h
theorem completionRecordWrite (q : QueueId) : Statement (.completionRecordWrite q) := fun _ _ h => nomatch h
theorem coreGrant (part : PartId) (core : UnitId) : Statement (.coreGrant part core) := fun _ _ h => nomatch h
theorem borderMove (part : PartId) (core : UnitId) : Statement (.borderMove part core) := fun _ _ h => nomatch h
theorem preemptionRequest (nd : Nat) (asker : Claimant) : Statement (.preemptionRequest nd asker) := fun _ _ h => nomatch h
theorem nodeBudgetExpiry (nd : Nat) (attempt : Nat) : Statement (.nodeBudgetExpiry nd attempt) := fun _ _ h => nomatch h
theorem nodeEnd (nd : Nat) : Statement (.nodeEnd nd) := fun _ _ h => nomatch h
theorem commit (nd : Nat) : Statement (.commit nd) := fun _ _ h => nomatch h
theorem groupVote (nd : Nat) (rank : Nat) (yes : Bool) : Statement (.groupVote nd rank yes) := fun _ _ h => nomatch h
theorem groupDecision (nd : Nat) (yes : Bool) : Statement (.groupDecision nd yes) := fun _ _ h => nomatch h
theorem voteTimeout (nd : Nat) : Statement (.voteTimeout nd) := fun _ _ h => nomatch h
theorem inDoubt (nd : Nat) : Statement (.inDoubt nd) := fun _ _ h => nomatch h
theorem musterResult (unit : UnitId) (ok : Bool) : Statement (.musterResult unit ok) := fun _ _ h => nomatch h
theorem shepherdExchange (die : Fin 4) : Statement (.shepherdExchange die) := fun _ _ h => nomatch h
theorem requestReturn (id : Nat) : Statement (.requestReturn id) := fun _ _ h => nomatch h
theorem pageWalk (id : Nat) : Statement (.pageWalk id) := fun _ _ h => nomatch h
theorem holdRelease (nd : Nat) : Statement (.holdRelease nd) := fun _ _ h => nomatch h
theorem debugHalt (nd : Nat) : Statement (.debugHalt nd) := fun _ _ h => nomatch h
theorem debugResume (call : Resumption) : Statement (.debugResume call) := fun _ _ h => nomatch h
theorem groupFault : Statement (.groupFault) := fun _ _ h => nomatch h
theorem raiseProposal : Statement (.raiseProposal) := fun _ _ h => nomatch h
theorem catchUpEnd : Statement (.catchUpEnd) := fun _ _ h => nomatch h
theorem emergencyThrottle : Statement (.emergencyThrottle) := fun _ _ h => nomatch h
theorem powerOn : Statement (.powerOn) := fun _ _ h => nomatch h
theorem musterTake : Statement (.musterTake) := fun _ _ h => nomatch h
theorem alarmClear : Statement (.alarmClear) := fun _ _ h => nomatch h
theorem catchUp : Statement (.catchUp) := fun _ _ h => nomatch h
theorem groupAnnouncement (rank : Nat) (k : Nat) (d : Dword) (bar : Bool) : Statement (.groupAnnouncement rank k d bar) := fun _ _ h => nomatch h
theorem fwd (a : Arrival) : Statement (.fwd a) := fun _ _ h => nomatch h
theorem dlv (a : Arrival) : Statement (.dlv a) := fun _ _ h => nomatch h
theorem dup (a : Arrival) : Statement (.dup a) := fun _ _ h => nomatch h
theorem routeEnd (a : Arrival) : Statement (.routeEnd a) := fun _ _ h => nomatch h
theorem atomicReply (unit : UnitId) (slot : Idx64) (old : Dword) : Statement (.atomicReply unit slot old) := fun _ _ h => nomatch h
theorem slotFreeNotice (unit : UnitId) (slot : Idx64) (handle : Option Idx64) : Statement (.slotFreeNotice unit slot handle) := fun _ _ h => nomatch h
theorem linkReplay (port : PortId) (ok : Bool) : Statement (.linkReplay port ok) := fun _ _ h => nomatch h
theorem elasticBufferLimit (port : PortId) (fill : Nat) : Statement (.elasticBufferLimit port fill) := fun _ _ h => nomatch h
theorem linkDown (port : Nat) : Statement (.linkDown port) := fun _ _ h => nomatch h
theorem droneExchange (t1 : Nat) (t2 : Nat) (t3 : Nat) (t4 : Nat) (asym : Int) : Statement (.droneExchange t1 t2 t3 t4 asym) := fun _ _ h => nomatch h
theorem beacon (src : Neighbour) (lim : Nat) (slip : Nat) (lowest : Nat) (silent : List Nat) : Statement (.beacon src lim slip lowest silent) := fun _ _ h => nomatch h
theorem faultNotice (n : FaultWord) : Statement (.faultNotice n) := fun _ _ h => nomatch h
theorem notice (n : NoticeWord) : Statement (.notice n) := fun _ _ h => nomatch h
theorem lowerNotice (code : Forecast) (y : Nat) : Statement (.lowerNotice code y) := fun _ _ h => nomatch h
theorem supplyDroop (lost : Nat) : Statement (.supplyDroop lost) := fun _ _ h => nomatch h
theorem configurationRequest (port : CfgRequest) : Statement (.configurationRequest port) := fun _ _ h => nomatch h
theorem tail (q : QueueId) (v : Word) : Statement (.tail q v) := fun _ _ h => nomatch h
theorem resume (q : QueueId) : Statement (.resume q) := fun _ _ h => nomatch h
theorem reset (q : QueueId) : Statement (.reset q) := fun _ _ h => nomatch h
theorem registerWrite (q : QueueId) (off : Nat) (size : Nat) (v : Dword) : Statement (.registerWrite q off size v) := fun _ _ h => nomatch h
theorem nopPacket (q : QueueId) : Statement (.nopPacket q) := fun _ _ h => nomatch h
theorem launch (q : QueueId) : Statement (.launch q) := fun _ _ h => nomatch h
theorem semwait (q : QueueId) : Statement (.semwait q) := fun _ _ h => nomatch h
theorem semsig (q : QueueId) : Statement (.semsig q) := fun _ _ h => nomatch h
theorem mark (q : QueueId) : Statement (.mark q) := fun _ _ h => nomatch h
theorem fencePacket (q : QueueId) : Statement (.fencePacket q) := fun _ _ h => nomatch h
theorem snap (q : QueueId) : Statement (.snap q) := fun _ _ h => nomatch h
theorem roll (q : QueueId) : Statement (.roll q) := fun _ _ h => nomatch h
theorem commitVote (q : QueueId) : Statement (.commitVote q) := fun _ _ h => nomatch h
theorem gjoin (q : QueueId) : Statement (.gjoin q) := fun _ _ h => nomatch h
theorem gleave (q : QueueId) : Statement (.gleave q) := fun _ _ h => nomatch h
theorem pin (q : QueueId) : Statement (.pin q) := fun _ _ h => nomatch h
theorem unpin (q : QueueId) : Statement (.unpin q) := fun _ _ h => nomatch h
theorem securityAlarm (src : AlarmReport) : Statement (.securityAlarm src) := fun _ _ h => nomatch h
theorem singleStep (call : StepCall) : Statement (.singleStep call) := fun _ _ h => nomatch h
theorem taintRestore (nd : Nat) : Statement (.taintRestore nd) := fun _ _ h => nomatch h
theorem taintRelease (nd : Nat) : Statement (.taintRelease nd) := fun _ _ h => nomatch h
theorem snapshotMap (part : PartId) (id : Nat) (pasid : Nat) : Statement (.snapshotMap part id pasid) := fun _ _ h => nomatch h
theorem snapshotRelease (part : PartId) (id : Nat) : Statement (.snapshotRelease part id) := fun _ _ h => nomatch h
theorem keyLoad (slot : Nat) (blob : List Byte) : Statement (.keyLoad slot blob) := fun _ _ h => nomatch h
theorem keySetLoad (part : PartId) (keys : List (List Byte)) (reqsig : Bool) (sig : List Byte) : Statement (.keySetLoad part keys reqsig sig) := fun _ _ h => nomatch h
theorem partitionConfig (part : PartId) (target : Nat) (ceiling : Nat) (run : PartRun) : Statement (.partitionConfig part target ceiling run) := fun _ _ h => nomatch h
theorem fabricPartitionSet (part : PartId) (detour : Nat) : Statement (.fabricPartitionSet part detour) := fun _ _ h => nomatch h
theorem queueCreate (q : QueueId) (cfg : Option QueueCfg) : Statement (.queueCreate q cfg) := fun _ _ h => nomatch h
theorem unitReinstate (unit : UnitId) : Statement (.unitReinstate unit) := fun _ _ h => nomatch h
theorem dieFirmwareUpdate (die : Fin 4) (version : Nat) (image : List Byte) (sig : List Byte) : Statement (.dieFirmwareUpdate die version image sig) := fun _ _ h => nomatch h
theorem linkRetrain (port : PortId) (reach : Nat) : Statement (.linkRetrain port reach) := fun _ _ h => nomatch h
theorem memoryRetrain (iface : Nat) (cycles : Nat) : Statement (.memoryRetrain iface cycles) := fun _ _ h => nomatch h
theorem regionGuardViolation (core : Fin 8) (part : PartId) (addr : Nat) (write : GuardAccess) : Statement (.regionGuardViolation core part addr write) := fun _ _ h => nomatch h
theorem attestation (nonce : SpdmRequest) : Statement (.attestation nonce) := fun _ _ h => nomatch h
theorem faultRecordRead (q : QueueId) : Statement (.faultRecordRead q) := fun _ _ h => nomatch h
theorem rdcHop (a : Arrival) : Statement (.rdcHop a) := fun _ _ h => nomatch h
theorem linkTraining (port : PortId) (reach : Nat) : Statement (.linkTraining port reach) := fun _ _ h => nomatch h
theorem reservedTypePacket (q : QueueId) : Statement (.reservedTypePacket q) := fun _ _ h => nomatch h
theorem pageMapping (pasid : Nat) (root : Option Nat) (writes : List (Nat × Dword)) : Statement (.pageMapping pasid root writes) := fun _ _ h => nomatch h
theorem versionPool (part : PartId) (add : List (Nat × Bool)) (remove : List Nat) : Statement (.versionPool part add remove) := fun _ _ h => nomatch h
theorem debuggable (q : QueueId) (on : Bool) : Statement (.debuggable q on) := fun _ _ h => nomatch h

end Sys2Proof.Laws.Words
end

