-- ==== Sys2Proof/Tests/Slice0.lean ====
section
/-! SUPPORT. Tests: worked words of the spec, ill-formed instructions that the checks refuse, single steps with results worked out
from the spec by hand, and for every statement with hypotheses a state and operands that meet them. -/

namespace Sys2Proof.Tests
open Sys2Proof Sys2Proof.Machine Host

/-! ### Small states -/

/-- A sequencer about to issue: its node runs on core 0, or on shepherd site 32, and all else is as after reset. -/
def scene (q : SeqName) (sh : Bool) : State := State.reset.placeWords q sh []

/-- Index registers of the issuing sequencer. -/
def regs (l : List (XReg × Dword)) (s : State) : State := l.foldl (fun s p => s.setMe (s.me.setX p.1 p.2)) s

def me (f : Seq → Seq) (s : State) : State := s.setMe (f s.me)
def here (f : Machine.Core → Machine.Core) (s : State) : State := s.modHere f
def node1 (f : Node → Node) (s : State) : State := s.modNode 1 f
def part0 (f : Partition → Partition) (s : State) : State := s.modPart 0 f

/-- The node's partition is the fabric partition. -/
def onFab (s : State) : State := { s with fabric := some 0 }

/-- The SCL, the load sequencer and a shepherd's store sequencer. -/
def scl : State := scene .scl false
def ldq : State := scene .ld false
def cmpq : State := scene .cmp false
def shep : State := onFab (node1 (fun n => { n with cores := [0] }) (scene .st true))

def h0 : Hdr := ⟨0, false⟩
def h1 : Hdr := ⟨0, true⟩

/-! ### Words of the spec's tables of worked encodings -/

/-- VFADD of Table 2-12. -/
theorem test_decode_vfadd : decode .cmp false 0x80018310#32 0x0#32 = some (.vfadd ⟨0, false⟩ 3 1 34 0) := by decide
/-- ADDI_SQUASHABLE of Table 2-12. -/
theorem test_decode_addi_squashable : decode .scl false 0x31A52FF8#32 0x0#32 = some (.addi ⟨1, true⟩ 5 5 0x7F8) := by decide
/-- ALIGN_CORE of Table 2-12. -/
theorem test_decode_align_core : decode .ld false 0x00E03800#32 0x1388#32 = some (.align ⟨0, false⟩ 0 7 0 5000) := by decide
/-- ST_RELEASE of Table 2-12. -/
theorem test_decode_st_release : decode .st false 0x800110E8#32 0x0#32 = some (.st ⟨0, false⟩ 2 4 3 5) := by decide
/-- MUL_GUARDED of Table 2-13. -/
theorem test_decode_mul_guarded : decode .scl false 0x80018310#32 0x0#32 = some (.mul ⟨0, false⟩ 1 16 12 2) := by decide
/-- LOOP of Table 5-9. -/
theorem test_decode_loop : decode .scl false 0x00A98005#32 0x0#32 = some (.loop ⟨0, false⟩ 1 6 5) := by decide
/-- BAR_DIE of Table 5-9. -/
theorem test_decode_bar_die : decode .scl false 0x01292000#32 0x0#32 = some (.bar ⟨0, false⟩ 2 9) := by decide
/-- ALIGN_GROUP of Table 5-9. -/
theorem test_decode_align_group : decode .st true 0x00F84B00#32 0x4E20#32 = some (.align ⟨0, false⟩ 3 9 12 20000) := by decide
/-- PCMPI of Table 5-9. -/
theorem test_decode_pcmpi : decode .scl false 0x0228AFFF#32 0x0#32 = some (.pcmpi ⟨0, false⟩ 2 5 3 0x3FF) := by decide
/-- SEL of Table 5-9. -/
theorem test_decode_sel : decode .cmp false 0x02632150#32 0x0#32 = some (.sel ⟨0, false⟩ 3 4 5 2) := by decide
/-- MFS of Table 5-9. -/
theorem test_decode_mfs : decode .cmp false 0x02840000#32 0x0#32 = some (.mfs ⟨0, false⟩ 4 0) := by decide
/-- XSET of Table 5-9. -/
theorem test_decode_xset : decode .scl false 0x8149C600#32 0x0#32 = some (.xset ⟨0, false⟩ 1 7 3) := by decide
/-- MUL of Table 6-6. -/
theorem test_decode_mul : decode .scl false 0x800531C0#32 0x0#32 = some (.mul ⟨0, false⟩ 5 6 7 0) := by decide
/-- IREMU of Table 6-6. -/
theorem test_decode_iremu : decode .scl false 0x802952C3#32 0x0#32 = some (.iremu ⟨0, false⟩ 9 10 11 0) := by decide
/-- SETC of Table 6-6. -/
theorem test_decode_setc : decode .scl false 0x80A21904#32 0x0#32 = some (.setc ⟨0, false⟩ 2 3 4 0 4) := by decide
/-- BR of Table 6-6. -/
theorem test_decode_br : decode .scl false 0x80C40004#32 0x0#32 = some (.br ⟨0, false⟩ 1 0 4) := by decide
/-- BR_NOT of Table 6-6. -/
theorem test_decode_br_not : decode .scl false 0x80CE0005#32 0x0#32 = some (.br ⟨0, false⟩ 3 1 5) := by decide
/-- BEQZ of Table 6-6. -/
theorem test_decode_beqz : decode .scl false 0x80E43FFE#32 0x0#32 = some (.beqz ⟨0, false⟩ 4 0x3FFE) := by decide
/-- JX of Table 6-6. -/
theorem test_decode_jx : decode .scl false 0x810C0000#32 0x0#32 = some (.jx ⟨0, false⟩ 12) := by decide
/-- SLD_DISP of Table 6-6. -/
theorem test_decode_sld_disp : decode .scl false 0x8187417D#32 0x10#32 = some (.sldDisp ⟨0, false⟩ 7 8 2 7 3 0 16) := by decide
/-- SST of Table 6-6. -/
theorem test_decode_sst : decode .scl false 0x81A34888#32 0x0#32 = some (.sst ⟨0, false⟩ 3 9 1 0 2 0) := by decide
/-- LD of Table 7-8. -/
theorem test_decode_ld : decode .ld false 0x80029858#32 0x0#32 = some (.ld ⟨0, false⟩ 5 6 1 3) := by decide
/-- LD_DISP of Table 7-8. -/
theorem test_decode_ld_disp : decode .ld false 0x80091C01#32 0x800#32 = some (.ldDisp ⟨0, false⟩ 18 7 0 0 0x800) := by decide
/-- LDB of Table 7-8. -/
theorem test_decode_ldb : decode .ld false 0x80221092#32 0x4000000#32 = some (.ldb ⟨0, false⟩ 4 8 9 2 8 0 0) := by decide
/-- STB of Table 7-8. -/
theorem test_decode_stb : decode .st false 0x80284220#32 0x8300000#32 = some (.stb ⟨0, false⟩ 16 33 2 0 16 1 4) := by decide
/-- PLD of Table 7-8. -/
theorem test_decode_pld : decode .ld false 0x804D4880#32 0x0#32 = some (.pld ⟨0, false⟩ 3 10 4 4) := by decide
/-- SQLD_DISP of Table 7-8. -/
theorem test_decode_sqld_disp : decode .ld false 0x808B1001#32 0x200#32 = some (.sqldDisp ⟨0, false⟩ 11 1 0x200) := by decide
/-- RROT of Table 7-8. -/
theorem test_decode_rrot : decode .ld false 0x80A32000#32 0x0#32 = some (.rrot ⟨0, false⟩ 3 4 0 0) := by decide
/-- VFMA of Table 8-3. -/
theorem test_decode_vfma : decode .cmp false 0x80610620#32 0x84000000#32 = some (.vfma ⟨0, false⟩ 2 3 4 0 33) := by decide
/-- VXM of Table 8-3. -/
theorem test_decode_vxm : decode .cmp false 0x846A8A00#32 0x0#32 = some (.vxm ⟨0, false⟩ 21 5 0) := by decide
/-- VCVT of Table 8-3. -/
theorem test_decode_vcvt : decode .cmp false 0x84E0800F#32 0x0#32 = some (.vcvt ⟨0, false⟩ 1 0 0 7 1) := by decide
/-- VPUSH of Table 8-3. -/
theorem test_decode_vpush : decode .cmp false 0x85126B81#32 0x0#32 = some (.vpush ⟨0, false⟩ 2 19 23 1) := by decide
/-- VPOP of Table 8-3. -/
theorem test_decode_vpop : decode .cmp false 0x85312600#32 0x0#32 = some (.vpop ⟨0, false⟩ 2 9 6) := by decide
/-- VGET of Table 8-3. -/
theorem test_decode_vget : decode .cmp false 0x84C74B20#32 0x0#32 = some (.vget ⟨0, false⟩ 7 18 200) := by decide
/-- VBCAST of Table 8-3. -/
theorem test_decode_vbcast : decode .cmp false 0x84B01400#32 0x0#32 = some (.vbcast ⟨0, false⟩ 32 5 0) := by decide
/-- SHAPE of Table 8-3. -/
theorem test_decode_shape : decode .cmp false 0x856FE000#32 0x0#32 = some (.shape ⟨0, false⟩ 7 15) := by decide
/-- EXP2 of Table 9-2. -/
theorem test_decode_exp2 : decode .cmp false 0x86008000#32 0x0#32 = some (.exp2 ⟨0, false⟩ 1 0 0) := by decide
/-- DIV of Table 9-2. -/
theorem test_decode_div : decode .cmp false 0x86A9A292#32 0x0#32 = some (.div ⟨0, false⟩ 19 17 18 2) := by decide
/-- VRMAX of Table 9-2. -/
theorem test_decode_vrmax : decode .cmp false 0x87010300#32 0x0#32 = some (.vrmax ⟨0, false⟩ 2 1 1 0) := by decide
/-- VRLSUM of Table 9-2. -/
theorem test_decode_vrlsum : decode .cmp false 0x87A40020#32 0x0#32 = some (.vrlsum ⟨0, false⟩ 8 0 4 0) := by decide
/-- VMCNT of Table 9-2. -/
theorem test_decode_vmcnt : decode .cmp false 0x87E48C00#32 0x0#32 = some (.vmcnt ⟨0, false⟩ 9 6 0) := by decide
/-- VRSCL of Table 9-2. -/
theorem test_decode_vrscl : decode .cmp false 0x87C51048#32 0x0#32 = some (.vrscl ⟨0, false⟩ 10 8 9 0) := by decide
/-- MMA of Table 10-5. -/
theorem test_decode_mma : decode .cmp false 0x880A43C0#32 0x33700000#32 = some (.mma ⟨0, false⟩ 1 2 2 0 0 15 3 3 0 7) := by decide
/-- MMA_TABLE of Table 10-5. -/
theorem test_decode_mma_table : decode .cmp false 0x880017C0#32 0x900000#32 = some (.mma ⟨0, false⟩ 0 0 0 1 1 15 0 0 1 1) := by decide
/-- MMAS of Table 10-5. -/
theorem test_decode_mmas : decode .cmp false 0x883C2038#32 0x55300000#32 = some (.mmas ⟨0, false⟩ 3 4 1 0 0 0 7 5 5 0 3) := by decide
/-- ACCMV of Table 10-5. -/
theorem test_decode_accmv : decode .cmp false 0x88622400#32 0x40100000#32 = some (.accmv ⟨0, false⟩ 4 1 16 0 64 1 0 0) := by decide
/-- MCLR of Table 10-5. -/
theorem test_decode_mclr : decode .cmp false 0x88500000#32 0x0#32 = some (.mclr ⟨0, false⟩ 2) := by decide
/-- FTSET of Table 10-5. -/
theorem test_decode_ftset : decode .cmp false 0x88A66000#32 0x0#32 = some (.ftset ⟨0, false⟩ 3 6) := by decide
/-- FTGET of Table 10-5. -/
theorem test_decode_ftget : decode .cmp false 0x88C73000#32 0x0#32 = some (.ftget ⟨0, false⟩ 7 3) := by decide
/-- SQCNT of Table 10-5. -/
theorem test_decode_sqcnt : decode .cmp false 0x88E50000#32 0x0#32 = some (.sqcnt ⟨0, false⟩ 5) := by decide
/-- CPY of Table 11-9. -/
theorem test_decode_cpy : decode .ld false 0x82042989#32 0x48000000#32 = some (.cpy ⟨0, false⟩ 4 5 6 9 1 2 0) := by decide
/-- CPT of Table 11-9. -/
theorem test_decode_cpt : decode .ld false 0x82642982#32 0x1D0930#32 = some (.cpt ⟨0, false⟩ 4 5 6 2 0 0 0 7 8 9 3) := by decide
/-- ATM of Table 11-9. -/
theorem test_decode_atm : decode .st false 0x80432144#32 0x1A000000#32 = some (.atm ⟨0, false⟩ 3 4 5 0 1 1 5 0) := by decide
/-- SATM of Table 11-9. -/
theorem test_decode_satm : decode .scl false 0x81C74278#32 0xA00000#32 = some (.satm ⟨0, false⟩ 7 8 9 7 0 0 0 10) := by decide
/-- WAITA of Table 11-9. -/
theorem test_decode_waita : decode .scl false 0x81EC6D74#32 0x3E000000#32 = some (.waita ⟨0, false⟩ 12 13 5 14 1 3 7) := by decide
/-- FENCE of Table 11-9. -/
theorem test_decode_fence : decode .scl false 0x02C00128#32 0x0#32 = some (.fence ⟨0, false⟩ 9 2) := by decide
/-- WAITALL of Table 11-9. -/
theorem test_decode_waitall : decode .cmp false 0x03053400#32 0x0#32 = some (.waitall ⟨0, false⟩ 5 6) := by decide
/-- FFRDY of Table 11-9. -/
theorem test_decode_ffrdy : decode .cmp false 0x032CA000#32 0x0#32 = some (.ffrdy ⟨0, false⟩ 3 5) := by decide
/-- WAITTL of Table 11-9. -/
theorem test_decode_waittl : decode .ld false 0x0349D000#32 0x0#32 = some (.waittl ⟨0, false⟩ 1 7 8) := by decide
/-- TLRDY of Table 11-9. -/
theorem test_decode_tlrdy : decode .ld false 0x03693800#32 0x0#32 = some (.tlrdy ⟨0, false⟩ 2 1 7) := by decide
/-- TAGCLR of Table 11-9. -/
theorem test_decode_tagclr : decode .ld false 0x82850000#32 0x0#32 = some (.tagclr ⟨0, false⟩ 5) := by decide
/-- RST of Table 12-8. -/
theorem test_decode_rst : decode .st true 0x88042980#32 0x1C000000#32 = some (.rst ⟨0, false⟩ 4 5 6 0 7) := by decide
/-- RSIG of Table 12-8. -/
theorem test_decode_rsig : decode .st true 0x88284A80#32 0x0#32 = some (.rsig ⟨0, false⟩ 8 9 10) := by decide
/-- RATM of Table 12-8. -/
theorem test_decode_ratm : decode .st true 0x8843217C#32 0x39800000#32 = some (.ratm ⟨0, false⟩ 3 4 5 7 1 7 6) := by decide
/-- COLL of Table 12-8. -/
theorem test_decode_coll : decode .st true 0x88650C00#32 0x0#32 = some (.coll ⟨0, false⟩ 5 3) := by decide
/-- COLLW of Table 12-8. -/
theorem test_decode_collw : decode .st true 0x88819800#32 0x0#32 = some (.collw ⟨0, false⟩ 3 6) := by decide
/-- A2A of Table 12-8. -/
theorem test_decode_a2a : decode .st true 0x88A42840#32 0x0#32 = some (.a2a ⟨0, false⟩ 4 5 2) := by decide
/-- PSEND of Table 12-8. -/
theorem test_decode_psend : decode .st true 0x88C90000#32 0x0#32 = some (.psend ⟨0, false⟩ 9) := by decide
/-- RXARM of Table 12-8. -/
theorem test_decode_rxarm : decode .ld true 0x88063000#32 0x0#32 = some (.rxarm ⟨0, false⟩ 6 12) := by decide
/-- RXCHK of Table 12-8. -/
theorem test_decode_rxchk : decode .ld true 0x8828C000#32 0x0#32 = some (.rxchk ⟨0, false⟩ 2 12) := by decide
/-- RXMSK of Table 12-8. -/
theorem test_decode_rxmsk : decode .ld true 0x88473000#32 0x0#32 = some (.rxmsk ⟨0, false⟩ 7 12) := by decide
/-- STEPREQ of Table 12-8. -/
theorem test_decode_stepreq : decode .scl false 0x86053000#32 0x0#32 = some (.stepreq ⟨0, false⟩ 5 6) := by decide
/-- LNKST of Table 12-8. -/
theorem test_decode_lnkst : decode .scl true 0x86489000#32 0x0#32 = some (.lnkst ⟨0, false⟩ 8 9) := by decide
/-- RDT of Table 13-4. -/
theorem test_decode_rdt : decode .scl false 0x84050000#32 0x0#32 = some (.rdt ⟨0, false⟩ 5) := by decide
/-- RDSLIP of Table 13-4. -/
theorem test_decode_rdslip : decode .scl false 0x84490000#32 0x0#32 = some (.rdslip ⟨0, false⟩ 9) := by decide
/-- PITCHQ of Table 13-4. -/
theorem test_decode_pitchq : decode .scl false 0x84660000#32 0x0#32 = some (.pitchq ⟨0, false⟩ 6) := by decide
/-- PITCHW of Table 13-4. -/
theorem test_decode_pitchw : decode .scl false 0x84863800#32 0x0#32 = some (.pitchw ⟨0, false⟩ 6 7) := by decide
/-- DRONEW of Table 13-4. -/
theorem test_decode_dronew : decode .scl false 0x84AA5800#32 0x0#32 = some (.dronew ⟨0, false⟩ 10 11) := by decide
/-- DRONECK of Table 13-4. -/
theorem test_decode_droneck : decode .scl false 0x84CD4000#32 0x0#32 = some (.droneck ⟨0, false⟩ 3 10) := by decide
/-- GUARD of Table 13-4. -/
theorem test_decode_guard : decode .st true 0x88E65000#32 0x0#32 = some (.guard ⟨0, false⟩ 3 40) := by decide
/-- FLGRD of Table 15-7. -/
theorem test_decode_flgrd : decode .scl false 0x85050000#32 0x0#32 = some (.flgrd ⟨0, false⟩ 5) := by decide
/-- FLGCLR of Table 15-7. -/
theorem test_decode_flgclr : decode .scl false 0x85201800#32 0x0#32 = some (.flgclr ⟨0, false⟩ 0xC0) := by decide
/-- FLGTST of Table 15-7. -/
theorem test_decode_flgtst : decode .scl false 0x8548000C#32 0x0#32 = some (.flgtst ⟨0, false⟩ 2 3) := by decide
/-- Refused (Table 2-13). -/
theorem test_refused_ld_reserved_order : decode .ld false 0x80018310#32 0x0#32 = none := by decide
/-- Refused (02 R19). -/
theorem test_refused_sq_outside_scl : decode .cmp false 0x31A52FF8#32 0x0#32 = none := by decide
/-- Refused (02 R40). -/
theorem test_refused_reserved_bit_of_nop : decode .scl false 0x00000001#32 0x0#32 = none := by decide
/-- Refused (02 R26). -/
theorem test_refused_tile_code_40 : decode .cmp false 0x80140000#32 0x0#32 = none := by decide
/-- Refused (02 R38). -/
theorem test_refused_shepherd_form_on_compute_core : decode .ld false 0x88063000#32 0x0#32 = none := by decide

/-! ### Ill-formed instructions, one for each check -/

theorem test_wf_sq_outside_scl : (Instr.nop h1).wf .cmp false = false := by decide
theorem test_wf_loop_of_no_words : (Instr.loop h0 0 1 0).wf .scl false = false := by decide
theorem test_wf_align_without_budget : (Instr.align h0 0 1 0 0).wf .scl false = false := by decide
theorem test_wf_align_instant_below_group : (Instr.align h0 0 1 5 100).wf .scl false = false := by decide
theorem test_wf_align_group_without_instant : (Instr.align h0 3 1 0 100).wf .scl false = false := by decide
theorem test_wf_bar_level : (Instr.bar h0 5 0).wf .scl false = false := by decide
theorem test_wf_shift_count : (Instr.shli h0 1 2 64).wf .scl false = false := by decide
theorem test_wf_condition : (Instr.pcmp h0 1 2 3 6).wf .scl false = false := by decide
theorem test_wf_special_register : (Instr.mfs h0 1 0x00D).wf .scl false = false := by decide
theorem test_wf_special_register_of_shepherd : (Instr.mfs h0 1 0x009).wf .scl true = false := by decide
theorem test_wf_special_register_read_only : (Instr.mts h0 1 0x005).wf .scl false = false := by decide
theorem test_wf_fence_mask : (Instr.fence h0 0 0).wf .scl false = false := by decide
theorem test_wf_fence_scope : (Instr.fence h0 1 5).wf .scl false = false := by decide
theorem test_wf_trap_number : (Instr.trap h0 65536).wf .scl false = false := by decide
theorem test_wf_flag_mask : (Instr.chkF h0 0).wf .scl false = false := by decide
theorem test_wf_scl_form_elsewhere : (Instr.mul h0 1 2 3 0).wf .ld false = false := by decide
theorem test_wf_xset_of_scl : (Instr.xset h0 0 1 2).wf .scl false = false := by decide
theorem test_wf_xset_of_cmp_of_shepherd : (Instr.xset h0 2 1 2).wf .scl true = false := by decide
theorem test_wf_sld_order : (Instr.sld h0 1 2 0 2 0 0).wf .scl false = false := by decide
theorem test_wf_sld_sign_of_eight_bytes : (Instr.sld h0 1 2 0 0 3 1).wf .scl false = false := by decide
theorem test_wf_sst_sign : (Instr.sst h0 1 2 0 0 0 1).wf .scl false = false := by decide
theorem test_wf_atomic_spare_operand : (Instr.satm h0 1 2 3 0 0 0 0 4).wf .scl false = false := by decide
theorem test_wf_load_form_elsewhere : (Instr.ld h0 0 1 0 0).wf .st false = false := by decide
theorem test_wf_load_form_of_shepherd : (Instr.ld h0 0 1 0 0).wf .ld true = false := by decide
theorem test_wf_destination_tile : (Instr.ld h0 36 1 0 0).wf .ld false = false := by decide
theorem test_wf_source_tile : (Instr.st h0 40 1 0 0).wf .st false = false := by decide
theorem test_wf_banked_size : (Instr.ldb h0 0 1 2 0 1 3 0).wf .ld false = false := by decide
theorem test_wf_banked_budget : (Instr.ldb h0 0 1 2 0 257 0 0).wf .ld false = false := by decide
theorem test_wf_plane_format : (Instr.cpt h0 1 2 3 0 0 0 0 4 5 6 0).wf .ld false = false := by decide
theorem test_wf_shepherd_form : (Instr.rxarm h0 1 0).wf .ld false = false := by decide
theorem test_wf_two_clusters : (Instr.vfadd h0 0 1 16 0).wf .cmp false = false := by decide
theorem test_wf_vxm_one_cluster : (Instr.vxm h0 0 1 0).wf .cmp false = false := by decide
theorem test_wf_vcvt_same_format : (Instr.vcvt h0 0 1 2 2 0).wf .cmp false = false := by decide
theorem test_wf_mma_formats : (Instr.mma h0 0 0 0 0 0 15 1 7 0 0).wf .cmp false = false := by decide
theorem test_wf_mma_planes : (Instr.mma h0 0 0 0 0 0 11 1 1 0 0).wf .cmp false = false := by decide
theorem test_wf_mma_row_slots : (Instr.mma h0 0 0 0 0 0 15 1 1 0 7).wf .cmp false = false := by decide
theorem test_wf_mma_table_fields : (Instr.mma h0 0 0 0 1 0 15 1 1 0 0).wf .cmp false = false := by decide
theorem test_wf_mmas_slots : (Instr.mmas h0 0 0 3 0 0 15 3 1 1 0 0).wf .cmp false = false := by decide
theorem test_wf_accmv_column : (Instr.accmv h0 0 0 0 0 192 0 0 0).wf .cmp false = false := by decide
theorem test_wf_accmv_format : (Instr.accmv h0 0 0 0 0 0 5 0 0).wf .cmp false = false := by decide
theorem test_wf_accin_format : (Instr.accin h0 0 0 0 0 0 1 0 0).wf .cmp false = false := by decide
theorem test_wf_link_port : (Instr.lnkst h0 1 12).wf .scl true = false := by decide
theorem test_wf_guard_beats : (Instr.guard h0 0 31).wf .st true = false := by decide
theorem test_wf_event : (Instr.powerOn).wf .scl false = false := by decide

/-! ### States and operands that meet the hypotheses of the statements -/

theorem test_witness_EncodeThenDecode : (Instr.addi h1 31 31 0x7FF).wf .scl false = true ∧ (Instr.movw h0 31 0xFFFFFFFF).wf .st true = true := by decide
theorem test_witness_DecodeThenEncode_one : (decode .scl false 0x85050000#32 0xFFFFFFFF#32).isSome = true := by decide
theorem test_witness_DecodeThenEncode_two : (decode .cmp false 0x880A43C0#32 0x33700000#32).isSome = true := by decide
theorem test_witness_WorkedWordsDecode : (decode .cmp false 0x880A43C0#32 0x33700000#32).isSome = true := by decide

/-- RDT i5 placed where the SCL of core 0 fetches next. -/
def placed (w : Nat) : State := State.reset.placeWords .scl false (leBytes 8 w)

theorem test_witness_StepRuns_now :
    let s := placed 0x84050000
    let q : SeqId := ⟨0, .scl⟩
    s.phase = .issue ∧ s.turn = [q] ∧ (s.core q.unit).node = some 1 ∧ (s.node? 1).any (fun n =>
      s.turnOf n q == .issues && s.fetchWord n false (s.seq q).pc == some 0x84050000 && (s.fetchWord n false ((s.seq q).pc + 4)).isSome) = true ∧
    decode .scl false 0x84050000#32 0 = some (.rdt h0 5) ∧ (s.seq q).base + 0 ≤ s.cyc := by decide
theorem test_witness_StepRuns_later :
    let s := me (fun v => { v with base := 1 }) (placed 0x84050000)
    s.phase = .issue ∧ s.turn = [⟨0, .scl⟩] ∧ (s.node? 1).any (fun n => s.turnOf n ⟨0, .scl⟩ == .issues) = true ∧ s.cyc < s.me.base ∧
    (s.node? 1).any (fun n => s.fetchWord n false s.me.pc == some 0x84050000) = true := by decide
/-- BAR with an IDLE of one cycle: its base cycle has come, its issue cycle has not. -/
def barIdle : Instr := .bar ⟨1, false⟩ 1 0
def idling (al : Bool) : State := me (fun v => { v with aligned := al, base := 1 }) (placed ((encode barIdle).getD 0 0).toNat)
theorem test_witness_StepRuns_idle : decode .scl false ((encode barIdle).getD 0 0) 0 = some barIdle ∧ (idling false).me.base ≤ (idling false).cyc ∧
    (idling false).cyc < (idling false).me.base + barIdle.hdr.idle.toNat ∧ (idling false).illegalNow barIdle = false ∧
    (idling true).illegalNow barIdle = true ∧
    (∀ s ∈ [idling false, idling true], (s.node? 1).any (fun n => s.turnOf n ⟨0, .scl⟩ == .issues && s.fetchWord n false s.me.pc == (encode barIdle)[0]?) = true) := by
  decide
theorem test_witness_IllegalWord_squashable :
    let s := placed 0x10000001
    (s.node? 1).any (fun n => s.turnOf n ⟨0, .scl⟩ == .issues && s.fetchWord n false s.me.pc == some 0x10000001) = true ∧
    decode .scl false 0x10000001#32 0 = none ∧ wordSq 0x10000001 = true ∧ s.unresolved = none ∧ s.killing = false := by decide
theorem test_witness_IllegalWord_in_shadow :
    let s := me (fun v => { v with branches := [⟨9, 2, true, 0, false⟩] }) (placed 0x10000001)
    (s.node? 1).any (fun n => s.turnOf n ⟨0, .scl⟩ == .issues) = true ∧ s.unresolved.isSome = true := by decide
theorem test_witness_IllegalWord_redirect :
    let s := me (fun v => { v with redirect := some 0x40 }) scl
    (s.core 0).scl.redirect = some 0x40 ∧ (s.core 0).scl.wait = none ∧ (s.redirects.core 0).scl.pc = 0x40 := by decide +kernel
theorem test_witness_IllegalWord_plain :
    decode .scl false 0x00000001#32 0 = none ∧ wordSq 0x00000001 = false := by decide
theorem test_witness_DueEventRuns_resolve :
    let s : State := { State.reset with agenda := [{ due := .cyc 0, ev := .branchResolve 0 1 }] }
    s.phase = .resolve ∧ s.nextResolve.isSome = true := by decide
theorem test_witness_DueEventRuns_none : State.reset.phase = .resolve ∧ State.reset.nextResolve = none := by decide
theorem test_witness_DueEventRuns_event :
    let s : State := { State.reset with phase := .events }
    let t : State := { s with agenda := { due := .cyc 0, ev := .waitTimeout ⟨0, .scl⟩ 0 } :: s.agenda }
    s.nextEvent = some { due := .cyc 0, ev := .powerOn } ∧ t.nextEvent = some { due := .cyc 0, ev := .powerOn } ∧
    ({ t with agenda := t.agenda.take 1 } : State).nextEvent = some { due := .cyc 0, ev := .waitTimeout ⟨0, .scl⟩ 0 } := by decide

theorem test_witness_GuardFalse : scl.pr 1 = false ∧ scl.issues h0 { reads := [.p scl.cur 1] } ∧
    scl.issues h0 { reads := [.x scl.cur 2, .x scl.cur 3, .p scl.cur 1], writes := [.x scl.cur 4] } := by unfold State.issues; decide
theorem test_witness_IndexAndPredicateZero : (31 : XReg) ≠ 0 ∧ (7 : PReg) ≠ 0 := by decide
theorem test_witness_Gate_aligned :
    let s := me (fun v => { v with aligned := true }) scl
    s.me.aligned = true ∧ s.me.wait = none ∧ (h1.sq && (s.killing || s.unresolved.isSome)) = false := by decide
/-- The SCL in the shadow of a branch that resolves on cycle 2. -/
def shadow : State := me (fun v => { v with branches := [⟨9, 2, true, 64, false⟩] }) scl
theorem test_witness_Gate_shadow : shadow.cur.q = .scl ∧ shadow.unresolved.isSome = true ∧ shadow.me.wait = none ∧ shadow.me.aligned = false ∧
    shadow.pending (.x shadow.cur 2) = false ∧ shadow.pending (.p shadow.cur 1) = false := by decide

/-- A write of i2 in flight, of fixed latency or not. -/
def inFlight (fixed : Bool) (s : State) : State :=
  { s with cyc := 5, effs := [{ at_ := 9, iss := 4, by_ := s.cur, pc := 0, node := 1, sq := false, commit := 9, fixed := fixed
                                op := .setX s.cur 2 7 false }] }
theorem test_witness_Interlocks_free :
    let s := inFlight true scl
    s.pr 0 = true ∧ (h0.sq && s.killing) = false ∧ s.me.aligned = false ∧ s.pending (.x s.cur 2) = true := by decide
theorem test_witness_Interlocks_aligned_free_producer :
    let s := me (fun v => { v with aligned := true }) (inFlight false scl)
    s.pr 0 = true ∧ s.me.aligned = true ∧ s.pendingFree (.x s.cur 2) = true := by decide
theorem test_witness_Interlocks_aligned_fixed_producer :
    let s := me (fun v => { v with aligned := true }) (inFlight true scl)
    s.pr 0 = true ∧ s.me.aligned = true ∧ s.pendingFree (.p s.cur 0) = false ∧ s.pendingFree (.x s.cur 2) = false ∧
    s.pendingFixed (.x s.cur 2) = true := by decide
theorem test_witness_Killed :
    let s := me (fun v => { v with redirect := some 64, resolved := some 0 }) scl
    h1.sq = true ∧ s.killing = true ∧ s.pr 0 = true ∧ s.gate h1 { reads := [.p s.cur 0, .x s.cur 2, .x s.cur 3], writes := [.x s.cur 4] } ≠ .wait ∧
    s.gate h1 {} ≠ .wait := by decide

theorem test_witness_Gate_shadow_pending : (inFlight true shadow).pending (.x shadow.cur 2) = true ∧ (inFlight true shadow).unresolved.isSome = true ∧
    (me (fun v => { v with aligned := true }) shadow).me.aligned = true := by decide

/-- Index registers 2 to 5 hold the largest value, the least signed one, zero and six. -/
def corners : State := regs [(2, 0xFFFFFFFFFFFFFFFF#64), (3, 0x8000000000000000#64), (5, 6)] scl
theorem test_witness_Immediate : corners.issues h0 { writes := [.x corners.cur 31] } ∧
    corners.issues h0 { reads := [.x corners.cur 31], writes := [.x corners.cur 31] } ∧
    corners.issues h1 { reads := [.x corners.cur 2], writes := [.x corners.cur 0] } := by unfold State.issues; decide
theorem test_witness_Index : corners.issuesIf h0 0 { reads := [.x corners.cur 2, .x corners.cur 3], writes := [.x corners.cur 4] } ∧
    corners.issues h0 { reads := [.x corners.cur 2, .x corners.cur 3, .p corners.cur 1], writes := [.x corners.cur 4] } := by
  unfold State.issuesIf State.issues; decide
theorem test_witness_Divide_by_zero : corners.issuesIf h0 0 { reads := [.x corners.cur 3, .x corners.cur 4], writes := [.x corners.cur 6] } ∧
    corners.xr 4 = 0 := by unfold State.issuesIf State.issues; decide
theorem test_witness_Divide_least_by_minus_one : corners.xr 3 = 0x8000000000000000#64 ∧ corners.xr 2 = 0xFFFFFFFFFFFFFFFF#64 ∧ corners.xr 2 ≠ 0 := by
  decide
theorem test_witness_PredicateAndBit : corners.issues h0 { reads := [.x corners.cur 2, .x corners.cur 3], writes := [.p corners.cur 1] } ∧
    corners.issues h0 { reads := [.x corners.cur 2], writes := [.p corners.cur 7] } ∧
    corners.issues h0 { reads := [.p corners.cur 0, .p corners.cur 1], writes := [.p corners.cur 2] } ∧
    corners.issuesIf h0 0 { reads := [.x corners.cur 2], writes := [.x corners.cur 3] } := by unfold State.issuesIf State.issues; decide

theorem test_witness_Control : scl.issues h0 {} ∧ scl.issues h0 { serial := true } ∧ scl.me.aligned = false ∧ scl.me.stack = [] := by
  unfold State.issues; decide
theorem test_witness_Control_full_stack :
    let s := me (fun v => { v with aligned := true, stack := List.replicate 8 4 }) corners
    s.issues h0 { serial := true } ∧ s.me.aligned = true ∧ 8 ≤ s.me.stack.length ∧ s.issues h0 { reads := [.x s.cur 5], serial := true } ∧
    (s.xr 5).toNat % 4 ≠ 0 ∧ (s.xr 4).toNat % 4 = 0 := by unfold State.issues; decide
theorem test_witness_Control_return :
    let s := me (fun v => { v with stack := List.replicate 7 4 }) scl
    s.issues h0 { serial := true } ∧ s.me.stack.length < 8 ∧ s.me.stack ≠ [] := by unfold State.issues; decide
theorem test_witness_Loop : corners.issues h0 { reads := [.x corners.cur 5], serial := true } ∧ corners.xr 5 ≠ 0 ∧
    corners.issues h0 { reads := [.x corners.cur 4], serial := true } ∧ corners.xr 4 = 0 ∧ corners.issues h0 { serial := true } := by
  unfold State.issues; decide
/-- A sequencer in the body of level 2, whose last word is at 8, on iteration `k` of six. -/
def looping (k : Nat) : Seq :=
  { pc := 8, loops := (Vector.replicate 4 {}).set 2 { active := true, lc := BitVec.ofNat 64 k, count := 6, start := 4, last := 8, order := 1 } }
theorem test_witness_LoopEnd_again : ((looping 4).loops.get 2).active = true ∧ ((looping 4).loops.get 2).last = (looping 4).pc ∧
    (∀ k, k ≠ 2 → ((looping 4).loops.get k).active = false) ∧ ((looping 4).loops.get 2).lc.toNat + 1 < ((looping 4).loops.get 2).count.toNat := by
  decide
theorem test_witness_LoopEnd_last : ((looping 5).loops.get 2).count.toNat ≤ ((looping 5).loops.get 2).lc.toNat + 1 := by decide
/-- Level 1, started before level 2 and on iteration `j` of three, has its last word at 8 too. -/
def nested (j k : Nat) : Seq := { looping k with
  loops := (looping k).loops.set 1 { active := true, lc := BitVec.ofNat 64 j, count := 3, start := 0, last := 8, order := 0 } }
theorem test_witness_LoopEnd_two : (∀ q ∈ [nested 1 4, nested 1 5, nested 2 5], q.after = none ∧ (q.loops.get 2).active = true ∧ (q.loops.get 2).last = q.pc ∧
      (q.loops.get 1).active = true ∧ (q.loops.get 1).last = q.pc ∧ (q.loops.get 1).order < (q.loops.get 2).order ∧
      (∀ j, j ≠ 2 → j ≠ 1 → (q.loops.get j).active = false ∨ (q.loops.get j).last ≠ q.pc)) ∧
    ((nested 1 5).loops.get 1).lc.toNat + 1 < ((nested 1 5).loops.get 1).count.toNat ∧
    ((nested 2 5).loops.get 1).count.toNat ≤ ((nested 2 5).loops.get 1).lc.toNat + 1 := by decide
theorem test_witness_LoopEnd_none : (∀ l, (({} : Seq).loops.get l).active = false) ∧ ({} : Seq).wait = none ∧ ({} : Seq).after = none ∧
    (looping 4).after = none ∧ ({ looping 4 with after := some 64 } : Seq).after = some 64 := by decide

/-- The SCL with a group fold of itself. -/
def folded : State := here (fun c => { c with fold := 0x10000000000001 }) (regs [(6, 50000)] scl)
theorem test_witness_Align_arrives : scl.me.wait = none ∧ scl.issues h0 { reads := [.x scl.cur 0], serial := true } ∧ scl.here.node = some 1 ∧
    (scl.node? 1).any (fun n => (scl.alignCheck n 0 0 7 0).isNone) = true := by unfold State.issues; decide
theorem test_witness_Align_group : folded.me.wait = none ∧ folded.issues h0 { reads := [.x folded.cur 6], serial := true } ∧
    (folded.node? 1).any (fun n => (folded.alignCheck n 3 0 7 50000).isNone && !n.arrived.any (fun a => !a.bar && a.lvl == 3 && a.k == 0)) = true := by
  unfold State.issues; decide
theorem test_witness_Align_no_member : (scl.node? 1).any (fun n => (scl.alignCheck n 1 0 7 0).isSome) = true := by decide
theorem test_witness_AlignRelease :
    let s := me (fun v => { v with wait := some ⟨0, 0, .align 0 7 100, false⟩ }) scl
    [s.cur].Nodup ∧ (s.seq s.cur).wait = some ⟨0, 0, .align 0 7 100, false⟩ := by decide
theorem test_witness_SegmentDeadline :
    let s := me (fun v => { v with aligned := true, serial := 3 }) scl
    (s.seq s.cur).aligned = true ∧ (s.seq s.cur).serial = 3 ∧ (scl.seq scl.cur).aligned = false := by decide
theorem test_witness_Bar_phase : scl.me.wait = none ∧ scl.issues h0 { reads := [.x scl.cur 0], waiting := true, serial := true } := by
  unfold State.issues; decide
theorem test_witness_Bar_member : scl.here.node = some 1 ∧ (scl.node? 1).any (fun n => scl.isMember n scl.cur 0) = true ∧
    (folded.node? 1).any (fun n => folded.isMember n folded.cur 3) = true := by decide
theorem test_witness_Bar_no_member : (scl.node? 1).any (fun n => !scl.isMember n scl.cur 1) = true := by decide
theorem test_witness_BarComplete :
    let s := me (fun v => { v with wait := some ⟨0, 0, .bar 1, false⟩ }) scl
    [s.cur].Nodup ∧ (s.seq s.cur).wait = some ⟨0, 0, .bar 1, false⟩ := by decide
theorem test_witness_WaitTimeout_unmet :
    let s := me (fun v => { v with wait := some ⟨0, 9, .tags true 1, false⟩ }) scl
    (s.seq s.cur).wait = some ⟨0, 9, .tags true 1, false⟩ ∧ s.waitMet s.cur (.tags true 1) = false ∧
    (∀ a v c wd oc ord r m, WaitFor.tags true 1 ≠ .word a v c wd oc ord r true m) := ⟨by decide, by decide, nofun⟩
theorem test_witness_WaitTimeout_met :
    let s := me (fun v => { v with wait := some ⟨0, 9, .tags true 0, false⟩ }) scl
    (s.seq s.cur).wait = some ⟨0, 9, .tags true 0, false⟩ ∧ s.waitMet s.cur (.tags true 0) = true := by decide
theorem test_witness_WaitTimeout_in_shadow :
    let s := me (fun v => { v with branches := [⟨9, 2, true, 64, false⟩], wait := some ⟨0, 9, .tags true 1, true⟩ }) scl
    (s.seq s.cur).wait = some ⟨0, 9, .tags true 1, true⟩ ∧ s.waitMet s.cur (.tags true 1) = false ∧ s.cur.q = .scl ∧
    (s.core s.cur.unit).lastBranch = some 2 := by decide
theorem test_witness_Announcement :
    let s := node1 (fun n => { n with family := { n.family with group := true } }) scl
    s.announcedNode = s.node? 1 ∧ (s.node? 1).isSome = true ∧ scl.announcedNode = none ∧
    (node1 (fun n => { n with state := .waiting false }) s).announcedNode.isSome = true := by decide

theorem test_witness_SpecialRegisters : scl.issues h0 { writes := [.x scl.cur 1] } ∧
    scl.issues h0 { reads := [], writes := [.x scl.cur 1] } ∧ scl.issues h0 { reads := [.x scl.cur 1] } ∧ scl.issues h0 {} ∧
    scl.issues h0 { reads := [.x scl.cur 1], writes := [] } ∧ isShep scl.cur.unit = false := by
  unfold State.issues; decide
theorem test_witness_SpecialRegisters_cross : scl.issues h0 { reads := [.x scl.cur 1], writes := [.x ⟨scl.cur.unit, .st⟩ 2] } ∧
    scl.issues h0 { reads := [.p scl.cur 1], writes := [.p ⟨scl.cur.unit, .cmp⟩ 2] } ∧ scl.issues h0 { writes := [.p scl.cur 2] } ∧
    (∃ e : Eff, e.op = .setX scl.cur 0 7 false) := by
  refine ⟨?_, ?_, ?_, { at_ := 0, iss := 0, by_ := scl.cur, pc := 0, node := 1, sq := false, commit := 0, fixed := true, op := .setX scl.cur 0 7 false }, rfl⟩ <;> (unfold State.issues; decide)
theorem test_witness_Branch : scl.issues h0 { reads := [.p scl.cur 1] } ∧ scl.issues h1 { reads := [.x scl.cur 1] } := by
  unfold State.issues; decide
theorem test_witness_BranchResolve : ((shadow.core 0).scl.branches.find? (fun b => b.id == 9)).isSome = true ∧
    (scl.core 0).scl.branches.find? (fun b => b.id == 9) = none ∧ (shadow.core 0).node = some 1 ∧
    (shadow.node? 1).any (fun n => n.state != .halted) = true := by decide
theorem test_witness_Wait_met : scl.me.wait = none ∧ scl.issues h0 { reads := [.x scl.cur 0, .x scl.cur 0], waiting := true, serial := true } ∧
    (scl.here.tags &&& scl.xr 0 == scl.xr 0) = true ∧ decide ((scl.xr 0).toNat ≤ scl.drone) = true ∧ (scl.here.tags &&& scl.xr 0 != 0) = false := by
  unfold State.issues; decide
theorem test_witness_Wait_handle : shep.offFabric = false ∧ shep.issues h0 { reads := [.x shep.cur 0], waiting := true, serial := true } ∧
    (shep.here.handles.get 0).busy = false := by unfold State.issues; decide
theorem test_witness_Wait_pending :
    let s := me (fun v => { v with wait := some ⟨0, 0, .drone 0, false⟩ }) scl
    s.me.wait = some ⟨0, 0, .drone 0, false⟩ ∧ (0 : Dword).toNat ≤ s.drone := by decide
/-- i1 asks for tag 0, which is set; i2 names the epoch before this one, 41; i3 lies 2^31 before it, i4 after it. -/
def waits : State := regs [(1, 1), (2, 40), (3, 0x80000029), (4, 42)] { here (fun c => { c with tags := 3 }) scl with epoch := 41 }
theorem test_witness_WaitForms_met : waits.me.wait = none ∧
    (∀ r ∈ [(0 : XReg), 1, 2, 3], waits.issues h0 { reads := [.x waits.cur r, .x waits.cur 0], waiting := true, serial := true }) ∧
    waits.here.tags &&& waits.xr 1 ≠ 0 ∧ waits.here.tags &&& waits.xr 1 = waits.xr 1 ∧ (waits.xr 0).toNat ≤ (waits.here.tlc.get 3).toNat ∧
    1 ≤ (waits.epoch - (waits.xr 2).setWidth 32).toNat ∧ (waits.epoch - (waits.xr 2).setWidth 32).toNat ≤ 2 ^ 31 - 1 ∧
    (waits.xr 0).toNat ≤ waits.drone := by
  unfold State.issues; decide
theorem test_witness_WaitForms_unmet : (waits.here.tags &&& waits.xr 3 != 0) = true ∧ (waits.here.tags &&& waits.xr 4 == waits.xr 4) = false ∧
    ¬ ((waits.xr 1).toNat ≤ waits.drone) ∧ waits.xr 1 ≠ 0 ∧ ¬ (waits.xr 1).toNat ≤ (waits.here.tlc.get 0).toNat ∧
    (∀ r ∈ [(3 : XReg), 4], ¬ (waits.epoch - (waits.xr r).setWidth 32).toNat ≤ 2 ^ 31 - 1) ∧
    ¬ 1 ≤ (waits.epoch - (41 : Dword).setWidth 32).toNat := by decide
/-- It waits on tag 2 with a timeout that comes now, on the cycle of a completion. -/
def undone (sq : Bool) (s : State) : State :=
  me (fun v => { v with wait := some ⟨0, 7, .tags false 4, sq⟩ }) (here (fun c => { c with tagsAt := 7 }) { s with cyc := 7 })
theorem test_witness_WaitForms_waiting :
    (me (fun v => { v with wait := some ⟨0, 7, .tags false 1, false⟩ }) waits).me.wait = some ⟨0, 7, .tags false 1, false⟩ ∧
    (undone false waits).me.wait = some ⟨0, 7, .tags false 4, false⟩ ∧ ((undone false waits).here.tags &&& 4 != 0) = false ∧
    (undone false waits).here.tagsAt = (undone false waits).cyc ∧ (undone false waits).unresolved = none ∧
    (undone true shadow).me.wait = some ⟨0, 7, .tags false 4, true⟩ ∧ ((undone true shadow).here.tags &&& 4 != 0) = false ∧
    (undone true shadow).here.tagsAt = (undone true shadow).cyc ∧
    (me (fun v => { v with branches := [⟨9, 8, true, 64, false⟩] }) (undone true scl)).unresolved = some 8 := by decide
theorem test_witness_WaitForms_instant :
    let s := me (fun v => { v with wait := some ⟨0, 0, .drone 0, false⟩ }) waits
    (s.seq s.cur).wait = some ⟨0, 0, .drone 0, false⟩ ∧ (0 : Dword).toNat ≤ s.drone ∧ (1 : Nat) ≠ 0 := by decide
theorem test_witness_Check : scl.issues h0 { reads := [.x scl.cur 0], writes := [.p scl.cur 1] } ∧ scl.me.aligned = false ∧
    shep.offFabric = false ∧ shep.issues h0 { writes := [.p shep.cur 1] } ∧ scl.offFabric = true ∧ scl.issues h0 { writes := [.p scl.cur 1] } := by
  unfold State.issues; decide
theorem test_witness_Check_false_aligned :
    let s := me (fun v => { v with aligned := true }) (regs [(1, 1)] scl)
    s.issues h0 { reads := [.x s.cur 1], writes := [.p s.cur 1] } ∧ s.me.aligned = true ∧ (s.here.tags &&& s.xr 1 == s.xr 1) = false := by
  unfold State.issues; decide
/-- The node's queue is debuggable. -/
def halting : State := scl.modQueue 0 (fun q => { q with debuggable := true })
theorem test_witness_Trap : scl.issues h0 { serial := true } ∧ (scl.node? 1).any (fun m => !scl.canHalt m) = true ∧
    halting.issues h0 { serial := true } ∧ (halting.node? 1).any (fun m => halting.canHalt m) = true := by unfold State.issues; decide
theorem test_witness_Check_flags :
    let s := here (fun c => { c with flags := 0x41 }) scl
    s.issues h0 { serial := true } ∧ s.me.flagAt = 0 ∧ s.here.flags &&& 0x40 ≠ 0 ∧ s.here.flags &&& 0x02 = 0 := by unfold State.issues; decide
theorem test_witness_Check_flags_wait :
    let s := me (fun v => { v with flagAt := 3 }) scl
    s.issues h0 { serial := true } ∧ s.me.aligned = false ∧ s.me.flagAt ≠ 0 ∧ s.cyc ≤ s.me.flagAt := by unfold State.issues; decide
theorem test_witness_Check_predicate : scl.issues h0 { reads := [.p scl.cur 1], serial := true } ∧ scl.pr 1 = ((1 : BitVec 1) == 0) := by
  unfold State.issues; decide
theorem test_witness_End : scl.issues h0 { serial := true } ∧ scl.here.sq = [] ∧ scl.here.node = some 1 := by unfold State.issues; decide
theorem test_witness_End_scaleq :
    let s := here (fun c => { c with sq := [⟨1, none⟩] }) scl
    s.issues h0 { serial := true } ∧ s.here.othersEnded s.cur.q = true ∧ s.here.sq ≠ [] := by unfold State.issues; decide


/-- The SCL of core 0 beside cores 1 and 8 of its node: the same die and the other die. -/
def trio : State := node1 (fun n => { n with cores := [0, 1, 8] }) scl
/-- Bases of the three paths: own core, core 1 and core 8 in window 0x01, and the last line of the package. -/
def based : State := regs [(1, 0), (2, 0x0100000020000000), (3, 0x0100000100000000), (4, 0x1000000000000000), (5, 0x010000001FFFFFFC), (6, 3),
  (7, 0x0200000000000000), (8, 256)] trio
def basedAligned : State := me (fun v => { v with aligned := true, lvl := 1 }) based
/-- The same with more than one tile of registers: the load sequencer's view. -/
def on (q : SeqName) : State :=
  regs [(1, 0), (2, 0x0100000020000000), (3, 0x0100000100000000), (4, 0x1000000000000000), (6, 3), (8, 256)]
    (node1 (fun n => { n with cores := [0, 1, 8] }) (scene q false))

theorem test_witness_Address_own : (0x1FFFFFFF : Dword).toNat / 2 ^ 56 = 0 ∧ scl.cur.unit.val < 32 ∧
    (0x1FFFFFFF : Dword).toNat % 2 ^ 56 + 1 ≤ 2 ^ 29 ∧ 2 ^ 29 < (0x1FFFFFFF : Dword).toNat % 2 ^ 56 + 2 ∧ 32 ≤ shep.cur.unit.val := by decide
theorem test_witness_Address_package : (0x0100000400000000 : Dword).toNat / 2 ^ 56 = 1 ∧ 2 ^ 34 ≤ (0x0100000400000000 : Dword).toNat % 2 ^ 56 ∧
    (0x01000003FFFFFFFF : Dword).toNat % 2 ^ 56 < 2 ^ 34 ∧ (0x01000003FFFFFFFF : Dword).toNat % 2 ^ 56 % 2 ^ 29 + 1 ≤ 2 ^ 29 ∧
    2 ^ 29 < (0x01000003FFFFFFFF : Dword).toNat % 2 ^ 56 % 2 ^ 29 + 2 := by decide
theorem test_witness_Address_other : (0x02FFFFFFFFFFFFFF : Dword).toNat / 2 ^ 56 = 2 ∧ (0x10FFFFFFFFFFFFFF : Dword).toNat / 2 ^ 56 = 0x10 ∧
    (0x2000000000000000 : Dword).toNat / 2 ^ 56 = 0x20 ∧ (0x0300000000000000 : Dword).toNat / 2 ^ 56 = 3 ∧
    (0xFF00000000000000 : Dword).toNat / 2 ^ 56 = 0xFF := by decide

theorem test_witness_ScalarAccess_ask : based.issues h0 { reads := [.x based.cur 1], writes := [.x based.cur 9] } ∧
    based.issues h0 { reads := [.x based.cur 1, .x based.cur 9] } := by unfold State.issues; decide
theorem test_witness_ScalarAccess_alignment : (based.xr 6).toNat % 4 ≠ 0 ∧ (based.xr 6).toNat % 1 = 0 := by decide
theorem test_witness_ScalarAccess_bad : (based.xr 7).toNat % 4 = 0 ∧ based.reach (based.xr 7) 4 = .bad .protection ∧
    based.reach (based.xr 5) 4 = .spad 0x1FFFFFFC ∧ based.reach (based.xr 5) 8 = .bad .window := by decide
theorem test_witness_ScalarAccess_far : based.reach (based.xr 4) 4 = .far ∧ based.me.aligned = false ∧ basedAligned.reach (basedAligned.xr 4) 4 = .far ∧
    basedAligned.me.aligned = true := by decide
theorem test_witness_ScalarAccess_paths : based.reach (based.xr 1) 8 = .spad 0 ∧ based.path 0 = 0 ∧ based.claimed 0 8 = false ∧
    based.reach (based.xr 2) 8 = .spad 0x20000000 ∧ based.path 0x20000000 = 1 ∧ based.reach (based.xr 3) 8 = .spad 0x100000000 ∧
    based.path 0x100000000 = 2 ∧ based.inOrder 0 false (based.cyc + 4) = true ∧ based.inOrder 0 true (based.cyc + 48) = true := by decide

theorem test_witness_Atomic : based.issues h0 { reads := [.x based.cur 1, .x based.cur 6, .x based.cur 7], writes := [.x based.cur 9] } ∧
    (based.xr 6).toNat % 8 ≠ 0 ∧ (based.xr 7).toNat % 8 = 0 ∧ based.reach (based.xr 7) 8 = .bad .protection := by
  unfold State.issues; decide
theorem test_witness_Atomic_far : (based.xr 4).toNat % 8 = 0 ∧ based.reach (based.xr 4) 8 = .far ∧ basedAligned.me.aligned = true := by decide
theorem test_witness_Atomic_paths : based.here.scalar ≤ based.cyc ∧ based.path 0x20000000 = 1 ∧ based.path 0x100000000 = 2 ∧
    based.inOrder 15 true (based.cyc + 20) = true := by decide

theorem test_witness_Waita_start : based.me.wait = none ∧
    based.issues h0 { reads := [.x based.cur 1, .x based.cur 6, .x based.cur 0], waiting := true, serial := true } ∧
    based.reach (based.xr 1) 4 = .spad 0 ∧ based.reach (based.xr 4) 8 = .far ∧ based.reach (based.xr 7) 8 = .bad .protection ∧
    based.here.scalar ≤ based.cyc ∧ based.claimed 0 4 = false := by unfold State.issues; decide
/-- A `WAITA` that waits, met or not. -/
def waiting (met : Bool) : State := me (fun v => { v with wait := some ⟨3, 0, .word 0 1 0 false 0 0 0 false met, false⟩ }) based
theorem test_witness_Waita_goes_on : (waiting true).me.wait = some ⟨3, 0, .word 0 1 0 false 0 0 0 false true, false⟩ ∧
    (waiting true).waitMet (waiting true).cur (.word 0 1 0 false 0 0 0 false true) = true ∧
    (waiting false).waitMet (waiting false).cur (.word 0 1 0 false 0 0 0 false false) = false := by decide
theorem test_witness_Waita_reread : ((waiting false).seq (waiting false).cur).wait = some ⟨3, 0, .word 0 1 0 false 0 0 0 false false, false⟩ ∧ 3 ≠ (4 : Nat) := by
  decide

/-- Its read of line 0 has failed on cycle 3, and none is in flight; a store of core 0 to that line lands. -/
def failed : State := me (fun v => { v with wait := some ⟨3, 0, .word 0 1 0 false 0 0 3 false false, false⟩ }) { based with cyc := 9 }
theorem test_witness_Waita_wakes : (failed.core 0).scl.wait = some ⟨3, 0, .word 0 1 0 false 0 0 3 false false, false⟩ ∧ 3 < failed.cyc ∧
    spadAt 0 (0 : Dword) = some 0 ∧ (∃ x ∈ [((8 : Nat), (1 : Byte))], x.1 / 64 = 0 / 64) ∧
    ({ failed with cur := ⟨0, .scl⟩ } : State).reach 0 4 = .spad 0 ∧ ({ failed with cur := ⟨0, .scl⟩ } : State).path 0 = 0 ∧
    ({ failed with cur := ⟨0, .scl⟩ } : State).reach 0x1000000000000000 4 = .far := ⟨by decide, by decide, by decide, ⟨(8, 1), by decide, by decide⟩, by decide, by decide, by decide⟩
theorem test_witness_Line : (on .ld).issues h0 { reads := [.x (on .ld).cur 1], writes := (on .ld).tileDest 31 } ∧
    (on .ld).here.lineRead ≤ (on .ld).cyc ∧ (on .st).issues h0 { reads := .x (on .st).cur 1 :: (on .st).tileDest 38 } ∧
    (on .st).here.lineWrite ≤ (on .st).cyc := by unfold State.issues; decide
theorem test_witness_Line_addresses : (0xFF : Dword).toNat % 256 ≠ 0 ∧ ((on .ld).xr 4).toNat % 256 = 0 ∧ (on .ld).reach ((on .ld).xr 4) 1024 = .far ∧
    (on .ld).reach 0x1FFFFC00 1024 = .spad 0x1FFFFC00 ∧ (on .ld).reach 0x1FFFFD00 1024 = .bad .window ∧
    (on .ld).reach 0x0100000020000000 1024 = .spad 0x20000000 ∧ (on .ld).path 0x20000000 = 1 ∧ (on .ld).path 0x100000000 = 2 := by decide
/-- The shape has one row of four columns. -/
def four : State := here (fun c => { c with shp := 0x30 }) (on .ld)
theorem test_witness_Banked_load : four.issues h0 { reads := .x four.cur 1 :: four.tileDest 2, writes := four.tileDest 3 } ∧
    four.here.banked ≤ four.cyc ∧ four.me.aligned = false ∧
    four.bankedCheck (four.xr 1) (elementAddrs (four.xr 1) (four.tile 2) 1 (lanesOf four.here.shp)) 4 = none ∧
    four.path (four.elementOff (four.xr 1)) = 0 ∧ four.path (four.elementOff (four.xr 2)) = 1 ∧ four.path (four.elementOff (four.xr 3)) = 2 := by
  unfold State.issues; decide
theorem test_witness_Banked_store :
    let s := here (fun c => { c with shp := 0x30 }) (me (fun v => { v with aligned := true }) (on .st))
    s.issues h0 { reads := .x s.cur 1 :: (s.tileDest 2 ++ s.tileDest 3) } ∧ s.here.banked ≤ s.cyc ∧
    s.bankedCheck (s.xr 1) (elementAddrs (s.xr 1) (s.tile 2) 4 (lanesOf s.here.shp)) 16 = none ∧
    passesOf 4 (elementAddrs (s.xr 1) (s.tile 2) 4 (lanesOf s.here.shp)) ≤ (256 : BitVec 9).toNat := by unfold State.issues; decide
theorem test_witness_Banked_no_budget :
    let s := here (fun c => { c with shp := 0 }) (me (fun v => { v with aligned := true }) (on .ld))
    (s.me.aligned && (0 : BitVec 9) == 0) = true ∧ elementAddrs (s.xr 1) (s.tile 2) 4 (lanesOf s.here.shp) = [] ∧
    s.issues h0 { reads := .x s.cur 1 :: s.tileDest 2, writes := s.tileDest 3 } ∧
    (four.bankedCheck 0x1FFFFFFC (elementAddrs 0x1FFFFFFC (four.tile 2) 2 4) 8).isSome = true := by unfold State.issues; decide

theorem test_witness_Slots : (on .ld).issues h0 { reads := [.x (on .ld).cur 1], writes := [.plane (on .ld).cur.unit 7] } ∧
    (on .ld).slotWait true 7 = none ∧ (on .ld).issues h0 { reads := [.x (on .ld).cur 1], writes := [.row (on .ld).cur.unit 0] } ∧
    (on .ld).slotWait false 0 = none ∧ (on .ld).issues h0 { reads := [.x (on .ld).cur 1] } ∧ (on .ld).here.sq.length < 64 ∧
    (on .ld).reach 0x1FFFD000 12288 = .spad 0x1FFFD000 ∧ (on .ld).reach 0x1FFFF000 4096 = .spad 0x1FFFF000 ∧
    (on .ld).reach 0x1FFFFE00 512 = .spad 0x1FFFFE00 := by unfold State.issues; decide
/-- The line port is taken for two cycles more. -/
def portTaken : State := me (fun v => { v with aligned := true }) (here (fun c => { c with lineRead := 2 }) (on .ld))
theorem test_witness_Slots_faults : (3 : Dword).toNat % 256 ≠ 0 ∧ (on .ld).reach 0x1FFFD100 12288 = .bad .window ∧
    (on .ld).reach 0x0200000000000000 512 = .bad .protection ∧ (on .ld).reach 0x1000000000000000 4096 = .far ∧
    portTaken.issues h0 { reads := [.x portTaken.cur 1] } ∧ portTaken.me.aligned = true ∧ portTaken.cyc < portTaken.here.lineRead ∧
    64 ≤ (here (fun c => { c with sq := List.replicate 64 ⟨0, none⟩ }) portTaken).here.sq.length := by unfold State.issues; decide
theorem test_witness_Ring_faults : (256 : Dword).toNat % 256 = 0 ∧ (1 : Dword).toNat % 256 ≠ 0 ∧ 2 ^ 29 < (0x1FFFFD00 : Dword).toNat + 1024 ∧
    (0x1FFFFC00 : Dword).toNat + 1024 ≤ 2 ^ 29 ∧ (on .ld).me.aligned = false := by decide
theorem test_witness_Ring : (on .ld).issues h0 { reads := [.x (on .ld).cur 6, .x (on .ld).cur 8] } ∧ ((on .ld).xr 6).toNat % 256 ≠ 0 := by
  unfold State.issues; decide
theorem test_witness_Ring_level_one :
    let s := me (fun v => { v with aligned := true, lvl := 1 }) (on .ld)
    s.issues h0 { reads := [.x s.cur 1, .x s.cur 8] } ∧ (s.xr 1).toNat % 256 = 0 ∧ (s.xr 8).toNat % 256 = 0 ∧ s.me.lvl = 1 ∧
    s.here.lineRead ≤ s.cyc ∧ s.claimed 0 1024 = false ∧ s.inOrder 0 false (s.cyc + 4) = true ∧ (on .ld).me.aligned = false := by
  unfold State.issues; decide

/-- The SCL on cycle 9 with accesses of cycle 3 still to be performed: a request of class 2, a non-temporal store of class 3 and an
acquiring load of class 4; and with a FENCE and a DRAIN of cycle 5 over the first two classes. -/
def ordered : State :=
  let r : Req := { id := 5, q := .scl, pc := 0, sq := false, addr := 0x2000000000000000, oc := 2, ord := 0, iss := 3, commit := 3, done := none, op := .load 1 4 false }
  me (fun v => { v with marks := [⟨.fence, ⟨0, .scl⟩, 5, 5, 0xC, 0xC, false, 5⟩, ⟨.drain, ⟨0, .scl⟩, 5, 5, 0xC, 0xFFFF, false, 5⟩] })
    (here (fun c => { c with reqs := [r, { r with id := 6, oc := 3, ord := 1, op := .store [1] }, { r with id := 7, oc := 4, ord := 3 }] }) { scl with cyc := 9 })
theorem test_witness_Fence : ordered.issues h0 {} ∧ (∀ m ∈ ordered.me.marks, m.commit ≤ ordered.cyc ∧ m.at_ ≤ ordered.cyc) ∧
    ordered.pends ordered.cur = [⟨3, some 2, 0, true, false, none, false⟩, ⟨3, some 3, 1, true, false, none, false⟩, ⟨3, some 4, 3, true, true, none, false⟩] ∧
    (0xC : BitVec 16).getLsbD 2 = true ∧ (0xC : BitVec 16).getLsbD 3 = true ∧ (0xFFFF : BitVec 16).getLsbD 15 = true ∧
    (ordered.newAccess 15 true).rel = true ∧ (ordered.newAccess 15 true).iss = 9 := by unfold State.issues; decide

theorem test_witness_Copy :
    let s := regs [(1, 0x1000), (2, 0), (3, 64), (4, 2)] scl
    s.issues h0 { reads := [.x s.cur 1, .x s.cur 2, .x s.cur 3] } ∧ s.rowsFault [(s.xr 2, (s.xr 3).toNat), (s.xr 1, (s.xr 3).toNat)] = none ∧
    s.here.queueFull s.cyc = false ∧ s.me.aligned = false ∧ s.orderHeld (s.newAccess 0 true) = false ∧
    s.issues h0 { reads := [.x s.cur 1, .x s.cur 2, .x s.cur 3, .x s.cur 4, .x s.cur 5, .x s.cur 6] } ∧
    (here (fun c => { c with tagsAt := s.cyc, tagsSet := 5 }) s).here.tagsSet.getLsbD 2 = true := by unfold State.issues; decide
theorem test_witness_Copy_fault : (scl.rowsFault [(0x0300000000000000, 4)]).isSome = true ∧ (scl.rowsFault [(0x1FFFFFFF, 1)]) = none ∧
    (scl.rowsFault [(0x1FFFFFFF, 2)]).isSome = true := by decide
theorem test_witness_Copy_planes :
    let s := regs [(1, 0x10000), (2, 0), (3, 32), (4, 32), (5, 256), (6, 0x1000), (7, 33)] scl
    s.issues h0 { reads := [.x s.cur 1, .x s.cur 2, .x s.cur 3, .x s.cur 4, .x s.cur 5, .x s.cur 6] } ∧ (s.xr 1).toNat % 256 = 0 ∧
    (s.xr 6).toNat % 256 = 0 ∧ (s.xr 3).toNat % 32 = 0 ∧ (s.xr 4).toNat % 32 = 0 ∧ (s.xr 7).toNat % 32 ≠ 0 ∧ s.here.queueFull s.cyc = false ∧
    s.rowsFault (((List.range 32).map (fun r => (s.xr 2 + BitVec.ofNat 64 r * s.xr 5, 32))) ++ [(s.xr 1, 6144)]) = none := by
  unfold State.issues; decide
theorem test_witness_Copy_completion :
    let c : Copy := { serial := 4, node := 1, claims := [], buf := [], kind := .move, rows := [], tag := 2, ctx := 1, oc := 0, ord := 0, iss := 0, ticket := 1, unread := 0, unwritten := 0 }
    let s := here (fun k => { k with copies := [c], tagPending := (k.tagPending.set 2 1) }) scl
    (s.core 0).copies.find? (fun c => c.serial == 4) = some c ∧ (s.core 0).tagPending.get 2 ≤ 1 ∧
    2 ≤ ((here (fun k => { k with tagPending := (k.tagPending.set 2 2) }) s).core 0).tagPending.get 2 := by decide

theorem test_witness_VectorTwoSource : cmpq.issuesIf h0 0 (cmpq.vecAsk 38 [0, 32] []) ∧ cmpq.pipeFree (pipeOf [38, 0, 32]) ∧
    cmpq.issuesIf h0 0 (cmpq.vecAsk 31 [0, 1] []) ∧ cmpq.pipeFree (pipeOf [31, 0, 1]) := by unfold State.issuesIf State.issues State.pipeFree; decide
theorem test_witness_VectorOther : cmpq.issuesIf h0 0 (cmpq.vecAsk 3 [0] []) ∧ cmpq.issuesIf h0 0 (cmpq.vecAsk 3 [0, 1, 2] []) ∧
    cmpq.issuesIf h0 0 (cmpq.vecAsk 3 [] [.x cmpq.cur 1]) ∧
    cmpq.issuesIf h0 0 { reads := cmpq.tileDest 0, writes := cmpq.tileDest 32, lanes := lanesOf cmpq.here.shp } ∧
    cmpq.issues h0 { reads := cmpq.tileDest 0, writes := [.x cmpq.cur 1], firstLane := 255, lanes := 1 } ∧
    cmpq.issues h0 { writes := [] } ∧ cmpq.pipeFree true ∧ cmpq.pipeFree false := by unfold State.issuesIf State.issues State.pipeFree; decide
/-- A stream buffer with 1,020 words, a scale queue with one entry present and one on its way, four active lanes. -/
def queued : State := here (fun c => { c with shp := 0x30, streams := c.streams.set 1 (List.replicate 1020 7), sq := [⟨1, some []⟩, ⟨2, none⟩] }) (regs [(1, 1), (2, 2), (3, 3)] cmpq)
theorem test_witness_Stream_push :
    queued.issuesIf h0 0 { reads := (queued.tileDest 0 ++ queued.tileDest 38), lanes := lanesOf queued.here.shp } ∧
    queued.pendingPush 1 = 0 ∧ queued.here.streams.get 1 = List.replicate 1020 7 := by
  unfold State.issuesIf State.issues; exact ⟨by decide, by decide, rfl⟩
theorem test_witness_Stream_push_bounds : (List.replicate 1020 (7 : Word)).length + 0 + 4 ≤ 1024 ∧ 1024 < (List.replicate 1020 (7 : Word)).length + 0 + 5 := by
  simp only [List.length_replicate]; decide
theorem test_witness_Stream_pop : queued.effs = [] ∧ queued.issues h0 { writes := .x queued.cur 1 :: queued.tileDest 35 } ∧
    queued.issues h0 { writes := [.x queued.cur 1] } := by unfold State.issues; decide
theorem test_witness_Stream_scale : queued.issues h0 { reads := [.x queued.cur 1] } ∧ (queued.xr 1).toNat ≤ queued.here.present ∧
    queued.here.present < (queued.xr 2).toNat ∧ (queued.xr 2).toNat ≤ queued.here.sq.length ∧ queued.here.sq.length < (queued.xr 3).toNat := by
  unfold State.issues; decide
theorem test_witness_Special : cmpq.here.sfu ≤ cmpq.cyc ∧ cmpq.issuesIf h0 0 (cmpq.vecAsk 38 [38, 0] []) ∧
    cmpq.issuesIf h0 0 (cmpq.vecAsk 32 [32, 33, 34] []) ∧ cmpq.pipeFree (pipeOf [32, 33]) := by unfold State.issuesIf State.issues State.pipeFree; decide
theorem test_witness_Lossy_sum :
    let s := here (fun c => { c with shp := 0x30, tiles := c.tiles.set 4 [1, 0, 1, 0] }) cmpq
    s.unreadLanes 2 3 4 = [(3, 1), (3, 3)] ∧ s.issuesIf h0 0 { s.vecAsk 2 [2, 3, 4] [] with skip := s.unreadLanes 2 3 4 } := by
  unfold State.issuesIf State.issues; decide
theorem test_witness_Stream_bad : (here (fun c => { c with bad := [(5, 4096 + 255)] }) queued).here.streamBad 1 256 = true ∧
    queued.here.streamBad 1 256 = false := by decide

theorem test_witness_Numbers : (0x7F7FFFFF : Nat) < 2 ^ (1 + fp32.e + fp32.m) ∧ decodeF fp32 0x7F7FFFFF ≠ .nan ∧
    (15 : Nat) < 2 ^ (1 + e2m1.e + e2m1.m) ∧ decodeF e2m1 15 ≠ .nan := by decide
theorem test_witness_Matrix : matrixTriple 3 4 4 = false ∧ matrixTriple (cmpq.matrixShape 0 0 0 1 1).2.2 1 1 = true ∧
    rowSlotsFit false 1 3 = true ∧ rowSlotsFit false 1 4 = false ∧ rowSlotsFit true 1 7 = true ∧ cmpq.here.engine ≤ cmpq.cyc ∧ cmpq.issues h0 {} := by
  unfold State.issues; decide
theorem test_witness_Matrix_slots : cmpq.issues h0 { reads := ((List.range 1).flatMap (fun b => Dest.plane cmpq.cur.unit ((3 + b) % 8) ::
    ((rowSlots 1 false 2 b) ++ []).map (Dest.row cmpq.cur.unit))).eraseDups } := by unfold State.issues; decide
theorem test_witness_Matrix_moves : cmpq.issuesIf h0 0 { reads := [.acc cmpq.cur.unit 2], writes := cmpq.tileDest 4 } ∧
    cmpq.issuesIf h0 0 { reads := cmpq.tileDest 4, lanes := lanesOf cmpq.here.shp } := by
  unfold State.issuesIf State.issues; decide

/-- A shepherd of die 0 with core 0 and core 8 granted; i1 a source, i2 a destination in window 0x02, i3 a length, i4 a template. -/
def sender : State := regs [(1, 0x0100000000001000), (2, 0x0200000000002000), (3, 512), (4, 0x0100000000000040), (5, 0x0100000100000000)]
  (node1 (fun n => { n with cores := [0, 8] }) shep)
theorem test_witness_Send_near : sender.issues h0 { reads := [.x sender.cur 1, .x sender.cur 2, .x sender.cur 3, .x sender.cur 4] } ∧
    sender.here.node = some 1 ∧
    (sender.node? 1).any (fun n => (sender.sendFault n (sender.newPlan (some true) 0 (sender.xr 4) (some (sender.xr 1)) (some (sender.xr 2)) 512)).isNone &&
      (sender.sendFault n (sender.newPlan (some true) 0 (sender.xr 4) (some 1) (some (sender.xr 2)) 512)).isSome) = true ∧
    (sender.newPlan (some true) 0 (sender.xr 4) (some (sender.xr 1)) (some (sender.xr 2)) 512).far 32 = false ∧
    (sender.newPlan (some true) 0 (sender.xr 4) (some (sender.xr 5)) (some (sender.xr 2)) 512).far 32 = true ∧
    sender.claimed1 (some (sender.xr 1)) 512 = false ∧ sender.allPerformed (sender.cyc + 20) = true ∧ sender.allPerformed (sender.cyc + 48) = true := by
  unfold State.issues; decide
theorem test_witness_Send_others : sender.issues h0 { reads := [.x sender.cur 4] } ∧
    sender.issues h0 { reads := [.x sender.cur 2, .x sender.cur 3, .x sender.cur 4] } ∧
    sender.issues h0 { reads := [.x sender.cur 2, .x sender.cur 3, .x sender.cur 4, .x sender.cur 6], writes := [.x sender.cur 7] } := by
  unfold State.issues; decide
theorem test_witness_Send_off_fabric :
    let s : State := { sender with fabric := none }
    (s.node? 1).any (fun n => some n.part != s.fabric && (win1Fault n (s.xr 1) 512).isNone && (win1Fault n (s.xr 4) 64).isNone && (win2Fault n (s.xr 2) 512).isNone) = true ∧
    (s.xr 1).toNat % 256 = 0 ∧ (s.xr 2).toNat % 256 = 0 ∧ (s.newPlan (some true) 0 (s.xr 4) none none 512).tmpl.toNat % 64 = 0 ∧
    (s.newPlan none 0 (s.xr 1) none none 0).tmpl.toNat % 256 = 0 := by decide
/-- A landed template: first entry FWD to port 0 on the EXACT channel, then DLV. -/
def landed (exact : Bool) : SendPlan :=
  { sender.newPlan (some exact) 0 (sender.xr 4) (some (sender.xr 1)) (some (sender.xr 2)) 512 with
    read := true, first := sender.cyc + 40
    head := List.replicate 16 0 ++ [if exact then 4 else 0, 0x20, 0, 0x40] ++ List.replicate 44 0, data := List.replicate 512 7 }
theorem test_witness_Send_lands : (sender.node? 1).any (fun n => ((landed true).landFault n 0).isNone && ((landed false).landFault n 0).isNone &&
    ((landed true).landFault n 1).isSome) = true ∧ (landed true).exact = true ∧ (landed false).exact = false ∧ (landed true).hd = none ∧
    (landed true).free = true ∧ (sender.here.slots.get 0).busy = false := by decide
/-- An RST of the same shepherd to rank 0 is not acknowledged, or its slot is busy. -/
def unackedSlot : State := here (fun c => { c with slots := c.slots.set 0 { busy := true, rst := true, dest := 0 } }) sender
theorem test_witness_Send_held :
    let e : Eff := { at_ := sender.cyc + 40, iss := sender.cyc, by_ := sender.cur, pc := 0, node := 1, sq := false, commit := 0, fixed := true
                     op := .send { landed true with kind := 1, first := sender.cyc + 40 } }
    unackedSlot.unacked { e with iss := 1 } 0 = true ∧ sender.unacked e 0 = false ∧ (unackedSlot.here.slots.get 0).busy = true := by decide

theorem test_witness_Shepherd_list : sender.here.node = some 1 ∧ sender.issues h0 { reads := [.x sender.cur 1] } ∧
    (sender.node? 1).any (fun n => (sender.listFault n (sender.xr 1) 32).isNone && (sender.listFault n (sender.xr 3) 32).isSome &&
      (sender.listFault n (sender.xr 1) (64 + 16 * 512)).isNone && n.size % 8 != 0) = true ∧ (sender.here.handles.get 63).busy = false ∧
    sender.claimed 0x1000 32 = false ∧ sender.allPerformed (sender.cyc + 63) = true ∧ sender.issues h0 { reads := [.x sender.cur 1, .x sender.cur 3] } := by
  unfold State.issues; decide
theorem test_witness_Shepherd_exchange : ((node1 (fun n => { n with size := 8 }) sender).node? 1).any (fun n => n.size % 8 == 0) = true := by decide
theorem test_witness_Shepherd_record : (31 : Dword).toNat % 32 ≠ 0 ∧ (sender.xr 1).toNat % 32 = 0 ∧
    (sender.node? 1).any (fun n => win1Fault n (sender.xr 1) 32 == none && win1Fault n (sender.xr 2) 32 == some .window && some n.part == sender.fabric) = true ∧
    sender.claimed 0x1000 32 = false ∧ sender.issues h0 { writes := [.x sender.cur 6] } := by
  unfold State.issues; decide
theorem test_witness_Shepherd_step : sender.me.wait = none ∧ sender.releaseHeld = false ∧ sender.posts (sender.shepFor 32) < 16 ∧
    portDie 0 = dieOf sender.cur.unit ∧ portDie 11 ≠ dieOf sender.cur.unit ∧ sender.issues h0 {} := by unfold State.issues; decide
theorem test_witness_Shepherd_step_taken :
    let s := here (fun c => { c with mailbox := [⟨3, 9⟩] }) sender
    s.here.mailbox = [⟨3, 9⟩] ∧ s.unresolved = none ∧ s.issues h1 { writes := [.x s.cur 6] } := by unfold State.issues; decide
theorem test_witness_Shepherd_step_shadow :
    let s := onFab (node1 (fun n => { n with cores := [0] }) (me (fun v => { v with branches := [⟨9, 5, true, 64, false⟩] }) (scene .scl true)))
    s.unresolved = some 5 ∧ s.cur.q = .scl ∧ s.issues h1 { writes := [.x s.cur 6] } := by unfold State.issues; decide
theorem test_witness_Shepherd_step_timeout :
    let s := here (fun c => { c with mailbox := List.replicate 16 ⟨0, 0⟩ }) (me (fun v => { v with wait := some ⟨0, 7, .mailbox, false⟩ }) { sender with cyc := 7 })
    s.me.wait = some ⟨0, 7, .mailbox, false⟩ ∧ 16 ≤ s.posts (s.shepFor s.cur.unit) ∧ 0 + 7 ≤ s.cyc := by decide
theorem test_witness_Shepherd_step_full :
    let s := here (fun c => { c with mailbox := List.replicate 16 ⟨0, 0⟩ }) sender
    16 ≤ s.posts (s.shepFor s.cur.unit) ∧ s.me.aligned = false ∧ (me (fun v => { v with aligned := true }) s).me.aligned = true ∧
    (me (fun v => { v with wait := some ⟨0, 0, .mailbox, false⟩ }) sender).me.wait = some ⟨0, 0, .mailbox, false⟩ := by decide

/-- A request of the SCL to window 0x10 or 0x20. -/
def request (op : ReqOp) (a : Dword) (done : Option Dword) : Req :=
  { id := 5, q := .scl, pc := 0, addr := a, op := op, oc := 0, ord := 0, sq := false, commit := 0, iss := 0, done := done }
/-- Context 0 maps its first page: a leaf at level 2 (32 MiB) to device address 0 with key slot 0. -/
def mapped : State := here (fun c => { c with reqs := [request (.load 3 8 false) 0x1000000000000000 none] }) scl
theorem test_witness_Request_walk : mapped.reqOf 5 = some (0, 0, request (.load 3 8 false) 0x1000000000000000 none) ∧
    (mapped.core 0).node = some 1 ∧ mapped.reqBlocked 0 0 (request (.load 3 8 false) 0x1000000000000000 none) = false ∧
    (mapped.node? 1).any (fun n => (mapped.walk n.pasid 0).isNone && mapped.readNode n 0x1000000000000000 8 5 == .bad .translation 0) = true := by decide
/-- Context 0 has its tables at 0x1000 and 0x2000 and maps its first page, of 32 MiB, to device address 0x2000000. -/
def tables (s : State) : State := ({ s with roots := [(0, 0x1000)] }.setEntry 0x1000 0x8000000000002000).setEntry 0x2000 0xE200000002000000
theorem test_witness_Request_reads :
    let s := (tables mapped).setDevBytes 0x2000010 [0, 0, 0, 0, 0, 0, 0, 0x80]
    (s.node? 1).any (fun n => s.readNode n 0x1000000000000010 8 5 == .bytes [0, 0, 0, 0, 0, 0, 0, 0x80]) = true ∧
    (s.node? 1).any (fun n => (s.walk n.pasid 0x10).isSome && !s.keys.contains 2) = true := by decide +kernel
theorem test_witness_Request_writes :
    let s := tables (node1 (fun n => { n with staged := [⟨0, 2 ^ 25, 0x4000000, 0x2000⟩] }) scl)
    (s.node? 1).any (fun n => (s.writeNode n 0x1000000000000010 [1, 2] 5).2.isNone) = true := by decide
theorem test_witness_Request_shadow :
    let s := tables (node1 (fun n => { n with staged := [⟨0, 2 ^ 25, 0x4000000, 0x2000⟩] }) scl)
    (s.node? 1).any (fun n => s.shadowAt n 0x10 == some ⟨0, 2 ^ 25, 0x4000000, 0x2000⟩ && s.shadowAt n (2 ^ 25) == none) = true ∧
    s.keys.contains (pteKey (s.entryAt 0x2000)) = true ∧ s.devBad 0x4000010 8 = false := by decide +kernel
theorem test_witness_Request_blocked :
    let s := here (fun c => { c with reqs := [request (.load 3 8 false) 0x1000000000000000 none] }) { scl with cyc := 5, retrain := [(0, 9)] }
    s.reqBlocked 0 0 (request (.load 3 8 false) 0x1000000000000000 none) = true := by decide
theorem test_witness_Request_return :
    let s := here (fun c => { c with reqs := [request (.load 3 8 false) 0x1000000000000000 (some 9)] }) scl
    s.reqOf 5 = some (0, 0, request (.load 3 8 false) 0x1000000000000000 (some 9)) := by decide

/-- The state with a group node of tag 0 on core 0 and shepherd 32. -/
def group : State := node1 (fun n => { n with family := { n.family with group := true }, sheps := [(0, 32)] }) scl
/-- A LOSSY packet of one block whose current entry is `e`, which arrives at port 0. -/
def arriving (e : BitVec 16) (exact : Bool) (kind : Nat) : Arrival :=
  ⟨0, 0, { exact := exact, kind := kind, hop := 0, rank := 0, die := 0, slot := 0, fn := 0, size := false, tag := 0, dest := 0, route := e :: List.replicate 11 0, counts := [1], blocks := [⟨[1, 2, 3, 4, 5, 6, 7, 8], true⟩], crcOk := true, reserved := false }⟩
theorem test_witness_Packet_actions : group.strayHeader (arriving 0x2000 false 0).pkt = false ∧ (arriving 0x2000 false 0).pkt.entry / 2 ^ 13 = 1 ∧
    group.strayHeader (arriving 0x4000 false 0).pkt = false ∧ (arriving 0x4000 false 0).pkt.entry / 2 ^ 13 = 2 ∧
    group.strayHeader (arriving 0x6000 false 0).pkt = false ∧ (arriving 0x6000 false 0).pkt.entry / 2 ^ 13 = 3 ∧
    group.strayHeader (arriving 0x8000 false 0).pkt = false ∧ (arriving 0x8000 false 0).pkt.entry / 2 ^ 13 = 4 ∧
    group.strayHeader (arriving 0x0000 true 3).pkt = false ∧ (arriving 0x0000 true 3).pkt.entry / 2 ^ 13 = 0 ∧
    group.strayHeader (arriving 0xA000 false 0).pkt = true ∧ group.strayHeader (arriving 0x2006 false 0).pkt = true ∧ scl.strayHeader (arriving 0x2000 false 0).pkt = true := by decide
theorem test_witness_Packet_end : (arriving 0 false 0).pkt.delivered = false ∧
    ({ (arriving 0 false 0).pkt with hop := 1, route := 0x8000 :: List.replicate 11 0 } : Packet).delivered = true := by decide
/-- Descriptor 3 of shepherd 32 is open for two LOSSY blocks from any rank. -/
def openRx : State := group.modCore 32 (fun c => { c with descs := c.descs.set 3 { state := .open_, serial := 7, any := true, base := 0x0100000000001000, e := 2, close := 90 } })
theorem test_witness_Packet_lossy :
    let p := { (arriving 0x4018 false 0).pkt with dest := 0x0200000000001100 }
    openRx.portShep 0 = 32 ∧ entryRx p.entry = 3 ∧ openRx.destGranted (p.dest.toNat % 2 ^ 34) = true ∧ ((openRx.core 32).descs.get 3).state = .open_ ∧
    (p.dest.toNat % 2 ^ 34 - 0x1000) / 256 + p.blocks.length ≤ 2 ∧ p.blocks[0]? = some ⟨[1, 2, 3, 4, 5, 6, 7, 8], true⟩ := by decide
/-- Descriptor 3 reduces two blocks of 0x1000 of core 0, until cycle `close`. -/
def reducing (ex : Bool) (close : Nat) : State := openRx.modCore 32 (fun c => { c with descs := c.descs.set 3 { c.descs.get 3 with red := true, ex := ex, close := close } })
/-- Its packet names it by its current entry, at the second block. -/
def partial_ : Arrival := { arriving 0x6018 false 0 with pkt := { (arriving 0x6018 false 0).pkt with dest := 0x0200000000001100 } }
theorem test_witness_Packet_combine : entryRx partial_.pkt.entry = 3 ∧ (reducing false 90).portShep 0 = 32 ∧
    (let d := ((reducing false 90).core 32).descs.get 3
     let b := d.base.toNat % 2 ^ 56 % 2 ^ 29
     let x := partial_.pkt.dest.toNat % 2 ^ 29
     d.state = .open_ ∧ d.red = true ∧ b ≤ x ∧ (x - b) % 256 = 0 ∧ (x - b) / 256 + 1 ≤ d.e ∧ dieOf (coreOf (d.base.toNat % 2 ^ 56)) = portDie 0 ∧
      partial_.cyc + 8 * (1 - 1 + 1) + 24 ≤ d.close) ∧
    (((reducing false 30).core 32).descs.get 3).close < partial_.cyc + 8 * (1 - 1 + 1) + 24 := by decide
theorem test_witness_Packet_combine_stray : ((openRx.core 32).descs.get 3).red = false ∧ ((reducing true 30).core 32 |>.descs.get 3).ex = true := by decide
/-- A stray delivery makes a DUP stray: its descriptor does not take the block. -/
theorem test_witness_Packet_dup : openRx.lossyStray { arriving 0x8018 false 0 with pkt := { (arriving 0x8018 false 0).pkt with dest := 0x0200000000001100 } } = false ∧
    group.lossyStray (arriving 0x8018 false 0) = true ∧ (arriving 0x8018 false 0).pkt.exact = false := by decide
theorem test_witness_Packet_exact : group.destGranted (0x1FFFFF00 : Nat) = true ∧ group.destGranted (0x20000000 : Nat) = false ∧
    (group.core (group.portShep 0)).exbuf.length < 256 ∧ group.linkHeld 0 = false := by decide
theorem test_witness_Packet_exact_full :
    let s := group.modCore 32 (fun c => { c with exbuf := [⟨4, arriving 0x4000 true 0, false⟩] })
    s.linkHeld 0 = true := by decide

theorem test_witness_Shepherd_reply :
    let s := group.modCore 32 (fun c => { c with slots := c.slots.set 63 { busy := true, reply := some (.st, 4, false) } })
    ((s.core 32).slots.get 63).reply = some (.st, 4, false) := by decide
/-- A buffered signal of sender rank 0. -/
def buffered (s : State) : State := s.modCore 32 (fun c => { c with exbuf := [⟨4, arriving 0x4000 true 1, true⟩] })
theorem test_witness_Shepherd_buffer : (buffered group).heldOf 4 = some (32, ⟨4, arriving 0x4000 true 1, true⟩) ∧
    (buffered group).covered 0 = false ∧ (buffered openRx).covered 0 = true ∧ (∀ x ∈ ((buffered group).core 32).exbuf, x.admitted = true) ∧
    (buffered group).spadBad 0 8 = false := by decide
theorem test_witness_Shepherd_stage :
    let s := group.modCore 32 (fun c => { c with handles := c.handles.set 0 { busy := true, exchange := true, w := 2 } })
    ((s.core (s.portShep 0)).handles.get 0).exchange = true ∧ ((s.core (s.portShep 0)).handles.get 0).w ≠ 0 ∧ s.groupNode.isSome = true ∧
    ((group.core (group.portShep 0)).handles.get 0).w = 0 ∧ (group.heldId 32 (arriving 0x4000 true 6)) = none := by decide
/-- Handle 1 is busy with three steps, and step 0, of kind 1 on descriptor `rx`, is read. -/
def stepping (exact : Bool) (rx : Byte) : State := openRx.modCore 32 (fun c => { c with
  handles := c.handles.set 1 { busy := true, s := 3, exact := exact, node := 1, done := 1, steps := [[0, 0, 0, 0, 1, rx] ++ List.replicate 26 0] } })
theorem test_witness_Shepherd_steps : ((stepping false 3).core 32 |>.handles.get 1).busy = true ∧
    ((stepping false 3).core 32 |>.handles.get 1).steps[2]? = none ∧
    ((stepping false 3).core 32 |>.handles.get 1).steps[0]? = some ([0, 0, 0, 0, 1, 3] ++ List.replicate 26 0) ∧ ((stepping false 3).node? 1).isSome = true ∧
    (((stepping false 3).core 32).descs.get 3).settled = false ∧ (0 : Nat) ≠ ((stepping true 3).core 32 |>.handles.get 1).done := by decide
theorem test_witness_Shepherd_close : ((openRx.core 32).descs.get 3).serial = 7 ∧ ((openRx.core 32).descs.get 3).ex = false ∧
    lookup ((openRx.core 32).descs.get 3).got 1 = none ∧ ((openRx.core 32).descs.get 4).state ≠ .open_ := by decide
theorem test_witness_Shepherd_guard :
    let s := group.modPort 2 (fun q => { q with up := true, chan := q.chan.set 1 [(0, 7)] })
    (s.port 2).up = true ∧ (s.port 2).chan.toList.any (fun l => l.any (fun r => decide (r.1 ≤ s.cyc) && decide (s.cyc ≤ r.2))) = true ∧
    (group.port 2).up = false ∧ ((group.modPort 2 (fun q => { q with up := true })).port 2).up = true := by decide

theorem test_witness_Link : ((scl.port 0).replays + 1 < 8) ∧
    8 ≤ ((scl.modPort 0 (fun q => { q with replays := 7 })).port 0).replays + 1 ∧ (1 ≤ 255 ∧ 255 ≠ (scl.port 0).reach) ∧
    (∀ n ∈ ({ scl with nodes := [] } : State).nodes, some n.part = scl.fabric → n.live = false) ∧ scl.hostDown.contains 1 = false := by decide
theorem test_witness_Link_same_reach :
    let s := scl.modPort 0 (fun q => { q with reach := 40, guards := [(0, 511)] })
    40 = (s.port 0).reach ∧ ∃ r ∈ (s.port 0).guards, r.1 ≤ s.cyc ∧ s.cyc ≤ r.2 := ⟨by decide, (0, 511), by decide⟩
theorem test_witness_Link_deferred : (scl.port 0).reach = 0 ∧ (scl.modPort 0 (fun q => { q with reach := 40, guards := [(5, 511)] })).cyc = 0 ∧
    ((scl.modPort 0 (fun q => { q with reach := 40, trained := true, guards := [(5, 511)] })).port 0).reach ≠ 41 ∧ ({ scl with errV := true } : State).errV = true := by decide
/-- A member of a group of ranks 0 and 1 whose bellwether is rank 0. -/
def member : State := { scl with group := { scl.group with member := true, rank := 1, members := [0, 1], bell := false, limits := [(0, 900)], heard := [(0, 3)] } }
theorem test_witness_Exchange : member.group.member = true ∧ member.group.bell = false ∧
    32 < ((((100 : Nat) : Int) - (0 : Nat)) - (((0 : Nat) : Int) - (0 : Nat)) : Int) / 2 - 0 ∧ ((64 : Int) / 2 - 0).natAbs ≤ 32 := by decide
theorem test_witness_Clock : 0 < scl.pitch ∧ scl.slip = 0 ∧ ({ scl with n65 := scl.n65 + 65 } : State).slip ≠ 0 := by decide

/-- A LOWER to code 300 at instant 5, and at instant 5 another to 280. -/
def lower (code num : Nat) : NoticeWord := ⟨.lower, code, 5, 0, 0, num⟩
theorem test_witness_Notice_first : (0, 9) ∉ member.group.seen ∧ member.drone < (lower 300 9).x ∧ (∀ m ∈ member.group.notices, m.x ≠ 5) ∧
    (0, 9) ∈ ({ member.group with seen := [(0, 9)] } : Group).seen ∧ (lower 300 9).x ≤ ({ member with drone := 5 } : State).drone := by decide
theorem test_witness_Notice_applies :
    let s : State := { member with drone := 5, group := { member.group with notices := [lower 300 9, lower 280 10] } }
    5 ≤ s.drone ∧ (∀ n ∈ s.group.notices, n.x = 5 → n.kind = .raise ∨ n.kind = .lower) ∧ member.drone < 5 := by decide
theorem test_witness_Notice_forecast : min 1000 (64 * 253 / 65) < 250 ∧ 250 ≤ min 1000 (64 * 254 / 65) ∧ scl.pitch ≤ min 1000 (64 * 254 / 65) ∧
    min 1000 (64 * 300 / 65) < ({ scl with pitch := 400 } : State).pitch ∧ 249999 < scl.drone + 1000 * scl.group.leadUs ∧
    scl.drone + 1000 * scl.group.leadUs ≤ 250000 := by decide
/-- A forecast that lets 64 × 915 / 65 run at the limits of power, cap and temperature; one point is over the tray's cap, one too hot. -/
def forecast : Forecast := ⟨[(915, 2000, 90), (1000, 2700, 90), (950, 2000, 106)]⟩
theorem test_witness_Notice_breach :
    let s : State := { scl with pitch := 1000, trayCap := some 2600 }
    s.limitFor forecast = 915 ∧ ({ s with forecasts := [(1, 915)] } : State).breach = some (1, 900) ∧
    ({ s with forecasts := [(250000, 250)] } : State).breach = some (250000, 246) ∧ s.drone + 1000 * s.group.leadUs ≤ 250000 ∧ scl.breach = none ∧ scl.emerg = false := by decide
theorem test_witness_Notice_raise : scl.group.bell = true ∧ scl.lowestLimit = some 1023 ∧ scl.pitch < min 1000 (64 * 1023 / 65) ∧
    member.group.bell = false := by decide
theorem test_witness_Notice_silence : lookup member.group.heard 0 = some 3 ∧ member.drone < 3 + 200000 ∧
    3 + 200000 ≤ ({ member with drone := 200003 } : State).drone ∧ 0 ∈ member.group.members ∧ 0 ∉ member.group.silent := by decide
theorem test_witness_Notice_fault : (0, 9) ∉ member.group.seen ∧ member.group.faults = [] ∧
    ∀ f ∈ [(⟨[0], 7, 0, 9⟩ : FaultWord)], member.group.rank ∉ f.ranks := by decide

/-- A queue of context 0: 1,024 words at the start of the first page, 16 records 64 KiB beyond. -/
def ring : QueueCfg := ⟨0, 0, 0, 0x1000000000000000, 1024, 0x1000000000010000, 16, 0⟩
/-- Queue 1 runs, resident, with the words in its ring from 0 on. -/
def front (ws : List Word) : State :=
  let s := { (tables scl).setDevBytes 0x2000000 (ws.flatMap (fun w => leBytes 4 w.toNat)) with ready := true, nodes := [], fabric := some 0 }
  s.modQueue 1 (fun q => { q with cfg := some ring, state := .run, out := false, tail := BitVec.ofNat 32 ws.length })
theorem test_witness_Queue_tail : ((front []).queue 1).cfg = some ring ∧ (front []).ready = true ∧ ((front []).queue 1).out = false ∧
    ((1024 : Word) - ((front []).queue 1).head).toNat ≤ ring.ringWords ∧ ring.ringWords < ((1025 : Word) - ((front []).queue 1).head).toNat ∧
    ((0 : Word) - ((front [0]).queue 1).head).toNat < (((front [0]).queue 1).tail - ((front [0]).queue 1).head).toNat := by decide
theorem test_witness_Queue_out : ((scl.queue 3).out = true) ∧ (scl.queue 3).cfg = none ∧ scl.ready = false ∧ QueueCfgOk ring = true ∧
    QueueCfgOk { ring with ringWords := 512 } = false ∧ (scl.queue 3).faultRec = none := by decide
theorem test_witness_Queue_stopped :
    let s := (front []).modQueue 1 (fun q => { q with state := .overrun, faultRec := some [1] })
    s.ready = true ∧ (s.queue 1).state = .overrun ∧ (s.queue 1).faultRec = some [1] ∧ ((front []).queue 1).state ≠ .stopped := by decide
/-- A tail was captured before the queue stopped. -/
def captured : State := (front []).modQueue 1 (fun q => { q with state := .stopped, out := true, captured := some 7 })
theorem test_witness_Queue_captured : captured.ready = true ∧ (captured.queue 1).cfg = some ring ∧ (captured.queue 1).state = .stopped ∧
    ((9 : Word) - (captured.queue 1).head).toNat ≤ ring.ringWords ∧ (captured.queue 1).captured.isSome = true ∧ (3 : Dword).getLsbD 1 = true ∧
    (3 : Dword).getLsbD 0 = true ∧ ((front []).queue 1).state ≠ .idle := by decide
theorem test_witness_Queue_record :
    let s := (front []).modQueue 1 (fun q => { q with due := [plainRecord 0 0 0 0], ctail := 15 })
    (s.queue 1).due = [plainRecord 0 0 0 0] ∧ ((s.queue 1).ctail - (s.queue 1).chead).toNat < ring.cringRecs ∧
    s.awaits ring.cring = false ∧ ({ s with retrain := [(0, 9)] } : State).awaits ring.cring = true ∧
    ring.cringRecs ≤ ((16 : Word) - (s.queue 1).chead).toNat ∧ (1 : Dword).getLsbD 0 = true ∧ (2 : Dword).getLsbD 1 = true := by decide

theorem test_witness_PacketStart :
    let s := front [0x00018000]
    (s.queue 1).cfg = some ring ∧ (s.queue 1).started = none ∧ (s.queue 1).heldBack = false ∧ (s.queue 1).tail ≠ (s.queue 1).head ∧
    s.headNode 1 = none ∧ s.ringWord ring 0 = 0x00018000 ∧ headerOk 0x00018000 = true ∧ bodyOk [0x00018000] = true ∧
    s.launchesOpen 1 = false ∧ s.awaits ring.ring = false := by decide +kernel
/-- FENCE with a kind of 2: its header is legal, its body is not. -/
theorem test_witness_PacketStart_body :
    let s := front [0x05020000, 2]
    s.ringWord ring 0 = 0x05020000 ∧ s.ringWord ring 1 = 2 ∧ headerOk 0x05020000 = true ∧ bodyOk [0x05020000, 2] = false ∧
    2 ≤ ((s.queue 1).tail - (s.queue 1).head).toNat := by decide +kernel
theorem test_witness_PacketStart_bad : headerOk 0x0D010000 = false ∧ headerOk 0x00000000 = false ∧ headerOk 0x00010001 = false ∧
    headerOk 0x04030000 = true ∧ (((front [0x04030000]).queue 1).tail - ((front [0x04030000]).queue 1).head).toNat < 3 := by decide
theorem test_witness_PacketStart_ordered : (0x00014000 : Word).getLsbD 14 = true ∧
    ({ front [] with nodes := [{ placedNode 1 false with queue := 1 }] } : State).launchesOpen 1 = true := by decide
/-- Queue 1 has started the packet. -/
def taken (ws : List Word) : State := (front ws).modQueue 1 (fun q => { q with started := some ⟨0, 0, (ws.getD 0 0).toNat / 2 ^ 24, ws, 0⟩ })
theorem test_witness_Packet_types : (((taken [0x00010000]).startPacket 1 0).queue 1).inHand 0 = some (ring, ⟨0, 0, 0, [0x00010000], 0⟩) ∧
    (((taken [0x04030000, 7, 0]).startPacket 1 4).queue 1).inHand 4 = some (ring, ⟨0, 0, 4, [0x04030000, 7, 0], 0⟩) ∧
    (((taken [0x05020000, 1]).startPacket 1 5).queue 1).inHand 5 = some (ring, ⟨0, 0, 5, [0x05020000, 1], 0⟩) ∧ (taken []).launchesOpen 1 = false ∧
    (taken []).nodesOpen 1 = false := by decide
/-- A semaphore packet on the doubleword at 0x100 of the page. -/
def sem (typ : Word) : List Word := [typ <<< 24 ||| 0x60000, 0x100, 0x10000000, 5, 0, 1]
theorem test_witness_Packet_semaphore :
    let s := taken (sem 3)
    ((s.startPacket 1 3).queue 1).inHand 3 = some (ring, ⟨0, 0, 3, sem 3, 0⟩) ∧ s.semFault ring (pkt64 (sem 3) 1) true = none ∧
    winOf (pkt64 (sem 3) 1) = 0x10 ∧ ((s.nextFree.ownAt 0 0 (offOf (pkt64 (sem 3) 1))).bind (fun x => x.ownAt 0 0 (offOf (pkt64 (sem 3) 1) + 7))).isSome = true ∧
    (s.startPacket 1 3).awaits (pkt64 (sem 3) 1) = false ∧ (s.startPacket 1 3).committingIn 0 = false := by
  decide +kernel
theorem test_witness_Packet_semwait :
    let s := front (sem 2)
    let t := s.startPacket 1 2
    (s.queue 1).started = none ∧ ((t.queue 1).inHand 2).isSome = true ∧ t.semFault ring (pkt64 (sem 2) 1) false = none ∧
    t.nextFree.semHolds ring ⟨0, 0, 2, sem 2, 0⟩ = false ∧ (t.nextFree.setDevBytes 0x2000100 [5]).semHolds ring ⟨0, 0, 2, sem 2, 0⟩ = true := by
  decide +kernel
theorem test_witness_Packet_semwait_later : ((taken (sem 2)).queue 1).inHand 2 = some (ring, ⟨0, 0, 2, sem 2, 0⟩) ∧
    ((taken (sem 2)).queue 1).state = .run ∧
    (((taken (sem 2)).modQueue 1 (fun q => { q with state := .parked })).queue 1).state = .parked := by decide
/-- A family of one core that needs no shepherd, image 4. -/
def one : Family := { id := 2, nonidem := false, tolerant := false, group := false, budget := 5000, variants := [⟨1, 0, [⟨0, .scl, 0, 0⟩], [0]⟩] }
def pinned (s : State) : State :=
  { s with images := [⟨4, [], 0, [], [one], false, []⟩], parts := s.parts.set 0 { s.part 0 with target := 100, ceiling := 1 } }
theorem test_witness_Packet_launch :
    let s := pinned (taken [0x01090000, 0x00040002, 0, 0, 0, 0x10000000, 0, 0, 0])
    ((s.startPacket 1 1).queue 1).inHand 1 = some (ring, ⟨0, 0, 1, [0x01090000, 0x00040002, 0, 0, 0, 0x10000000, 0, 0, 0], 0⟩) ∧
    (s.launchCheck 0 [0x01090000, 0x00040002, 0, 0, 0, 0x10000000, 0, 0, 0]).2 = some one ∧ (s.launchCheck 0 [0x01090000, 0x00050002]).2 = none := by decide
theorem test_witness_Packet_snap : ((taken [0x06060000, 0, 0x10000000, 0x10000, 0, 9]).startPacket 1 6 |>.queue 1).inHand 6 =
    some (ring, ⟨0, 0, 6, [0x06060000, 0, 0x10000000, 0x10000, 0, 9], 0⟩) ∧ offOf (pkt64 [0x06060000, 0, 0x10000000, 0x10000, 0, 9] 1) % 2 ^ 16 = 0 ∧
    (∀ k ∈ ((taken []).part 0).snapshots, k.id ≠ 9) := by decide
theorem test_witness_Packet_roll :
    let s := part0 (fun p => { p with snapshots := [⟨9, 0, 0, 0x10000, []⟩] }) (taken [0x07020000, 9])
    ((s.startPacket 1 7).queue 1).inHand 7 = some (ring, ⟨0, 0, 7, [0x07020000, 9], 0⟩) ∧
    (s.part 0).snapshots.find? (fun k => k.id == pkt32 [0x07020000, 9] 1) = some ⟨9, 0, 0, 0x10000, []⟩ := by decide
theorem test_witness_Packet_commit :
    let s : State := { taken [0x08040000, 0, 0, 0] with nodes := [{ placedNode 1 false with state := .inDoubt }] }
    ((s.startPacket 1 8).queue 1).inHand 8 = some (ring, ⟨0, 0, 8, [0x08040000, 0, 0, 0], 0⟩) ∧
    (s.nodes.find? (fun n => n.state == .inDoubt && n.id == pkt64 [0x08040000, 0, 0, 0] 1)).isSome = true ∧ some ring.part = s.fabric := by decide
theorem test_witness_Packet_join :
    let w : List Word := [0x09030000, 0x200, 0x10000000]
    let s := (taken w).setDevBytes 0x2000200 [1, 0, 0, 255, 0, 0, 0, 0, 64, 0, 0, 0]
    let b := s.bytesFor 0 (pkt64 w 1) 32
    ((s.startPacket 1 9).queue 1).inHand 9 = some (ring, ⟨0, 0, 9, w, 0⟩) ∧ s.group.joining = none ∧ s.inGroup = false ∧ byteAt b 2 < 12 ∧
    byteAt b 3 = 255 ∧ u16 b 6 = 0 ∧ u32 b 8 = 64 ∧ (b.drop 12).all (fun x => x == 0) = true := by decide +kernel
theorem test_witness_Packet_leave : ((taken [0x0A010000]).startPacket 1 10 |>.queue 1).inHand 10 = some (ring, ⟨0, 0, 10, [0x0A010000], 0⟩) ∧
    (taken []).group.leaving = none := by decide
theorem test_witness_Packet_pin :
    let w : List Word := [0x0B080000, 0x200, 0x10000000, 64, 0, 0, 0x10000000, 0]
    ((taken w).startPacket 1 11 |>.queue 1).inHand 11 = some (ring, ⟨0, 0, 11, w, 0⟩) ∧
    (taken w).pinCheck 0 0 (pkt64 w 1) 64 ((taken w).bytesFor 0 (pkt64 w 1) 64) = (1, []) := by decide +kernel
theorem test_witness_Packet_unpin : ((pinned (taken [0x0C020000, 4])).startPacket 1 12 |>.queue 1).inHand 12 = some (ring, ⟨0, 0, 12, [0x0C020000, 4], 0⟩) ∧
    (∀ i ∈ (pinned (taken [])).images, (1, 0) ∉ i.unpins) ∧ (∃ i ∈ (pinned (taken [])).images, i.handle = 4 ∧ i.part = 0) ∧
    (∀ i ∈ (pinned (taken [])).images, i.handle ≠ 5) := by decide
/-- The smallest image: a header, a section table of one entry, and an empty timetable. -/
def image : List Byte :=
  [0x49, 0x52, 0x53, 0x4E, 64, 0, 1, 0] ++ List.replicate 8 0 ++ [1, 0, 0, 0, 64, 0, 0, 0, 104, 0, 0, 0, 0, 0, 0, 0] ++ List.replicate 32 0 ++
  [4, 0, 0, 0, 0, 0, 0, 0, 96, 0, 0, 0, 0, 0, 0, 0, 8, 0, 0, 0, 0, 0, 0, 0] ++ List.replicate 16 0
theorem test_witness_Packet_pin_ok :
    let w : List Word := [0x0B080000, 0x200, 0x10000000, 104, 0, 0, 0x10000000, 0]
    let s := (taken w).setDevBytes 0x2000200 image
    ((s.startPacket 1 11).queue 1).inHand 11 = some (ring, ⟨0, 0, 11, w, 0⟩) ∧
    s.pinCheck 0 0 (pkt64 w 1) 104 (s.bytesFor 0 (pkt64 w 1) 104) = (0, []) := by decide +kernel

/-- A launch of `one` waits in a partition that holds core 5. -/
def launched : State :=
  let s := pinned (front [])
  { s with nodes := [{ placedNode 1 false with family := one, variant := noVariant, image := 4, queue := 1, cores := [], state := .waiting false }] }.modCore 5 (fun c =>
    { c with owner := some 0, lastOwner := some 0 })
theorem test_witness_Placement : (launched.node? 1).any (fun n => n.isWaiting && (launched.choose n).isSome) = true ∧ launched.alarm = false ∧
    (launched.queue 1).kept = none := by decide
/-- The node of core 0 in another state of its life. -/
def live (st : NodeState) : State := node1 (fun n => { n with state := st }) scl
theorem test_witness_Arm : ((live .armed).node? 1).any (fun n => ((live .armed).notReady n).isNone && n.state == .armed) = true ∧
    (let s := { live .armed with alarm := true }; (s.node? 1).any (fun n => (s.notReady n).isSome)) = true := by decide
theorem test_witness_Grant :
    let s := part0 (fun p => { p with ceiling := 2 }) State.reset
    isShep 7 = false ∧ (s.core 7).owner = none ∧ (s.core 7).node = none ∧ (s.core 7).outOfService = false ∧ s.room 0 ≠ 0 ∧
    (s.core 7).atOnce 0 = true ∧ ((s.modCore 7 (fun c => { c with lastOwner := some 3 })).core 7).atOnce 0 = false := by decide
theorem test_witness_BorderMove :
    ((State.reset.modCore 31 (fun c => { c with moving := true })).core 31).moving = true ∧ (31 : UnitId).val < 32 := by decide
theorem test_witness_Budget :
    let s := (live .running).modQueue 0 (fun q => { q with cfg := some ring })
    (s.node? 1).any (fun n => n.state == .running && (s.queue n.queue).cfg == some ring && n.attempt == 0 && !n.family.nonidem && !n.family.group) = true ∧
    (group.node? 1).any (fun n => n.state == .running && n.family.group) = true ∧ ring.drover = 0 ∧ (1 : Nat) ≠ 0 := by decide
theorem test_witness_ImageRelease :
    let s : State := { State.reset with images := [⟨4, [], 0, [], [], true, []⟩] }
    (∀ k ∈ s.images, k.handle = 4 → k = ⟨4, [], 0, [], [], true, []⟩) ∧ (∀ n ∈ s.nodes, n.image ≠ 4) := by decide

theorem test_witness_NodeEnd : ((live .ending).node? 1).any (fun n => (live .ending).quiet n && !n.strict && !n.family.group) = true ∧
    (let s := here (fun c => { c with copies := [⟨4, 0, 0, 0, 1, 0, 0, .move, [], [], [], 0, 0, 1⟩] }) (live .ending)
     (s.node? 1).any (fun n => !s.quiet n)) = true := by decide
theorem test_witness_NodeEnd_strict :
    let s := here (fun c => { c with flags := 0x40 }) (node1 (fun n => { n with strict := true }) (live .ending))
    (s.node? 1).any (fun n => s.quiet n && n.strict && !n.family.tolerant && (s.nodeFlags n).getLsbD 6) = true := by decide
theorem test_witness_NodeEnd_group :
    let s := node1 (fun n => { n with state := .ending, coord := 1 }) group
    (s.node? 1).any (fun n => s.quiet n && n.family.group && n.coord != n.rank) = true := by decide
theorem test_witness_Commit : ((live .committing).node? 1).any (fun n => n.staged.isEmpty && n.cores == [0]) = true ∧
    ((live .committing).core 0).quarantined = false ∧ ((live .committing).core 0).node = some 1 := by decide
theorem test_witness_Vote :
    let s := node1 (fun n => { n with state := .voted }) group
    (s.node? 1).any (fun n => n.coord == n.rank && n.family.group && n.state == .voted) = true := by decide
theorem test_witness_Muster : State.reset.nextMuster = some 0 ∧ (State.reset.core 0).node = none ∧ (State.reset.core 0).moving = false ∧
    (State.reset.core 0).withdrawn = false ∧ (∀ k, k < 32 → (State.reset.core (unitOf k)).muster = false) ∧
    (∀ n ∈ scl.nodes, n.state ≠ .committed) := by decide
theorem test_witness_Shepherds : (shep.core 32).node ≠ none ∧ (State.reset.core 32).node = none ∧ (State.reset.core 33).outOfService = false ∧
    unitOf (32 + 2 * 0 + 1) = 33 ∧ State.reset.active.get 0 = false := by decide
theorem test_witness_Reinstate :
    let s := State.reset.modCore 31 (fun c => { c with quarantined := true, passes := 3 })
    (s.core 31).quarantined = true ∧ 3 ≤ (s.core 31).passes ∧ (State.reset.core 31).passes < 3 := by decide

theorem test_witness_Halt : (halting.node? 1).any (fun n => n.state == .running && halting.canHalt n) = true ∧
    (scl.node? 1).any (fun n => n.state == .running && !scl.canHalt n) = true ∧
    ((live .halted).node? 1).any (fun n => n.stepping.isNone && n.saved.isEmpty && (live .halted).drained n) = true ∧
    (let s := inFlight true (live .halted); (s.node? 1).any (fun n => !s.drained n)) = true := by decide
/-- The node is halted and saved, its core given back; its SCL in aligned mode or not. -/
def halted (al : Bool) : State := (node1 (fun n => { n with state := .halted, halt := some 0, saved := [(0, { (scl.core 0) with scl := { (scl.core 0).scl with aligned := al } })] })
  scl).modCore 0 (fun c => { c with node := none })
theorem test_witness_Resume : ((halted false).node? 1).any (fun n => !n.saved.isEmpty && n.stepping.isNone && (halted false).coresFree n &&
      decide (n.saved.map (·.1)).Nodup) = true ∧ (halted false).alarm = false ∧
    (let s := (halted false).modCore 0 (fun c => { c with muster := true }); (s.node? 1).any (fun n => !s.coresFree n)) = true := by decide
theorem test_witness_Step : ((halted false).nodes.find? (fun n => n.state == .halted && n.stepping.isNone && n.saved.any (fun c => c.1 == 0))).isSome = true ∧
    ((halted false).node? 1).any (fun n => (n.saved.find? (fun c => c.1 == 0)).any (fun c => !(c.2.seq .scl).aligned && (c.2.seq .scl).entry && !(c.2.seq .scl).ended)) = true ∧
    ((halted true).node? 1).any (fun n => (n.saved.find? (fun c => c.1 == 0)).any (fun c => (c.2.seq .scl).aligned)) = true := by decide
theorem test_witness_HoldRelease : ((live (.waiting true)).node? 1).any (fun n => n.state == .waiting true) = true := by decide

theorem test_witness_PowerOn : State.reset.ready = false ∧ State.reset.errV = false ∧ State.reset.stage ≠ 4 ∧ State.reset.stage ≠ 5 ∧ (front []).ready = true ∧
    ({ State.reset with stage := 4 } : State).stage = 4 ∧ ({ State.reset with stage := 5 } : State).errV = false := by decide
theorem test_witness_Hub : (1023 : Nat) < 1024 ∧ (1024 : Nat) ≤ 1024 ∧ scl.drone < scl.alarmAt + 10000000 ∧ (∃ n ∈ scl.nodes, n.state = .running) := by decide
theorem test_witness_AlarmClear :
    let s : State := { scl with alarm := true, drone := 10000000 }
    s.alarm = true ∧ s.alarmAt + 10000000 ≤ s.drone ∧ (∀ n ∈ s.nodes, n.state ≠ .committing) ∧
    (∃ n ∈ (live .committing).nodes, n.state = .committing) := by decide
theorem test_witness_Firmware : State.reset.minVersion ≤ 0 ∧ dieOf 31 = (3 : Fin 4).val ∧ (State.reset.core 31).node = none ∧
    (State.reset.core 31).muster = false ∧ (15 : Nat) < 16 ∧ State.reset.retraining = false ∧ 2000000 ≤ 8 * State.reset.pitch * 1000 ∧
    (List.replicate 8 ([] : List Byte)).length ≤ 8 ∧ 8 < (List.replicate 9 ([] : List Byte)).length := by decide

theorem test_witness_Partition : 1 ≤ 31 ∧ 31 ≤ 31 ∧
    ((List.finRange 16).filter (fun k => k != 2)).foldl (fun m k => m + (State.reset.part k).target) 3100 ≤ 3100 ∧ (3100 : Nat) < 3101 ∧
    State.reset.fabric = none ∧ State.reset.usesFabric 2 = false ∧ shep.usesFabric 0 = true := by decide
theorem test_witness_Mapping :
    let s := node1 (fun n => { n with staged := [⟨0, 2 ^ 25, 0x4000000, 0x2000⟩] }) scl
    (∃ n ∈ s.nodes, ∃ g ∈ n.staged, g.leaf = 0x2000) ∧ (∀ n ∈ scl.nodes, ∀ g ∈ n.staged, g.leaf ≠ 0x2000) := by decide
theorem test_witness_Snapshot :
    let k : Snapshot := ⟨9, 0, 0, 2 ^ 25, [(0, 0xE200000002000000)]⟩
    let s := part0 (fun p => { p with snapshots := [k] }) (tables scl)
    (s.part 0).snapshots.find? (fun k => k.id == 9) = some k ∧ (s.part 0).snapshots.find? (fun k => k.id == 8) = none ∧ pteV 0xE200000002000000 = true ∧
    (s.slotFor 0 0 0 (pteG 0xE200000002000000)).map (·.2) = some 0x2000 ∧ (s.mapLeaves 0 0 k).isSome = true ∧ s.slot2 0 0 = some 0x2000 ∧ s.stagedLeaf 0x2000 = false := by decide
theorem test_witness_Taint :
    let g : PreImage := ⟨0x2000, 0, 0xE200000004000000, 0xE200000002000000, 2 ^ 25⟩
    let s := node1 (fun n => { n with state := .tainted, pre := [g] }) (tables scl)
    (s.node? 1).any (fun n => n.state == .tainted && n.pre == [g]) = true ∧ pteAddr (s.entryAt g.leaf) = pteAddr g.new ∧
    pteAddr (scl.entryAt g.leaf) ≠ pteAddr g.new := by decide

theorem test_witness_RegistersLand : (31 : XReg) ≠ 0 ∧ (7 : PReg) ≠ 0 ∧ (38 : Nat) < 39 ∧
    (let e : Eff := { at_ := 0, iss := 0, by_ := scl.cur, pc := 0, node := 1, sq := false, commit := 0, fixed := true, op := .load [] [0, 0x80] (.x 3 true) 0 0 }
     e.op = .load [] [0, 0x80] (.x 3 true) 0 0 ∧ 2 ^ (8 * 2 - 1) ≤ leNat [0, 0x80] ∧ ¬ 2 ^ (8 * 2 - 1) ≤ leNat [0xFF, 0x7F]) := by decide
theorem test_witness_StoresLand : State.reset.canonical := reset_memories
theorem test_witness_StoresLand_forms : State.reset.badBytes (span 0x1FFFFFF8 (wideBytes true)) = none ∧
    ((openRx.core 32).descs.get 3).serial = 7 ∧ openRx.cyc ≤ ((openRx.core 32).descs.get 3).close ∧
    ((openRx.core 32).descs.get 3).close < ({ openRx with cyc := 91 } : State).cyc := by decide
theorem test_witness_IssueFrame : (Instr.addi h0 3 4 5).wf .scl false = true ∧ (match exec (.addi h0 3 4 5) scl with | .next _ => true | _ => false) = true := by decide
theorem test_witness_InvariantKept : State.reset.canonical ∧ State.reset.hubAgrees ∧ ∃ t, step State.reset = .next t :=
  ⟨reset_memories, ⟨by decide, by decide, by decide, by decide⟩, _, rfl⟩
/-- The node of the SCL is to stop at the end of this cycle. -/
def stopping (code : Code) (rank : Nat) : State := { scl with
  causes := [⟨1, rank, 0, some (.scl, 0), { code := code }⟩], phase := .close
  before := some ⟨scl.cores, scl.nodes, scl.agenda, scl.effs, scl.outbox.length⟩ }
theorem test_witness_Stop : (stopping .alignment 3).phase = .close ∧ (stopping .alignment 3).nodes.length = 1 ∧ (stopping .alignment 3).before.any (fun b => (b.nodes.find? (fun k => k.nd == 1)).any (fun n => n.nd == 1 && n.state == .running && n.cores == [0]) && ((b.cores.get 0).node == some 1)) = true ∧
    (firstCause ((stopping .alignment 3).causes.filter (fun c => c.node == 1))).any (fun c => c.rank == 3 && c.r.code == .alignment) = true ∧
    ((stopping .alignment 3).node? 1).any (fun n => n.state == .running && !n.family.group && !n.family.nonidem && decide (n.tries < 15)) = true := by decide
theorem test_witness_Stop_requeued : (firstCause ((stopping .translation 4).causes.filter (fun c => c.node == 1))).any (fun c => c.rank == 4 && c.r.code == .translation) = true ∧
    ((stopping .translation 4).core 0).node = some 1 := by decide

/-! ### Clauses at their boundary values -/

theorem test_witness_Packet_held :
    let p := (arriving 0x4000 true 0).pkt
    (p.exact && (group.linkHeld 0 || (group.needsBuffer p && !group.bufferFree 32))) = false ∧ group.needsBuffer p = true ∧ group.bufferFree 32 = true ∧
    ((arriving 0x4000 false 0).pkt.exact && group.linkHeld 0) = false := by decide
/-- All 256 buffers of shepherd 32 are taken. -/
def crowded : State := group.modCore 32 (fun c => { c with exbuf := List.replicate 256 ⟨4, arriving 0x4000 true 0, true⟩ })
theorem test_witness_Packet_no_buffer : crowded.needsBuffer (arriving 0x4000 true 0).pkt = true ∧ crowded.bufferFree 32 = false := by
  have h : (crowded.core 32).exbuf = List.replicate 256 ⟨4, arriving 0x4000 true 0, true⟩ := rfl
  have k : ∀ (n : Nat) (x : Held), x.admitted = true → ((List.replicate n x).filter (·.admitted)).length = n := by
    intro n x hx; simp [hx]
  refine ⟨by decide, ?_⟩
  unfold State.bufferFree
  rw [h, k 256 _ rfl]; rfl
theorem test_witness_Link_training : (scl.port 0).trained = false ∧ (∀ r ∈ (scl.port 0).guards, ¬ (r.1 ≤ scl.cyc ∧ scl.cyc ≤ r.2)) ∧
    ((scl.modPort 0 (fun q => { q with trained := true })).port 0).trained = true := by decide
theorem test_witness_Clock_lost : scl.n65 ≤ 65 * scl.cyc ∧ (65 * ({ scl with n65 := 1 } : State).cyc < ({ scl with n65 := 1 } : State).n65) := by decide
/-- A package whose GJOIN is in progress. -/
def joiner : State := { scl with group := { scl.group with joining := some (1, 0) } }
theorem test_witness_Notice_joiner : joiner.group.member = false ∧ joiner.group.joining ≠ none ∧ (0, 9) ∉ joiner.group.seen ∧
    scl.group.member = false ∧ scl.group.joining = none ∧ (∀ j, (lower 300 9).kind ≠ .ask j) := by
  refine ⟨by decide, by decide, by decide, by decide, by decide, nofun⟩
theorem test_witness_Notice_forecasts :
    let p := codeThrough scl.group.notices scl.pitch scl.drone 250000
    let f := codeThrough [lower 300 9] 400 0 250000
    p = 250 ∧ p ≤ min 1000 (64 * 254 / 65) ∧ min 1000 (64 * 253 / 65) < p ∧ min 1000 (64 * 253 / 65) < 250 ∧ f = 300 ∧
    min 1000 (64 * 300 / 65) < f ∧ 250 ≤ min 1000 (64 * 300 / 65) := by decide
theorem test_witness_Notice_removed :
    let s : State := { member with group := { member.group with faults := [⟨[0], 7, 0, 9⟩] } }
    s.group.faults ≠ [] ∧ (∀ f ∈ s.group.faults, s.group.rank ∉ f.ranks) ∧ member.group.faults = [] := by decide

theorem test_witness_Queue_reset :
    let s := launched.modQueue 1 (fun q => { q with state := .stopped })
    s.ready = true ∧ (s.queue 1).state = .stopped ∧ (∃ n ∈ s.nodes, n.queue = 1 ∧ n.state = .waiting false) ∧ (s.queue 1).cfg ≠ none ∧
    (launched.queue 1).state ≠ .stopped ∧ (launched.queue 1).state ≠ .overrun := by decide
theorem test_witness_PacketStart_may :
    let s := front [0x00018000]
    ((s.queue 1).ctail - (s.queue 1).chead).toNat + 8 ≤ ring.cringRecs ∧ (s.queue 1).out = false ∧ (s.queue 1).state = .run ∧
    ((s.startPacket 1 0).queue 1).started.isSome = true := by decide +kernel
theorem test_witness_PacketStart_reserved :
    let s := front [0x0D010000]
    (s.queue 1).cfg = some ring ∧ (s.queue 1).started = none ∧ (s.queue 1).out = false ∧ (s.queue 1).state = .run ∧ (s.queue 1).heldBack = false ∧
    (s.queue 1).tail ≠ (s.queue 1).head ∧ s.headNode 1 = none ∧ ((s.queue 1).ctail - (s.queue 1).chead).toNat + 8 ≤ ring.cringRecs ∧
    s.ringWord ring (s.queue 1).head = 0x0D010000 ∧ headerOk 0x0D010000 = false ∧ launched.headNode 1 ≠ none := by decide +kernel
theorem test_witness_Packet_commits :
    let s : State := { taken [] with nodes := [{ placedNode 1 false with state := .committing }] }
    (taken []).committingIn 0 = false ∧ s.committingIn 0 = true ∧ (taken []).headNode 1 = none ∧ ((taken []).queue 1).halted = false ∧
    ((taken []).part 0).snapshots.length < 256 ∧ (taken []).group.member = false := by decide
theorem test_witness_Packet_decides : pkt32 [0x08040000, 0, 0, 1] 3 = 1 ∧ pkt32 [0x08040000, 0, 0, 0] 3 ≠ 1 ∧
    (∀ n ∈ [{ placedNode 1 false with state := .inDoubt }], n.voteOf ≠ some ((1 : QueueId), 0)) := by decide
theorem test_witness_Packet_commits_at :
    let s : State := { taken [0x08040000, 0, 0, 1] with nodes := [{ placedNode 1 false with state := .inDoubt }] }
    ((s.startPacket 1 8).queue 1).inHand 8 = some (ring, ⟨0, 0, 8, [0x08040000, 0, 0, 1], 0⟩) ∧ some ring.part = s.fabric := by decide

theorem test_witness_Placement_head : (launched.headNode 1).map (·.nd) = some 1 ∧ (launched.queue 1).halted = false ∧ launched.committingIn 0 = false ∧
    (launched.node? 1).any (fun n => decide (n.pasid ∉ launched.lost) && (launched.choose n).isSome) = true := by decide
theorem test_witness_Arm_units :
    (live .armed).node? 1 ≠ none ∧ ((live .armed).node? 1).all (fun n => decide ((n.cores ++ n.sheps.map (·.2)).Nodup)) = true ∧
    ((live .running).node? 1).any (fun n => ((live .running).notReady n).isNone) = true ∧
    (let s := node1 (fun n => { n with alarmed := true }) (live .running); (s.node? 1).any (fun n => (s.notReady n).isSome) && !(s.queue 0).halted) = true := by
  decide
theorem test_witness_Preempt : ((live .committed).node? 1).any (fun n => !n.live) = true ∧
    ((live .running).node? 1).any (fun n => n.live && !n.family.nonidem && !n.family.group) = true ∧
    (group.node? 1).any (fun n => n.live && n.family.group) = true := by decide

/-- A node in its commit with two staged pages. -/
def committing2 : State := node1 (fun n => { n with staged := [⟨2 ^ 25, 2 ^ 25, 0x6000000, 0x2008⟩, ⟨0, 2 ^ 25, 0x4000000, 0x2000⟩] }) (live .committing)
theorem test_witness_Commit_pages : committing2.armedIn 0 = false ∧
    (committing2.node? 1).any (fun n => sortBy (fun g : Staged => g.va) n.staged == [⟨0, 2 ^ 25, 0x4000000, 0x2000⟩, ⟨2 ^ 25, 2 ^ 25, 0x6000000, 0x2008⟩]) = true := by decide
theorem test_witness_Commit_last : (live .committing).armedIn 0 = false ∧ (live .armed).armedIn 0 = true ∧
    ((live .committing).node? 1).any (fun n => n.staged.isEmpty && n.voteOf.isNone && n.taint.isNone && n.cores == [0] && n.sheps.isEmpty) = true := by decide
theorem test_witness_NodeEnd_armed :
    let s := { live .ending with nodes := (live .ending).nodes ++ [{ placedNode 2 false with state := .armed }] }
    s.armedIn 0 = true ∧ (live .ending).armedIn 0 = false ∧ (s.node? 1).any (fun n => s.quiet n && !n.family.group) = true := by decide
theorem test_witness_Abort : ((live .armed).node? 1).any (fun n => n.state == .armed) = true ∧
    ((live (.waiting false)).node? 1).any (fun n => n.isWaiting) = true := by decide
theorem test_witness_Muster_wanted : scl.nextMuster = some 0 ∧ (scl.core 0).node ≠ none ∧ (shep.core 32).node ≠ none ∧
    unitOf (32 + 2 * 0 + 0) = 32 ∧ shep.active.get 0 = false := by decide

def ownCore (s : State) : State := s.modCore 0 (fun c => { c with owner := some 0, lastOwner := some 0 })
theorem test_witness_Resume_edited :
    let n := ((halted false).node? 1).getD (placedNode 1 false)
    let k := [DebugEdit.pc ⟨0, .scl⟩ 64].foldl Node.edit n
    n.state = .halted ∧ n.saved ≠ [] ∧ n.stepping = none ∧ n.pendingStep = none ∧ (ownCore (halted false)).coresReady k = true ∧ (k.saved.map (·.1)).Nodup ∧
    ((halted false).modCore 0 (fun c => { c with muster := true })).coresReady k = false := by decide
theorem test_witness_Step_waits :
    let s := (halted false).modCore 0 (fun c => { c with muster := true })
    (s.node? 1).any (fun n => !s.coresReady n && n.pendingStep.isNone && (n.saved.find? (fun c => c.1 == 0)).isSome) = true := by decide
theorem test_witness_Hub_alarm : (live .armed).nodes.any (fun n => n.state == .armed) = true ∧
    (live .running).nodes.any (fun n => n.state == .running && !n.begun (live .running).cyc) = true ∧
    (node1 (fun n => { n with variant := ⟨1, 0, [⟨0, .scl, 0, 0⟩], [0]⟩ }) scl).nodes.any (fun n => n.state == .running && n.begun scl.cyc) = true := by decide

theorem test_witness_Partition_fabric : State.reset.fabricFree (some 2) = true ∧ shep.fabricFree (some 2) = false ∧
    (some (2 : PartId)) ≠ shep.fabric ∧ (∀ m, (some 200 : Option Nat) = some m → 200 ≤ m ∧ m ≤ 10000) ∧ (199 < 200 ∧ 10000 < 10001) ∧
    (if false then some (0 : PartId) else if shep.fabric = some 0 then none else shep.fabric) ≠ shep.fabric := by
  refine ⟨by decide, by decide, by decide, fun m h => ?_, by decide, by decide⟩
  cases h; decide
theorem test_witness_Mapping_root : (0x800 : Nat) % 2 ^ 12 ≠ 0 ∧ (0x1000 : Nat) % 2 ^ 12 = 0 ∧ (∀ n ∈ scl.nodes, n.staged = []) := by decide
theorem test_witness_TagsLand :
    let s := scl.modCore 0 (fun c => { c with tags := 7, tagsAt := 0, tagsSet := 4 })
    (s.core 0).tagsAt = s.cyc ∧ ((4 : BitVec 64) &&& ~~~(s.core 0).tagsSet) = 0 := by decide
theorem test_witness_IssueFrame_copy :
    let s := here (fun c => { c with tags := 4, tagsAt := 0, tagsSet := 4 }) (regs [(1, 0x1000), (3, 64)] ldq)
    (Instr.cpy h0 1 2 3 2 0 0 0).wf .ld false = true ∧
    (match exec (.cpy h0 1 2 3 2 0 0 0) s with | .next t => t.here.tags | _ => 9) = 0 := by decide
theorem test_witness_Stop_open : ((stopping .alignment 3).queue 0).halted = false ∧
    ((stopping .tainted 3).node? 1).any (fun n => decide (n.tries < 15) && !n.family.nonidem) = true := by decide
theorem test_witness_HubEvents_guard :
    let s : State := { State.reset with regionGuards := [(2, ⟨0x1000, 0x1FFF, true, false, false⟩)] }
    s.guardAllows 2 0x1FFF .rd = true ∧ s.guardAllows 2 0x2000 .rd = false ∧ s.guardAllows 2 0x1800 .wr = false ∧
    s.guardAllows 3 0x1800 .rd = false := by decide
theorem test_alarm_loses_versions :
    let s := scl.modNode 1 (fun n => { n with state := .voted, staged := [⟨0, 2 ^ 16, 0x10000, 0x2000⟩] })
    let s := { s with eraseMask := [0], keys := [0, 1], roots := [(1, 0x1000)] }
    (match exec (.securityAlarm ⟨.tamper, false⟩) s with
      | .next t => (t.keys, t.lost, t.roots.length, t.causes.map (·.unit), t.nodes.map (·.staged.length))
      | _ => ([], [], 9, [], [])) = ([1], [1], 0, [0x78], [0]) := by decide

/-! ### The values that land, the bytes that copies move, and the close of a cycle -/

theorem test_witness_Packet_awaits :
    let s : State := { taken (sem 3) with retrain := [(0, 9)] }
    s.awaits (pkt64 (sem 3) 1) = true ∧ s.retraining = true ∧ (taken []).retraining = false ∧ (taken []).awaits 0x1000000000000000 = false := by decide
theorem test_witness_Placement_erased : launched.erased = [] ∧ launched.lost = [] ∧ 0 ∉ launched.erased ∧
    0 ∈ ({ launched with erased := [0] } : State).erased ∧ ({ launched with lost := [3] } : State).lost ≠ [] := by decide
theorem test_witness_Halt_quiet : ((node1 (fun n => { n with quiet := true }) (live .halted)).node? 1).any (fun n => n.quiet && n.saved.isEmpty &&
      n.stepping.isNone && n.pendingStep.isNone && (node1 (fun n => { n with quiet := true }) (live .halted)).drained n) = true ∧
    ((live .halted).node? 1).any (fun n => !n.quiet) = true := by decide
theorem test_witness_Hub_requests : 3 < ({ scl with stage := 4 } : State).stage ∧ scl.errV = false ∧ FwLevel.monitor = .monitor ∧ [(⟨0, 0xFFF, true, true, false⟩ : RegionGuard)].length ≤ 16 ∧
    heldBy (.alarmClear) = some .monitor ∧ levelHeight .plugin < levelHeight .monitor ∧ levelHeight .monitor ≤ levelHeight .monitor := by decide
theorem test_witness_Hub_steps : (∀ k ∈ [1, 2, 3, 4, 5], ({ State.reset with stage := k } : State).ready = false ∧ ({ State.reset with stage := k } : State).errV = false) ∧
    ({ scl with errV := true } : State).errV = true := by decide
theorem test_witness_Hub_alarm_source :
    let s : State := { scl with alarm := true, outOfRange := [.tamper], drone := 10000000 }
    s.outOfRange ≠ [] ∧ ({ s with outOfRange := [] } : State).alarmAt + 10000000 ≤ ({ s with outOfRange := [] } : State).drone := by decide
theorem test_witness_Hub_update : State.reset.fabric = none ∧ (∀ u, dieOf u ≠ 3 → (State.reset.core u).withdrawn = false) ∧
    (∀ u, dieOf u = 3 → (State.reset.core u).node = none ∧ (State.reset.core u).muster = false ∧ (State.reset.core u).moving = false) ∧
    inside [(0, 511)] 0 = true ∧ inside (State.reset.port 0).guards 0 = false ∧ (40 : Nat) ≠ (State.reset.port 0).reach := by decide
theorem test_witness_Hub_key : ({ State.reset with keyBlobs := [(7, [1])] } : State).keyOf 7 = [1] ∧ State.reset.keyOf 0 ≠ [1] ∧ State.reset.keyOf 0 = [] ∧ (1023 : Nat) < 1024 := by decide
theorem test_witness_Hub_attestation : ({ State.reset with stage := 4, spdm := Vector.replicate 2 3 } : State).spdm.get 1 = 3 ∧
    State.reset.spdm.get 1 < 3 ∧ State.reset.stage ≤ 3 := by decide
theorem test_witness_Mapping_keys : 0 ∈ State.reset.keys ∧ 0 ∉ ({ State.reset with keys := [1] } : State).keys ∧
    (∀ n ∈ (tables scl).nodes, n.staged = []) := by decide
theorem test_witness_Snapshot_context : ∃ c, ((front []).queue 1).cfg = some c ∧ c.part = 0 ∧ c.pasid = 0 := ⟨ring, by decide, by decide, by decide⟩
/-- No queue is set up after reset. -/
theorem test_reset_no_queue (q : QueueId) : (State.reset.queue q).cfg = none := by
  have h : State.reset.queue q = (Vector.replicate 256 ({} : Queue)).get q := rfl
  rw [h, Vector.get_replicate]
theorem test_witness_Snapshot_other : ∀ q c, (State.reset.queue q).cfg = some c → ¬ (c.part = 0 ∧ c.pasid = 0) := by
  intro q c h; rw [test_reset_no_queue] at h; nomatch h
theorem test_witness_Taint_unmapped : pteV (scl.entryAt 0x2000) = false ∧ pteV ((tables scl).entryAt 0x2000) = true := by decide +kernel

/-- An operation of the SCL that lands. -/
def landing (op : EffOp) : Eff := { at_ := 0, iss := 0, by_ := scl.cur, pc := 0, node := 1, sq := false, commit := 0, fixed := true, op := op }
theorem test_witness_LoadsLand : (landing (.load [0, 1] [] (.tile 38) 8 0)).op = .load [0, 1] [] (.tile 38) 8 0 ∧ scl.badBytes ([0, 1].take 1024) = none ∧
    (38 : Nat) < 39 ∧ (landing (.load [] (List.replicate 8 1) (.lanes 38) 8 0)).op = .load [] (List.replicate 8 1) (.lanes 38) 8 0 ∧
    4 * 1 + 4 ≤ (List.replicate 8 (1 : Byte)).length := by decide
theorem test_witness_LoadsLand_beats : 1024 < (List.replicate 1025 (0 : Nat)).length ∧ (landing (.load [5] [] (.ring 9) 8 0)).op = .load [5] [] (.ring 9) 8 0 := by
  refine ⟨?_, rfl⟩
  rw [List.length_replicate]; decide
/-- Descriptor 3 of shepherd 32 counts EXACT blocks. -/
def exactRx : State := openRx.modCore 32 (fun c => { c with descs := c.descs.set 3 { c.descs.get 3 with ex := true } })
theorem test_witness_LoadsLand_exact :
    let d := (exactRx.core 32).descs.get 3
    d.state = .open_ ∧ d.ex = true ∧ offOf d.base ≤ 0x1100 ∧ 0x1100 < offOf d.base + 256 * d.e ∧ ((openRx.core 32).descs.get 3).ex = false := by decide
/-- A packet in transit carries one block of ones. -/
def carried : Packet := { (arriving 0x6018 false 0).pkt with blocks := [⟨List.replicate 256 1, true⟩] }
theorem test_witness_LoadsLand_combine :
    let s : State := { openRx with transit := [(4, carried)] }
    s.transit.find? (fun x => x.1 == 4) = some (4, carried) ∧ carried.blocks[0]? = some ⟨List.replicate 256 1, true⟩ ∧ s.spadBad 0x1000 256 = false ∧
    (List.replicate 256 (1 : Byte)).length = 256 ∧ ((s.core 32).descs.get 3).serial = 7 ∧ 0 < carried.counts.getD 0 0 := by
  refine ⟨rfl, rfl, by decide +kernel, List.length_replicate, by decide, by decide⟩

theorem test_witness_AccumulatorsLand : ((scl.core 0).accs.get 3).cells.length = 24576 ∧ ([((24575 : Nat), (1 : Word))].map (·.1)).Nodup := by
  refine ⟨?_, by decide⟩
  have h : ((scl.core 0).accs.get 3).cells = List.replicate 24576 0 := rfl
  rw [h, List.length_replicate]
theorem test_witness_AccumulatorsLand_replaced :
    (fMXERR &&& fMXERR = fMXERR) ∧ (landing (.matrix 0 9 2 3 3 15 0 true false 0 0 [] [])).op = .matrix 0 9 2 3 3 15 0 true false 0 0 [] [] := ⟨by decide, rfl⟩

/-- Copy 4 of core 0 moves two bytes from 0x40 to 0x80; it has read the first. -/
def mover (kind : CopyKind) : State :=
  here (fun c => { c with copies := [⟨4, 0, 2, 1, 1, 0, 0, kind, [⟨some 0x40, 0x80, 2⟩], [], [(0x40, 7)], 1, 1, 1⟩] }) scl
theorem test_witness_Copies_read : ((mover .move).node? 1).isSome = true ∧ ((mover .move).core 0).copies.length = 1 ∧ (mover .move).lineWaits 0 0x40 false = false ∧
    spadAt 0 (0x40 : Dword) = some 0x40 ∧ (mover .move).spadBad 0x40 1 = false ∧ spadAt 0 (0x1000000000000000 : Dword) = none ∧
    (mover .move).lineWaits 0 0x1000000000000000 false = false ∧
    ({ mover .move with retrain := [(0, 9)] } : State).lineWaits 0 0x1000000000000000 false = true := by decide
theorem test_witness_Copies_bad :
    let s : State := { mover .move with badSpad := [0x40] }
    (s.node? 1).any (fun n => match s.copyBytes 0 n [0x40] with | .bad c _ => c == .uncorrectable | _ => false) = true := by decide
theorem test_witness_Copies_write : ((mover .move).core 0).copies.head?.any (fun k => k.value 0x80 (some 0x40) 0 == some 7 && k.value 0x81 (some 0x41) 0 == none &&
      decide (k.unwritten ≤ 1) && k.buf.find? (fun x => x.1 == (0x40 : Dword).toNat) == some (0x40, 7)) = true ∧
    ((mover (.fill 5)).core 0).copies.head?.any (fun k => k.value 0x80 none 5 == some 5) = true ∧
    (mover .move).lineWaits 0 0x80 false = false ∧ ([(0x80 : Nat)]).Nodup := by decide

theorem test_witness_Clock_ticks : 0 < scl.pitch ∧ ({ scl with phase := .close } : State).phase = .close ∧ scl.causes = [] ∧
    (∀ n ∈ scl.nodes, n.state ≠ .halted) ∧ (∀ q, (scl.queue q).cfg = none) := by
  refine ⟨by decide, rfl, by decide, by decide, test_reset_no_queue⟩

/-! ### Waiting forms in a shadow, faults held, rendezvous of the group, and units in use -/

theorem test_witness_Gate_shadow_waiting : shadow.unresolved.isSome = true ∧ shadow.me.aligned = false ∧ h1.sq = true ∧
    (inFlight true shadow).pending (.x shadow.cur 2) = true ∧ (∀ d ∈ [Dest.x shadow.cur 3, .x shadow.cur 4], shadow.pending d = false) := by decide
theorem test_witness_Raise_held : scl.unresolved = none ∧ shadow.unresolved = some 2 ∧ h1.sq = true ∧ h0.sq = false ∧
    (landing (.fault { code := .check })).op = .fault { code := .check } := by decide
theorem test_witness_LoopEnd_held : (looping 4).held = false ∧ ({} : Seq).held = false := by decide

/-- A group node of two ranks, this package the first, whose one member has arrived at the first rendezvous and the first fold of level 3. -/
def meeting (announced : List (Bool × Nat × Nat × Dword)) : State := node1 (fun n => { n with
  family := { n.family with group := true }, size := 2, rank := 0, announced := announced
  arrived := [⟨folded.cur, false, 3, 0, 7, 50000, 0, 100⟩, ⟨folded.cur, true, 3, 0, 0, 0, 0, 0⟩] }) folded
theorem test_witness_Align_checks : (scl.node? 1).any (fun n => !scl.isMember n scl.cur 1) = true ∧ (folded.node? 1).any (fun n => folded.isMember n folded.cur 3 &&
      (n.arrived.find? (fun a => !a.bar && a.lvl == 3 && a.k == 0)).isNone) = true ∧ folded.drone + 50000 ≤ (50000 : Dword).toNat ∧
    ¬ folded.drone + 50000 ≤ (49999 : Dword).toNat ∧
    ((meeting []).node? 1).any (fun n => (n.arrived.find? (fun a => !a.bar && a.lvl == 3 && a.k == 0 &&
      ((meeting []).members n folded.cur.unit 3).contains a.who)) == some ⟨folded.cur, false, 3, 0, 7, 50000, 0, 100⟩) = true ∧ (7 : BitVec 8) ≠ 8 ∧
    (50001 : Dword) ≠ 50000 := by decide
theorem test_witness_AlignRelease_group :
    let s := meeting [(false, 1, 0, 50000)]
    (s.core 0).node = some 1 ∧ (s.node? 1).any (fun n => (n.arrival s.cur false 3 0).isSome && s.foldFull n 0 false 3 0 && n.announcedAll false 0 50000 &&
      s.members n 0 3 == [s.cur]) = true ∧ s.n65 / 65 - s.cyc ≤ 64 ∧ (∀ p : PortId, (s.port p).up = false) ∧ [s.cur].Nodup := by decide
theorem test_witness_AlignRelease_fails :
    let s := meeting []
    (s.node? 1).any (fun n => n.size == 2 && n.rank == 0 && n.announced.isEmpty && (n.arrival s.cur false 3 0).isSome) = true ∧
    64 < ({ s with n65 := 65 * 65 } : State).n65 / 65 - s.cyc ∧
    (∃ p : PortId, ((s.modPort 0 (fun q => { q with up := true, fill := 95 })).port p).up = true ∧
      ((s.modPort 0 (fun q => { q with up := true, fill := 95 })).port p).fill < 96) ∧
    ((node1 (fun n => { n with announced := [(false, 1, 0, 50001)] }) s).node? 1).any (fun n => !n.announcedAll false 0 50000) = true := by
  refine ⟨by decide, by decide, ⟨0, by decide, by decide⟩, by decide⟩
theorem test_witness_Bar_last :
    let s := meeting [(true, 1, 0, 0)]
    (s.node? 1).any (fun n => s.foldFull n 0 true 3 0 && n.announcedAll true 0 0) = true ∧ s.errV = false ∧
    (meeting []).announcedNode = (meeting []).node? 1 ∧ ((meeting []).node? 1).any (fun n =>
      ({ n with announced := n.announced ++ [(true, 1, 0, 0)] } : Node).announcedAll true 0 0 &&
      (n.arrived.find? (fun a => a.bar == true && a.lvl == 3 && a.k == 0)).isSome) = true := by decide
theorem test_witness_Bar_last_core : (node1 (fun n => { n with arrived := [⟨scl.cur, true, 0, 0, 0, 0, 0, 0⟩] }) scl |>.node? 1).any
    (fun n => (node1 (fun n => { n with arrived := [⟨scl.cur, true, 0, 0, 0, 0, 0, 0⟩] }) scl).foldFull n 0 true 0 0) = true := by decide
theorem test_witness_Branch_kills :
    let s := me (fun v => { v with branches := [⟨9, 2, true, 64, false⟩, ⟨10, 4, true, 64, true⟩] }) scl
    (s.core 0).scl.branches.any (fun b => b.id != 9 && b.sq) = true := by decide

/-- Every unit of the core is in use until cycle 3, two entries stand in the scale queue, one of them on its way, a push is on its way. -/
def inUse (al : Bool) (q : SeqName) : State :=
  let s := here (fun c => { c with scalar := 3, lineRead := 3, lineWrite := 3, banked := 3, pipeA := 3, pipeB := 3, sfu := 3, engine := 3
                                   sq := [⟨1, some []⟩, ⟨2, none⟩] }) (on q)
  { me (fun v => { v with aligned := al }) s with effs := [landing (.push 0 1 [7])] }
theorem test_witness_In_use : ∀ al ∈ [true, false], ∀ q ∈ [SeqName.scl, .ld, .cmp, .st], let s := inUse al q
    s.me.aligned = al ∧ s.cyc < s.here.scalar ∧ s.cyc < s.here.lineRead ∧ s.cyc < s.here.lineWrite ∧ s.cyc < s.here.banked ∧ ¬ s.pipeFree true ∧
    ¬ s.pipeFree false ∧ s.cyc < s.here.sfu ∧ s.cyc < s.here.engine := by unfold State.pipeFree; decide
theorem test_witness_In_use_issues : (inUse false .cmp).issuesIf h0 0 ((inUse false .cmp).vecAsk 3 [0, 1] []) ∧
    (inUse true .scl).issues h0 { reads := [.x (inUse true .scl).cur 1, .x (inUse true .scl).cur 2], writes := [.x (inUse true .scl).cur 3] } ∧
    (inUse true .ld).issues h0 { reads := [.x (inUse true .ld).cur 1], writes := (inUse true .ld).tileDest 3 } ∧ (inUse true .cmp).issues h0 {} ∧
    (inUse false .cmp).issues h0 { writes := .x (inUse false .cmp).cur 1 :: (inUse false .cmp).tileDest 2 } ∧
    (inUse false .cmp).issues h0 { writes := [.x (inUse false .cmp).cur 1] } := by unfold State.issuesIf State.issues; decide
theorem test_witness_In_use_queues : (inUse false .cmp).here.present = 1 ∧ (inUse false .cmp).here.sq.length = 2 ∧
    (∃ e ∈ (inUse false .cmp).effs, ∃ ws, e.op = .push 0 1 ws) := by refine ⟨by decide, by decide, _, List.mem_singleton.mpr rfl, [7], rfl⟩

/-! ### Copies, packets, guards, links and the group -/

theorem test_witness_Copy_held_not : (scl.core 0).copies = [] ∧ (landing (.copyRead 1 [0] false)).op = .copyRead 1 [0] false := by decide
theorem test_witness_Packet_error : ({ group with errV := true } : State).errV = true ∧ group.errV = false := by decide
theorem test_witness_Guard_busy :
    let s : State := { shep.modPort 0 (fun q => { q with up := true, chan := q.chan.set 0 [(0, 9)] }) with evIss := 0 }
    (s.port 0).up = true ∧ (s.port 0).chan.toList.any (fun l => l.any (fun r => decide (r.1 ≤ s.cyc) && decide (s.cyc ≤ r.2))) = true ∧
    ((s.core 32).node.bind s.node?).any (fun n => n.t0 ≤ s.evIss) = true ∧
    (((node1 (fun n => { n with t0 := 9 }) s).core 32).node.bind (node1 (fun n => { n with t0 := 9 }) s).node?).any (fun n => s.evIss < n.t0) = true := by
  decide
theorem test_witness_Link_reach :
    let s := scl.modPort 0 (fun q => { q with reach := 40, trained := true, guards := [(0, 9)] })
    (s.port 0).reach ≠ 41 ∧ (∃ r ∈ (s.port 0).guards, r.1 ≤ s.cyc ∧ s.cyc ≤ r.2) ∧ (∀ n ∈ s.nodes, some n.part = s.fabric → n.live = false) ∧
    (∃ n ∈ (onFab s).nodes, some n.part = (onFab s).fabric ∧ n.live = true) ∧ (scl.port 0).reach = 0 ∧
    ((s.modPort 0 (fun q => { q with trained := false, guards := [] })).port 0).trained = false ∧ ({ s with errV := true } : State).errV = true := by
  refine ⟨by decide, ⟨(0, 9), by decide, by decide⟩, by decide, ?_, by decide, by decide, by decide⟩
  exact ⟨_, List.mem_cons_self, by decide, by decide⟩
theorem test_witness_CatchUpEnd : scl.n65 ≤ 65 * scl.cyc ∧ 65 * scl.cyc < ({ scl with n65 := 65 } : State).n65 ∧ scl.errV = false := by decide
theorem test_witness_Throttle_once : (∃ e ∈ ({ member with agenda := [{ due := .cyc 1, ev := .emergencyThrottle }] } : State).agenda,
    e.ev = .emergencyThrottle) ∧ (∀ e ∈ member.agenda, e.ev ≠ .emergencyThrottle) := ⟨⟨_, List.mem_singleton.mpr rfl, rfl⟩, by decide⟩
theorem test_witness_Beacon_known : member.group.knows 0 = true ∧ member.group.knows 7 = false ∧ joiner.group.knows 7 = true ∧ scl.group.knows 0 = false := by decide
theorem test_witness_Fault_listens : joiner.group.member = false ∧ joiner.group.joining ≠ none ∧ scl.group.member = false ∧ scl.group.joining = none := by decide

/-! ### The front end, scheduling, and the hub -/

theorem test_witness_Queue_tail_kept : (captured.queue 1).captured = some 7 ∧ (captured.queue 1).cfg = some ring ∧ (7 - (captured.queue 1).head).toNat ≤ ring.ringWords ∧
    ring.ringWords < ((1025 : Word) - (captured.queue 1).head).toNat ∧ ((front []).queue 1).captured = none := by decide
theorem test_witness_Record_writing :
    let s : State := { front [] with effs := [landing (.store .ring [(0, 0)] 9)] }
    s.writing 1 = true ∧ (front []).writing 1 = false ∧ (front []).awaits ring.cring = false := by decide
theorem test_witness_Queue_admitted : (part0 (fun p => { p with policy := { admits := some [2] } }) scl).admitted 0 1 = false ∧ scl.admitted 0 1 = true := by decide
theorem test_witness_Own_page : ((tables scl).walk 0 0x100).any (fun l => !(tables scl).frameHeld (pteAddr l.e) l.size && !(tables scl).isPreImage (pteAddr l.e) l.size) = true ∧
    (let s := part0 (fun p => { p with pool := [(0x8000000, true)], snapshots := [⟨9, 0, 0, 2 ^ 25, [(0, 0xEA00000002000000)]⟩] }) (tables scl)
     (s.walk 0 0x100).any (fun l => s.frameHeld (pteAddr l.e) l.size && (l.size == 2 ^ 25) &&
       takeFrame true (s.part 0).pool == some (0x8000000, [])) = true) := by decide
theorem test_witness_Roll_page :
    let s := (tables scl).setEntry 0x2008 0x8000000000003000
    s.slot2 0 0x2010000 = some 0x2008 ∧ ptePointer (s.entryAt 0x2008) = true ∧ pteV 0xE000000002000000 = true ∧ pteG 0xE000000002000000 = false := by decide
theorem test_witness_Try_unit :
    let s := scl.modCore 3 (fun c => { c with quarantined := true, passes := 2 })
    (s.core 3).quarantined = true ∧ (s.core 3).passes < 3 ∧ (s.core 3).node = none ∧ (s.core 3).moving = false ∧ (s.core 3).muster = false ∧
    (∀ k, k < 32 → (s.core (unitOf k)).muster = false) := by decide
theorem test_witness_Firmware_call : heldBy .powerOn = none ∧ heldBy .alarmClear = some .monitor ∧ levelHeight .plugin < levelHeight .scheduler ∧
    (let s : State := { scl with fwCalls := [⟨3, .monitor, .alarmClear⟩] }
     s.fwCalls.find? (fun c => c.core == 3 && c.level == .monitor) = some ⟨3, .monitor, .alarmClear⟩ ∧
     s.fwCalls.find? (fun c => c.core == 2 && c.level == .monitor) = none) ∧
    (scl.part 0).plugin = true ∧ ((part0 (fun p => { p with plugin := false }) scl).part 0).plugin = false := by decide
theorem test_witness_Alarm_halted :
    let s : State := { live .halted with eraseMask := [0] }
    0 ∈ s.eraseMask ∧ (∃ n ∈ s.nodes, n.state = .halted) ∧ s.errV = false := ⟨by decide, ⟨_, List.mem_cons_self, by decide⟩, by decide⟩
theorem test_witness_Update_ready : ({ State.reset with ready := true } : State).ready = true ∧ State.reset.ready = false ∧
    (∃ n ∈ shep.nodes, some n.part = shep.fabric) := ⟨by decide, by decide, ⟨_, List.mem_cons_self, by decide⟩⟩
theorem test_witness_Retraining : ({ tables scl with retrain := [(0, 9)] } : State).retraining = true ∧ (tables scl).retraining = false ∧ (tables scl).errV = false := by decide
theorem test_witness_Map_no_frame :
    let k : Snapshot := ⟨9, 0, 0, 2 ^ 25, [(0, 0xE200000002000000)]⟩
    (scl.mapLeaves 0 0 k).isNone = true ∧ ((tables scl).mapLeaves 0 0 k).any (fun t => (tables scl).stagedStands t) = true := by decide
theorem test_witness_Store_scattered : (landing (.store .scalar [(8, 1), (4096, 2), (8, 3)] 0)).op = .store .scalar [(8, 1), (4096, 2), (8, 3)] 0 := rfl

/-! ### Single steps and values, with results from the spec's examples or worked out by hand from its rules -/

/-- What a step leaves in flight: the cycles from issue to landing, and the operations. -/
def lands (s : State) (i : Instr) : List (Nat × EffOp) :=
  match exec i s with
  | .next t => (t.effs.drop s.effs.length).map (fun e => (e.at_ - s.cyc, e.op))
  | _ => []
/-- What a step raises. -/
def raises (s : State) (i : Instr) : List (Code × Nat) :=
  match exec i s with
  | .next t => (t.causes.drop s.causes.length).map (fun c => (c.r.code, c.r.addr))
  | _ => []
/-- i1 = -2^63, i2 = -1, i3 = 0, i4 = 65, i5 = 1, i6 = -8, i7 = 6, i8 = 0x0123456789ABCDEF. -/
def ints : State := regs [(1, 0x8000000000000000), (2, 0xFFFFFFFFFFFFFFFF), (4, 65), (5, 1), (6, 0xFFFFFFFFFFFFFFF8), (7, 6), (8, 0x0123456789ABCDEF)] scl

/-- R115: the single signed overflow of IDIV, landing after 24 cycles (Table 6-1). -/
theorem test_idiv_overflow : lands ints (.idiv h0 9 1 2 0) = [(24, .setX ints.cur 9 0x8000000000000000 false)] := by decide
/-- R115: IREM by zero gives xa. -/
theorem test_irem_by_zero : lands ints (.irem h0 9 6 3 0) = [(24, .setX ints.cur 9 0xFFFFFFFFFFFFFFF8 false)] := by decide
/-- R115: (-1) × (-1) has a high half of 0 signed, and 2^64 - 2 unsigned; L is 4 (Table 6-1). -/
theorem test_mulhs : lands ints (.mulhs h0 9 2 2 0) = [(4, .setX ints.cur 9 0 false)] := by decide
theorem test_mulhu : lands ints (.mulhu h0 9 2 2 0) = [(4, .setX ints.cur 9 0xFFFFFFFFFFFFFFFE false)] := by decide
/-- R116: a rotate by 65 is a rotate by 1. -/
theorem test_rol : lands ints (.rol h0 9 1 4 0) = [(1, .setX ints.cur 9 1 false)] := by decide
/-- Table 6-2: CLZ of 0 is 64; BSWAP and BREV reverse bytes and bits. -/
theorem test_clz_zero : lands ints (.clz h0 9 3 0) = [(1, .setX ints.cur 9 64 false)] := by decide +kernel
theorem test_bswap : lands ints (.bswap h0 9 8 0) = [(1, .setX ints.cur 9 0xEFCDAB8967452301 false)] := by decide +kernel
theorem test_brev : lands ints (.brev h0 9 5 0) = [(1, .setX ints.cur 9 0x8000000000000000 false)] := by decide +kernel
/-- Table 6-2: MIN compares signed values, MINU unsigned ones. -/
theorem test_min : lands ints (.min h0 9 6 7 0) = [(1, .setX ints.cur 9 0xFFFFFFFFFFFFFFF8 false)] := by decide
theorem test_minu : lands ints (.minu h0 9 6 7 0) = [(1, .setX ints.cur 9 6 false)] := by decide
/-- R117, Table 2-3: cond 4 is LTU. -/
theorem test_setc_ltu : lands ints (.setc h0 9 7 6 0 4) = [(1, .setX ints.cur 9 1 false)] := by decide
/-- R123: a misaligned target faults; with the stack full CALLX faults. -/
theorem test_jx_misaligned : raises ints (.jx h0 7) = [(.alignment, 6)] := by decide
theorem test_callx_depth : raises (me (fun v => { v with stack := List.replicate 8 4 }) ints) (.callx h0 3) = [(.callDepth, 0)] := by decide
/-- R124: the checks of Table 6-4 go in order: alignment before window. -/
theorem test_sld_order : raises (regs [(1, 0x0300000000000001)] scl) (.sld h0 9 1 0 0 3 0) = [(.alignment, 0x0300000000000001)] := by decide
theorem test_sst_window_2 : raises (regs [(1, 0x0200000000000008)] scl) (.sst h0 9 1 0 0 3 0) = [(.protection, 0x0200000000000008)] := by decide
/-- R119, Table 6-3: a taken branch kills the squashable ADDI that lands a cycle after its resolution, and no other. -/
theorem test_branch_kills :
    let b : Branch := ⟨9, 4, true, 64, false⟩
    let eff (at_ : Nat) (sq : Bool) (r : XReg) : Eff :=
      { at_ := at_, iss := at_ - 1, by_ := scl.cur, pc := 0, node := 1, sq := sq, commit := at_, fixed := true, op := .setX scl.cur r 1 false }
    let s : State := { me (fun v => { v with branches := [b] }) scl with cyc := 4, effs := [eff 7 false 7, eff 5 true 10, eff 4 true 11] }
    (match exec (.branchResolve 0 9) s with
      | .next t => t.effs.map (·.op) | _ => []) = [.setX scl.cur 7 1 false] := by decide

/-- 08 Table 8-2: VFMUL lands after 4 cycles in its tile and in la; the example of R157: one rounding for VFMA, two for VFMUL and VFADD. -/
theorem test_vfma_one_rounding : ffma (dec32 0x3F800800) (dec32 0x3F800800) (dec32 0xBF801000) = (0x33800000, 0) := by decide
theorem test_vfmul_ties_to_even : fmul (dec32 0x3F800800) (dec32 0x3F800800) = (0x3F801000, 0) := by decide
theorem test_vfadd_cancels : fadd (dec32 0x3F801000) (dec32 0xBF801000) = (0, 0) := by decide
theorem test_vfmul_lands :
    let s := here (fun c => { c with shp := 0 }) cmpq
    (lands s (.vfmul h0 2 0 1 0)).map (·.1) = [4, 4] := by decide
/-- The example of R164. -/
theorem test_vcvt_464 : convertV 0x43E80000 0 3 false = (0x7E, 0) := by decide
theorem test_vcvt_overflow : convertV 0x43E84000 0 3 false = (0x7F, 0x04) := by decide
theorem test_vcvt_saturates : convertV 0x43E84000 0 3 true = (0x7E, 0x20) := by decide
theorem test_vcvt_int8 : convertV 0xC300B333 0 7 true = (0x80, 0x10) ∧ convertV 0xBF000000 0 7 true = (0, 0) ∧ convertV 0x7FC00000 0 7 true = (0, 0x01) := by decide
/-- R159: a shift takes the five low bits; R158: a saturating sum. -/
theorem test_vshl_low_bits :
    let s := here (fun c => { c with shp := 0, tiles := (c.tiles.set 0 [1]).set 1 [33] }) cmpq
    (lands s (.vshl h0 2 0 1 0)).head? = some (3, .setTile 0 2 [2]) := by decide
theorem test_viadds_saturates :
    let s := here (fun c => { c with shp := 0, tiles := (c.tiles.set 0 [0x7FFFFFFF]).set 1 [1] }) cmpq
    (lands s (.viadds h0 2 0 1 0)).head? = some (3, .setTile 0 2 [0x7FFFFFFF]) ∧ (lands s (.viadds h0 2 0 1 0)).getLast? = some (4, .setFlags 0 0x10) := by decide
/-- The example of R178, Table 9-5: index-carrying maxima and minima over (-0, NaN, +0, NaN). -/
theorem test_vrmax_nan_hi : indexLanes (fun x y => rankLt false (dec32 x) (dec32 y)) [0x80000000, 0x7F800001, 0, 0xFFC00000] = [(0x7F800001, 0), (1, 0)] := by decide
theorem test_vrmin_nan_lo : indexLanes (fun x y => rankLt true (dec32 y) (dec32 x)) [0x80000000, 0x7F800001, 0, 0xFFC00000] = [(0x7F800001, 0), (1, 0)] := by decide
/-- The example of R78: three of four contributions, sum 6.0, rescale to 8.0. -/
theorem test_vrscl : rescaleLane 0x40C00000 0x00000403 = (0x41000000, 0) := by decide
/-- The example of R170, Table 9-3: EXP2 over 256 lanes lands on 15. -/
theorem test_exp2_lands : (match exec (.exp2 h0 1 0 0) cmpq with | .next t => t.effs.map (·.at_) | _ => []) = [15, 15] := by decide +kernel
/-- R174: 2^0 is 1.0; R175: the root of 4.0 is 2.0. -/
theorem test_exp2_zero : exp2Lane 0 = (0x3F800000, 0) := by decide +kernel
theorem test_sqrt_four : sqrtLane 0x40800000 = (0x40000000, 0) := by decide +kernel

/-- The example of R63: code 8 takes the extra byte, 20 under scale 2^-1 is 10. -/
theorem test_extra_value : roundF fp32 false (decodeX 8 0x7E 0x5A) = (0x41200000, 0) := by decide
theorem test_code_value : roundF fp32 false (decodeX 15 0x7E 0x5A) = (0xC0400000, 0) := by decide
/-- The example of R75: the products of a group are summed exactly and rounded once. -/
theorem test_group_sum :
    let v (w : Nat) : Operand := .f (decodeF bf16 w)
    addGroup 0x3F800000 [v 0x3980, v 0x3980, v 0x3900, v 0] [v 0x3980, v 0x3980, v 0x3980, v 0xC040] = (0x3F800001, 0) := by decide
/-- The example of R199: group 0 of the K-block sums to 37.5. -/
theorem test_matrix_group :
    let a (e : Nat) : Operand := .f (decodeA 5 e 0x7F 0x5A)
    let b (e : Nat) : Operand := .f (decodeA 3 e 0x80 0)
    addGroup 0 [a 8, a 7, a 1, a 15] [b 0x38, b 0x20, b 0x40, b 0x30] = (0x42160000, 0) := by decide
/-- The example of R202: MMA.E2M1X for one block takes 8 cycles, MMA.E4M3 16 (Table 10-2). -/
theorem test_block_cycles : blockCycles 5 (planesOf 5 15) false = 8 ∧ blockCycles 3 (planesOf 3 15) false = 16 := by decide

/-- R235: compare and exchange writes only where the old value equals xb; MIN is signed. -/
theorem test_atomic_cas : atomicBytes 7 false [1, 0, 0, 0] 1 9 = some [9, 0, 0, 0] ∧ atomicBytes 7 false [2, 0, 0, 0] 1 9 = none := by decide
theorem test_atomic_min : atomicBytes 1 false [0xFF, 0xFF, 0xFF, 0xFF] 1 0 = some [0xFF, 0xFF, 0xFF, 0xFF] := by decide
/-- 07 Table 7-9: the third gather wants 8 distinct words in one bank of each block: 64 passes; the second one 8. -/
theorem test_passes : passesOf 2 ((List.range 128).map (fun j => BitVec.ofNat 64 (64 * j))) = 64 ∧
    passesOf 2 ((List.range 128).map (fun j => BitVec.ofNat 64 (8 * j))) = 8 := by decide +kernel
/-- 07 Table 7-5: a remote line load on the same die issued on cycle 84 acts on 104, on another die on 56 + 48. -/
theorem test_ld_array_cycle : lands (on .ld) (.ld h0 5 2 0 0) = [(20, .load (List.range' 0x20000000 1024) [] (.tile 5) ((on .ld).cyc + 40) ((on .ld).cyc + 20))] := by
  decide +kernel

/-- The example of 13 R276: a forecast of 915 at code 1000 issues a LOWER to 900 at 5,000,000 ns. -/
theorem test_lower_notice :
    let s : State := { scl with pitch := 1000, drone := 4750000, group := { scl.group with leadUs := 250 } }
    (match exec (.lowerNotice ⟨[(915, 2000, 90)]⟩ 5000000) s with
      | .next t => t.group.notices.map (fun n => (n.code, n.x)) | _ => []) = [(900, 5000000)] := by decide
/-- 14 R295: a tail one word beyond a ring of 1,024 makes OVERRUN with cause 3. -/
theorem test_tail_overrun :
    (match exec (.tail 1 1025) (front []) with | .next t => ((t.queue 1).state, (t.queue 1).cause) | _ => (.idle, 0)) = (.overrun, 3) := by decide
/-- 16 R340: a walk of a region page gives its leaf; an address of 2^43 has none. -/
theorem test_walk : (tables scl).walk 0 0x1FFFFFF = some ⟨0x2000, 0xE200000002000000, 0, 2 ^ 25⟩ ∧ (tables scl).walk 0 (2 ^ 43) = none := by decide +kernel
/-- 15 R328: an alarm stops the running node with rank 1. -/
theorem test_alarm : (match exec (.securityAlarm ⟨.tamper, false⟩) (node1 (fun n => { n with variant := ⟨1, 0, [⟨0, .scl, 0, 0⟩], [0]⟩ }) scl) with | .next t => (t.alarm, t.causes.map (·.rank)) | _ => (false, [])) = (true, [1]) := by decide
/-- FIPS 180-4's example, which 03 R53's SHA-512 names: the hash of "abc" begins DD AF 35 A1. -/
theorem test_sha512_abc : (sha512 [0x61, 0x62, 0x63]).take 4 = [0xDD, 0xAF, 0x35, 0xA1] := by decide +kernel
end Sys2Proof.Tests
end

section
/-! SUPPORT. What the address checks answer in each window, and the statement about them. -/

namespace Sys2Proof.Machine
open Host

/-- Window 0x00: a compute core reaches its own scratchpad, a shepherd core has none (07 R128, R138). -/
theorem reach_own (s : State) (a : Dword) (n : Nat) (hw : winOf a = 0x00) :
    s.reach a n = if 32 ≤ s.cur.unit.val ∨ 2 ^ 29 < offOf a + n then .bad .window
      else .spad (s.cur.unit.val * 2 ^ 29 + offOf a) := by
  simp [State.reach, hw, isShep, spadSize]

/-- Window 0x01: the extent is checked before the grant (06 Table 6-4). -/
theorem reach_package (s : State) (a : Dword) (n : Nat) (hw : winOf a = 0x01) :
    s.reach a n = if 2 ^ 34 ≤ offOf a ∨ 2 ^ 29 < offOf a % 2 ^ 29 + n then .bad .window
      else if s.granted (offOf a / 2 ^ 29) then .spad (offOf a) else .bad .protection := by
  unfold State.reach
  rw [hw]
  exact if_congr (by simp [spadSize]) rfl rfl

theorem reach_group (s : State) (a : Dword) (n : Nat) (hw : winOf a = 0x02) : s.reach a n = .bad .protection := by
  simp [State.reach, hw]

theorem reach_far (s : State) (a : Dword) (n : Nat) (hw : winOf a = 0x10 ∨ winOf a = 0x20) : s.reach a n = .far := by
  obtain hw | hw := hw <;> simp [State.reach, hw]

theorem reach_unlisted (s : State) (a : Dword) (n : Nat) (h00 : winOf a ≠ 0x00) (h01 : winOf a ≠ 0x01)
    (h02 : winOf a ≠ 0x02) (h10 : winOf a ≠ 0x10) (h20 : winOf a ≠ 0x20) : s.reach a n = .bad .window := by
  unfold State.reach
  split
  case h_6 => rfl
  all_goals contradiction

/-- Settles O22: each clause is the equation of its window, taken on the branch that its hypotheses choose. -/
theorem addressWindows : Obligations.AddressWindows := by
  unfold Obligations.AddressWindows
  intro a n s w o
  refine ⟨fun hw hcore hin => ?_, fun hw hbad => ?_, fun hw hbad => ?_, fun hw hwin hin => ?_,
    reach_group s a n, reach_far s a n, reach_unlisted s a n⟩
  · exact (reach_own s a n hw).trans (if_neg (not_or.2 ⟨Nat.not_le.2 hcore, Nat.not_lt.2 hin⟩))
  · exact (reach_own s a n hw).trans (if_pos hbad)
  · exact (reach_package s a n hw).trans (if_pos hbad)
  · exact (reach_package s a n hw).trans (if_neg (not_or.2 ⟨Nat.not_le.2 hwin, Nat.not_lt.2 hin⟩))

end Sys2Proof.Machine
end

section
/-! SUPPORT. How each format packs its operands into the bits of a word (02 Table 2-2), what the decoder and the encoder of each space do
with them, and the statements about decoder and encoder. -/

namespace Sys2Proof.Codec

/-! ### Fields of a word -/

theorem fld_toNat (w : Word) (lo len : Nat) : (fld w lo len).toNat = w.toNat / 2 ^ lo % 2 ^ len := by
  rw [fld, BitVec.extractLsb'_toNat, Nat.shiftRight_eq_div_pow]

theorem fld_eq_iff {w : Word} {lo len : Nat} {x : BitVec len} : fld w lo len = x ↔ w.toNat / 2 ^ lo % 2 ^ len = x.toNat := by
  rw [← fld_toNat, BitVec.toNat_inj]

/-- Masking with a run of `len` ones from bit `lo` on. -/
theorem and_run (n lo len : Nat) : n &&& (2 ^ len - 1) * 2 ^ lo = n / 2 ^ lo % 2 ^ len * 2 ^ lo := by
  rw [← Nat.and_two_pow_sub_one_eq_mod]
  apply Nat.eq_of_testBit_eq
  intro i
  simp [Nat.testBit_and, Nat.testBit_mul_two_pow, Nat.testBit_div_two_pow]
  by_cases h : lo ≤ i <;> simp [h, Bool.and_comm]

theorem resv_iff {w m : Word} {lo len : Nat} (hm : m.toNat = (2 ^ len - 1) * 2 ^ lo) :
    resv w m = true ↔ w.toNat / 2 ^ lo % 2 ^ len = 0 := by
  rw [resv, beq_iff_eq, ← BitVec.toNat_inj, BitVec.toNat_and, hm, and_run]
  simp

/-- Peeling the highest field off a sum of fields: the field, and what the bits below it hold. -/
theorem field_iff {w : Word} {lo len m r : Nat} {x : BitVec len} (hm : m = lo + len) (hr : r < 2 ^ lo) :
    x.toNat * 2 ^ lo + r = w.toNat % 2 ^ m ↔ fld w lo len = x ∧ r = w.toNat % 2 ^ lo := by
  have hd := Nat.div_mod_unique (a := w.toNat % 2 ^ m) (b := 2 ^ lo) (d := x.toNat) (c := r) (by positivity)
  have hdvd : 2 ^ lo ∣ 2 ^ m := Nat.pow_dvd_pow 2 (by omega)
  rw [fld_eq_iff, ← Nat.mod_mul_right_div_self, ← Nat.pow_add, ← hm, eq_comm (a := r), ← Nat.mod_mod_of_dvd _ hdvd, hd]
  constructor
  · intro h; exact ⟨by rw [← h]; ring, hr⟩
  · rintro ⟨h, -⟩; rw [← h]; ring

/-- Reserved bits above a sum of fields. -/
theorem gap_iff {w mask : Word} {lo len m r : Nat} (hmask : mask.toNat = (2 ^ len - 1) * 2 ^ lo) (hm : m = lo + len) (hr : r < 2 ^ lo) :
    r = w.toNat % 2 ^ m ↔ resv w mask = true ∧ r = w.toNat % 2 ^ lo := by
  have := field_iff (w := w) (x := 0#len) hm hr
  rwa [BitVec.toNat_zero, Nat.zero_mul, Nat.zero_add, fld_eq_iff, BitVec.toNat_zero, ← resv_iff hmask] at this

theorem lowField_iff {w : Word} {len : Nat} {x : BitVec len} : x.toNat = w.toNat % 2 ^ len ↔ fld w 0 len = x := by
  rw [fld_eq_iff, Nat.pow_zero, Nat.div_one, eq_comm]

/-- A field whose lower bits are all zero. -/
theorem lastField_iff {w : Word} {lo len m : Nat} {x : BitVec len} (hm : m = lo + len) :
    x.toNat * 2 ^ lo = w.toNat % 2 ^ m ↔ fld w lo len = x ∧ 0 = w.toNat % 2 ^ lo := by
  rw [← field_iff hm (by positivity), Nat.add_zero]

/-- The reserved bits at the low end of a word. -/
theorem lastGap_iff {w mask : Word} {len : Nat} (hmask : mask.toNat = 2 ^ len - 1) :
    0 = w.toNat % 2 ^ len ↔ resv w mask = true := by
  rw [resv_iff (lo := 0) (len := len) (by omega), Nat.pow_zero, Nat.div_one, eq_comm]

/-- A constant at the low end of a word, as a form's sub-opcode is. -/
theorem constField_iff {w : Word} {len c : Nat} (hc : c < 2 ^ len) : c = w.toNat % 2 ^ len ↔ fld w 0 len = BitVec.ofNat len c := by
  rw [← lowField_iff, BitVec.toNat_ofNat, Nat.mod_eq_of_lt hc]

theorem sq_eq_iff {w : Word} {b : Bool} : (fld w 28 1 == 1) = b ↔ w.toNat / 2 ^ 28 % 2 ^ 1 = if b then 1 else 0 := by
  rw [← fld_toNat]
  generalize fld w 28 1 = f
  revert f; cases b <;> decide

theorem hdrOf_eq_iff {w : Word} {h : Hdr} :
    hdrOf w = h ↔ w.toNat / 2 ^ 29 % 2 ^ 2 = h.idle.toNat ∧ w.toNat / 2 ^ 28 % 2 ^ 1 = if h.sq then 1 else 0 := by
  obtain ⟨idle, sq⟩ := h
  rw [hdrOf, Hdr.mk.injEq, fld_eq_iff, sq_eq_iff]

/-- The space bit, opcode and header of a first word (02 Table 2-1). -/
structure Head (w : Word) (p op : Nat) (h : Hdr) : Prop where
  space : (fld w 31 1).toNat = p
  opcode : (fld w 21 7).toNat = op
  header : hdrOf w = h

theorem firstWord_eq_iff {w : Word} {p op n : Nat} {h : Hdr} (hp : p < 2) (ho : op < 128) (hn : n < 2 ^ 21) :
    firstWord p op h n = w ↔ Head w p op h ∧ n = w.toNat % 2 ^ 21 := by
  have hs : (if h.sq then 1 else 0) < 2 := by split <;> omega
  rw [← BitVec.toNat_inj, firstWord, BitVec.toNat_ofNat]
  constructor
  · intro hw
    exact ⟨⟨by rw [fld_toNat]; omega, by rw [fld_toNat]; omega, hdrOf_eq_iff.2 ⟨by omega, by omega⟩⟩, by omega⟩
  · rintro ⟨⟨hp, ho, hh⟩, hn⟩
    obtain ⟨hi, hq⟩ := hdrOf_eq_iff.1 hh
    rw [fld_toNat] at hp ho
    omega

theorem ofNat_eq_iff {w : Word} {n : Nat} (hn : n < 2 ^ 32) : BitVec.ofNat 32 n = w ↔ n = w.toNat % 2 ^ 32 := by
  rw [← BitVec.toNat_inj, BitVec.toNat_ofNat, Nat.mod_eq_of_lt hn, Nat.mod_eq_of_lt w.isLt]

/-! ### Formats: a word has the operand bits of a format exactly when its fields are the operands and its reserved bits are zero -/

section
variable {w : Word}

@[simp] theorem ofNat_bitsLPI1 {count : BitVec 32} :
    BitVec.ofNat 32 (bitsLPI1 count) = w ↔ fld w 0 32 = count := by
  rw [ofNat_eq_iff (by rw [bitsLPI1]; omega)]
  simp (disch := omega) only [bitsLPI1, lowField_iff, -Nat.reducePow]

@[simp] theorem ofNat_bitsAL1 {budget : BitVec 32} :
    BitVec.ofNat 32 (bitsAL1 budget) = w ↔ fld w 0 32 = budget := by
  rw [ofNat_eq_iff (by rw [bitsAL1]; omega)]
  simp (disch := omega) only [bitsAL1, lowField_iff, -Nat.reducePow]

@[simp] theorem ofNat_bitsXLW1 {imm : BitVec 32} :
    BitVec.ofNat 32 (bitsXLW1 imm) = w ↔ fld w 0 32 = imm := by
  rw [ofNat_eq_iff (by rw [bitsXLW1]; omega)]
  simp (disch := omega) only [bitsXLW1, lowField_iff, -Nat.reducePow]

@[simp] theorem ofNat_bitsMSD1 {disp : BitVec 32} :
    BitVec.ofNat 32 (bitsMSD1 disp) = w ↔ fld w 0 32 = disp := by
  rw [ofNat_eq_iff (by rw [bitsMSD1]; omega)]
  simp (disch := omega) only [bitsMSD1, lowField_iff, -Nat.reducePow]

@[simp] theorem ofNat_bitsAM1 {oc : BitVec 4} {ord : BitVec 3} {xc : BitVec 5} :
    BitVec.ofNat 32 (bitsAM1 oc ord xc) = w ↔ fld w 28 4 = oc ∧ fld w 25 3 = ord ∧ fld w 20 5 = xc ∧ resv w 0xFFFFF#32 = true := by
  rw [ofNat_eq_iff (by rw [bitsAM1]; omega)]
  simp (disch := omega) only [bitsAM1, Nat.add_assoc, field_iff, lastGap_iff (mask := 0xFFFFF#32) (len := 20) rfl, lastField_iff,
    -Nat.reducePow]

@[simp] theorem ofNat_bitsWA1 {oc : BitVec 4} {ord : BitVec 3} :
    BitVec.ofNat 32 (bitsWA1 oc ord) = w ↔ fld w 28 4 = oc ∧ fld w 25 3 = ord ∧ resv w 0x1FFFFFF#32 = true := by
  rw [ofNat_eq_iff (by rw [bitsWA1]; omega)]
  simp (disch := omega) only [bitsWA1, field_iff, lastGap_iff (mask := 0x1FFFFFF#32) (len := 25) rfl, lastField_iff, -Nat.reducePow]

@[simp] theorem ofNat_bitsTMD1 {disp : BitVec 32} :
    BitVec.ofNat 32 (bitsTMD1 disp) = w ↔ fld w 0 32 = disp := by
  rw [ofNat_eq_iff (by rw [bitsTMD1]; omega)]
  simp (disch := omega) only [bitsTMD1, lowField_iff, -Nat.reducePow]

@[simp] theorem ofNat_bitsBK1 {budget : BitVec 9} {size : BitVec 2} {ord : BitVec 3} :
    BitVec.ofNat 32 (bitsBK1 budget size ord) = w ↔
      fld w 23 9 = budget ∧ fld w 21 2 = size ∧ fld w 18 3 = ord ∧ resv w 0x3FFFF#32 = true := by
  rw [ofNat_eq_iff (by rw [bitsBK1]; omega)]
  simp (disch := omega) only [bitsBK1, Nat.add_assoc, field_iff, lastGap_iff (mask := 0x3FFFF#32) (len := 18) rfl, lastField_iff,
    -Nat.reducePow]

@[simp] theorem ofNat_bitsSLD1 {disp : BitVec 32} :
    BitVec.ofNat 32 (bitsSLD1 disp) = w ↔ fld w 0 32 = disp := by
  rw [ofNat_eq_iff (by rw [bitsSLD1]; omega)]
  simp (disch := omega) only [bitsSLD1, lowField_iff, -Nat.reducePow]

@[simp] theorem ofNat_bitsSLRD1 {disp : BitVec 32} :
    BitVec.ofNat 32 (bitsSLRD1 disp) = w ↔ fld w 0 32 = disp := by
  rw [ofNat_eq_iff (by rw [bitsSLRD1]; omega)]
  simp (disch := omega) only [bitsSLRD1, lowField_iff, -Nat.reducePow]

@[simp] theorem ofNat_bitsQLD1 {disp : BitVec 32} :
    BitVec.ofNat 32 (bitsQLD1 disp) = w ↔ fld w 0 32 = disp := by
  rw [ofNat_eq_iff (by rw [bitsQLD1]; omega)]
  simp (disch := omega) only [bitsQLD1, lowField_iff, -Nat.reducePow]

@[simp] theorem ofNat_bitsCP1 {ctx : BitVec 2} {oc : BitVec 4} {ord : BitVec 3} :
    BitVec.ofNat 32 (bitsCP1 ctx oc ord) = w ↔ fld w 30 2 = ctx ∧ fld w 26 4 = oc ∧ fld w 23 3 = ord ∧ resv w 0x7FFFFF#32 = true := by
  rw [ofNat_eq_iff (by rw [bitsCP1]; omega)]
  simp (disch := omega) only [bitsCP1, Nat.add_assoc, field_iff, lastGap_iff (mask := 0x7FFFFF#32) (len := 23) rfl, lastField_iff,
    -Nat.reducePow]

@[simp] theorem ofNat_bitsCP21 {ctx : BitVec 2} {oc : BitVec 4} {ord : BitVec 3} {xr xs xt : BitVec 5} :
    BitVec.ofNat 32 (bitsCP21 ctx oc ord xr xs xt) = w ↔
      fld w 30 2 = ctx ∧ fld w 26 4 = oc ∧ fld w 23 3 = ord ∧ fld w 18 5 = xr ∧ fld w 13 5 = xs ∧ fld w 8 5 = xt ∧
        resv w 0xFF#32 = true := by
  rw [ofNat_eq_iff (by rw [bitsCP21]; omega)]
  simp (disch := omega) only [bitsCP21, Nat.add_assoc, field_iff, lastGap_iff (mask := 0xFF#32) (len := 8) rfl, lastField_iff,
    -Nat.reducePow]

@[simp] theorem ofNat_bitsCPT1 {ctx : BitVec 2} {oc : BitVec 4} {ord : BitVec 3} {xr xs xt : BitVec 5} {fmt : BitVec 4} :
    BitVec.ofNat 32 (bitsCPT1 ctx oc ord xr xs xt fmt) = w ↔
      fld w 30 2 = ctx ∧ fld w 26 4 = oc ∧ fld w 23 3 = ord ∧ fld w 18 5 = xr ∧ fld w 13 5 = xs ∧ fld w 8 5 = xt ∧ fld w 4 4 = fmt ∧
        resv w 0xF#32 = true := by
  rw [ofNat_eq_iff (by rw [bitsCPT1]; omega)]
  simp (disch := omega) only [bitsCPT1, Nat.add_assoc, field_iff, lastGap_iff (mask := 0xF#32) (len := 4) rfl, lastField_iff,
    -Nat.reducePow]

@[simp] theorem ofNat_bitsV41 {vc : BitVec 6} :
    BitVec.ofNat 32 (bitsV41 vc) = w ↔ fld w 26 6 = vc ∧ resv w 0x3FFFFFF#32 = true := by
  rw [ofNat_eq_iff (by rw [bitsV41]; omega)]
  simp (disch := omega) only [bitsV41, lastGap_iff (mask := 0x3FFFFFF#32) (len := 26) rfl, lastField_iff, -Nat.reducePow]

@[simp] theorem ofNat_bitsMM1 {fa fb : BitVec 4} {zero : BitVec 1} {kblk : BitVec 3} :
    BitVec.ofNat 32 (bitsMM1 fa fb zero kblk) = w ↔
      fld w 28 4 = fa ∧ fld w 24 4 = fb ∧ fld w 23 1 = zero ∧ fld w 20 3 = kblk ∧ resv w 0xFFFFF#32 = true := by
  rw [ofNat_eq_iff (by rw [bitsMM1]; omega)]
  simp (disch := omega) only [bitsMM1, Nat.add_assoc, field_iff, lastGap_iff (mask := 0xFFFFF#32) (len := 20) rfl, lastField_iff,
    -Nat.reducePow]

@[simp] theorem ofNat_bitsMMS1 {fa fb : BitVec 4} {zero : BitVec 1} {kblk : BitVec 3} :
    BitVec.ofNat 32 (bitsMMS1 fa fb zero kblk) = w ↔
      fld w 28 4 = fa ∧ fld w 24 4 = fb ∧ fld w 23 1 = zero ∧ fld w 20 3 = kblk ∧ resv w 0xFFFFF#32 = true := by
  rw [ofNat_eq_iff (by rw [bitsMMS1]; omega)]
  simp (disch := omega) only [bitsMMS1, Nat.add_assoc, field_iff, lastGap_iff (mask := 0xFFFFF#32) (len := 20) rfl, lastField_iff,
    -Nat.reducePow]

@[simp] theorem ofNat_bitsAC1 {col0 : BitVec 8} {fmt : BitVec 4} {sat tr : BitVec 1} :
    BitVec.ofNat 32 (bitsAC1 col0 fmt sat tr) = w ↔
      fld w 24 8 = col0 ∧ fld w 20 4 = fmt ∧ fld w 19 1 = sat ∧ fld w 18 1 = tr ∧ resv w 0x3FFFF#32 = true := by
  rw [ofNat_eq_iff (by rw [bitsAC1]; omega)]
  simp (disch := omega) only [bitsAC1, Nat.add_assoc, field_iff, lastGap_iff (mask := 0x3FFFF#32) (len := 18) rfl, lastField_iff,
    -Nat.reducePow]

@[simp] theorem ofNat_bitsRS1 {cls : BitVec 1} {xr : BitVec 5} :
    BitVec.ofNat 32 (bitsRS1 cls xr) = w ↔ fld w 31 1 = cls ∧ fld w 26 5 = xr ∧ resv w 0x3FFFFFF#32 = true := by
  rw [ofNat_eq_iff (by rw [bitsRS1]; omega)]
  simp (disch := omega) only [bitsRS1, field_iff, lastGap_iff (mask := 0x3FFFFFF#32) (len := 26) rfl, lastField_iff, -Nat.reducePow]

@[simp] theorem ofNat_bitsRA1 {xr xc : BitVec 5} :
    BitVec.ofNat 32 (bitsRA1 xr xc) = w ↔ fld w 27 5 = xr ∧ fld w 22 5 = xc ∧ resv w 0x3FFFFF#32 = true := by
  rw [ofNat_eq_iff (by rw [bitsRA1]; omega)]
  simp (disch := omega) only [bitsRA1, field_iff, lastGap_iff (mask := 0x3FFFFF#32) (len := 22) rfl, lastField_iff, -Nat.reducePow]

variable {sp op : Nat} {h : Hdr} (hp : sp < 2) (ho : op < 128)
include hp ho

@[simp] theorem firstWord_zero :
    firstWord sp op h 0 = w ↔ Head w sp op h ∧ resv w 0x1FFFFF#32 = true := by
  rw [firstWord_eq_iff hp ho (by omega), lastGap_iff (mask := 0x1FFFFF#32) (len := 21) rfl]

@[simp] theorem firstWord_bitsK0 {n : BitVec 21} :
    firstWord sp op h (bitsK0 n) = w ↔ Head w sp op h ∧ fld w 0 21 = n := by
  rw [firstWord_eq_iff hp ho (by rw [bitsK0]; omega)]
  simp (disch := omega) only [bitsK0, lowField_iff, -Nat.reducePow]

@[simp] theorem firstWord_bitsJ0 {off : BitVec 21} :
    firstWord sp op h (bitsJ0 off) = w ↔ Head w sp op h ∧ fld w 0 21 = off := by
  rw [firstWord_eq_iff hp ho (by rw [bitsJ0]; omega)]
  simp (disch := omega) only [bitsJ0, lowField_iff, -Nat.reducePow]

@[simp] theorem firstWord_bitsLP0 {lvl : BitVec 2} {xa : BitVec 5} {len : BitVec 14} :
    firstWord sp op h (bitsLP0 lvl xa len) = w ↔ Head w sp op h ∧ fld w 19 2 = lvl ∧ fld w 14 5 = xa ∧ fld w 0 14 = len := by
  rw [firstWord_eq_iff hp ho (by rw [bitsLP0]; omega)]
  simp (disch := omega) only [bitsLP0, Nat.add_assoc, field_iff, lowField_iff, -Nat.reducePow]

@[simp] theorem firstWord_bitsLPI0 {lvl : BitVec 2} {len : BitVec 14} :
    firstWord sp op h (bitsLPI0 lvl len) = w ↔ Head w sp op h ∧ fld w 19 2 = lvl ∧ resv w 0x7C000#32 = true ∧ fld w 0 14 = len := by
  rw [firstWord_eq_iff hp ho (by rw [bitsLPI0]; omega)]
  simp (disch := omega) only [bitsLPI0, field_iff, gap_iff (mask := 0x7C000#32) (lo := 14) (len := 5) rfl rfl, lowField_iff, -Nat.reducePow]

@[simp] theorem firstWord_bitsAL0 {lvl : BitVec 2} {seg : BitVec 8} {xa : BitVec 5} :
    firstWord sp op h (bitsAL0 lvl seg xa) = w ↔
      Head w sp op h ∧ fld w 19 2 = lvl ∧ fld w 11 8 = seg ∧ fld w 6 5 = xa ∧ resv w 0x3F#32 = true := by
  rw [firstWord_eq_iff hp ho (by rw [bitsAL0]; omega)]
  simp (disch := omega) only [bitsAL0, Nat.add_assoc, field_iff, lastGap_iff (mask := 0x3F#32) (len := 6) rfl, lastField_iff,
    -Nat.reducePow]

@[simp] theorem firstWord_bitsBR0 {lvl : BitVec 3} {xt : BitVec 5} :
    firstWord sp op h (bitsBR0 lvl xt) = w ↔ Head w sp op h ∧ fld w 18 3 = lvl ∧ fld w 13 5 = xt ∧ resv w 0x1FFF#32 = true := by
  rw [firstWord_eq_iff hp ho (by rw [bitsBR0]; omega)]
  simp (disch := omega) only [bitsBR0, field_iff, lastGap_iff (mask := 0x1FFF#32) (len := 13) rfl, lastField_iff, -Nat.reducePow]

@[simp] theorem firstWord_bitsXL0 {xd : BitVec 5} {imm : BitVec 16} :
    firstWord sp op h (bitsXL0 xd imm) = w ↔ Head w sp op h ∧ fld w 16 5 = xd ∧ fld w 0 16 = imm := by
  rw [firstWord_eq_iff hp ho (by rw [bitsXL0]; omega)]
  simp (disch := omega) only [bitsXL0, field_iff, lowField_iff, -Nat.reducePow]

@[simp] theorem firstWord_bitsXLW0 {xd : BitVec 5} :
    firstWord sp op h (bitsXLW0 xd) = w ↔ Head w sp op h ∧ fld w 16 5 = xd ∧ resv w 0xFFFF#32 = true := by
  rw [firstWord_eq_iff hp ho (by rw [bitsXLW0]; omega)]
  simp (disch := omega) only [bitsXLW0, lastGap_iff (mask := 0xFFFF#32) (len := 16) rfl, lastField_iff, -Nat.reducePow]

@[simp] theorem firstWord_bitsXI0 {xd xa : BitVec 5} {imm : BitVec 11} :
    firstWord sp op h (bitsXI0 xd xa imm) = w ↔ Head w sp op h ∧ fld w 16 5 = xd ∧ fld w 11 5 = xa ∧ fld w 0 11 = imm := by
  rw [firstWord_eq_iff hp ho (by rw [bitsXI0]; omega)]
  simp (disch := omega) only [bitsXI0, Nat.add_assoc, field_iff, lowField_iff, -Nat.reducePow]

@[simp] theorem firstWord_bitsXR0 {xd xa xb : BitVec 5} {pg : BitVec 3} {c : Nat} (hc : c < 8) :
    firstWord sp op h (bitsXR0 xd xa xb pg + c) = w ↔
      Head w sp op h ∧ fld w 16 5 = xd ∧ fld w 11 5 = xa ∧ fld w 6 5 = xb ∧ fld w 3 3 = pg ∧ fld w 0 3 = BitVec.ofNat 3 c := by
  rw [firstWord_eq_iff hp ho (by rw [bitsXR0]; omega)]
  simp (disch := omega) only [bitsXR0, Nat.add_assoc, field_iff, constField_iff (len := 3), -Nat.reducePow]

@[simp] theorem firstWord_bitsXR0_zero {xd xa xb : BitVec 5} {pg : BitVec 3} :
    firstWord sp op h (bitsXR0 xd xa xb pg) = w ↔
      Head w sp op h ∧ fld w 16 5 = xd ∧ fld w 11 5 = xa ∧ fld w 6 5 = xb ∧ fld w 3 3 = pg ∧ fld w 0 3 = 0#3 := by
  simpa using firstWord_bitsXR0 hp ho (c := 0) (by decide)

@[simp] theorem firstWord_bitsXF0 {xd xa : BitVec 5} {imm : BitVec 8} {k : Nat} (hk : k / 2 ^ 8 % 2 ^ 3 * 2 ^ 8 = k) :
    firstWord sp op h (bitsXF0 xd xa imm + k) = w ↔
      Head w sp op h ∧ fld w 16 5 = xd ∧ fld w 11 5 = xa ∧ fld w 8 3 = BitVec.ofNat 3 (k / 2 ^ 8) ∧ fld w 0 8 = imm := by
  obtain ⟨c, rfl⟩ : ∃ c : BitVec 3, c.toNat * 2 ^ 8 = k := ⟨BitVec.ofNat 3 (k / 2 ^ 8), by rwa [BitVec.toNat_ofNat]⟩
  rw [firstWord_eq_iff hp ho (by rw [bitsXF0]; omega)]
  simp (disch := omega) only [bitsXF0, Nat.add_assoc, Nat.add_comm imm.toNat, field_iff, lowField_iff, Nat.mul_div_cancel,
    BitVec.ofNat_toNat, BitVec.setWidth_eq, -Nat.reducePow]

@[simp] theorem firstWord_bitsXF0_zero {xd xa : BitVec 5} {imm : BitVec 8} :
    firstWord sp op h (bitsXF0 xd xa imm) = w ↔ Head w sp op h ∧ fld w 16 5 = xd ∧ fld w 11 5 = xa ∧ fld w 8 3 = 0#3 ∧ fld w 0 8 = imm := by
  simpa using firstWord_bitsXF0 hp ho (k := 0) (by decide)

@[simp] theorem firstWord_bitsPC0 {pd : BitVec 3} {xa xb : BitVec 5} {cond : BitVec 3} :
    firstWord sp op h (bitsPC0 pd xa xb cond) = w ↔
      Head w sp op h ∧ fld w 18 3 = pd ∧ fld w 13 5 = xa ∧ fld w 8 5 = xb ∧ fld w 5 3 = cond ∧ resv w 0x1F#32 = true := by
  rw [firstWord_eq_iff hp ho (by rw [bitsPC0]; omega)]
  simp (disch := omega) only [bitsPC0, Nat.add_assoc, field_iff, lastGap_iff (mask := 0x1F#32) (len := 5) rfl, lastField_iff,
    -Nat.reducePow]

@[simp] theorem firstWord_bitsPI0 {pd : BitVec 3} {xa : BitVec 5} {cond : BitVec 3} {imm : BitVec 10} :
    firstWord sp op h (bitsPI0 pd xa cond imm) = w ↔
      Head w sp op h ∧ fld w 18 3 = pd ∧ fld w 13 5 = xa ∧ fld w 10 3 = cond ∧ fld w 0 10 = imm := by
  rw [firstWord_eq_iff hp ho (by rw [bitsPI0]; omega)]
  simp (disch := omega) only [bitsPI0, Nat.add_assoc, field_iff, lowField_iff, -Nat.reducePow]

@[simp] theorem firstWord_bitsPL0 {pd pa pb : BitVec 3} {k : Nat} (hk : k / 2 ^ 10 % 2 ^ 2 * 2 ^ 10 = k) :
    firstWord sp op h (bitsPL0 pd pa pb + k) = w ↔
      Head w sp op h ∧ fld w 18 3 = pd ∧ fld w 15 3 = pa ∧ fld w 12 3 = pb ∧ fld w 10 2 = BitVec.ofNat 2 (k / 2 ^ 10) ∧
        resv w 0x3FF#32 = true := by
  obtain ⟨c, rfl⟩ : ∃ c : BitVec 2, c.toNat * 2 ^ 10 = k := ⟨BitVec.ofNat 2 (k / 2 ^ 10), by rwa [BitVec.toNat_ofNat]⟩
  rw [firstWord_eq_iff hp ho (by rw [bitsPL0]; omega)]
  simp (disch := omega) only [bitsPL0, Nat.add_assoc, field_iff, lastGap_iff (mask := 0x3FF#32) (len := 10) rfl, lastField_iff,
    Nat.mul_div_cancel, BitVec.ofNat_toNat, BitVec.setWidth_eq, -Nat.reducePow]

@[simp] theorem firstWord_bitsPL0_zero {pd pa pb : BitVec 3} :
    firstWord sp op h (bitsPL0 pd pa pb) = w ↔
      Head w sp op h ∧ fld w 18 3 = pd ∧ fld w 15 3 = pa ∧ fld w 12 3 = pb ∧ fld w 10 2 = 0#2 ∧ resv w 0x3FF#32 = true := by
  simpa using firstWord_bitsPL0 hp ho (k := 0) (by decide)

@[simp] theorem firstWord_bitsXSD0 {xd : BitVec 5} {sreg : BitVec 12} :
    firstWord sp op h (bitsXSD0 xd sreg) = w ↔ Head w sp op h ∧ fld w 16 5 = xd ∧ fld w 4 12 = sreg ∧ resv w 0xF#32 = true := by
  rw [firstWord_eq_iff hp ho (by rw [bitsXSD0]; omega)]
  simp (disch := omega) only [bitsXSD0, field_iff, lastGap_iff (mask := 0xF#32) (len := 4) rfl, lastField_iff, -Nat.reducePow]

@[simp] theorem firstWord_bitsXSA0 {xa : BitVec 5} {sreg : BitVec 12} :
    firstWord sp op h (bitsXSA0 xa sreg) = w ↔ Head w sp op h ∧ fld w 16 5 = xa ∧ fld w 4 12 = sreg ∧ resv w 0xF#32 = true := by
  rw [firstWord_eq_iff hp ho (by rw [bitsXSA0]; omega)]
  simp (disch := omega) only [bitsXSA0, field_iff, lastGap_iff (mask := 0xF#32) (len := 4) rfl, lastField_iff, -Nat.reducePow]

@[simp] theorem firstWord_bitsFC0 {mask : BitVec 16} {scope : BitVec 3} :
    firstWord sp op h (bitsFC0 mask scope) = w ↔ Head w sp op h ∧ fld w 5 16 = mask ∧ fld w 2 3 = scope ∧ resv w 0x3#32 = true := by
  rw [firstWord_eq_iff hp ho (by rw [bitsFC0]; omega)]
  simp (disch := omega) only [bitsFC0, field_iff, lastGap_iff (mask := 0x3#32) (len := 2) rfl, lastField_iff, -Nat.reducePow]

@[simp] theorem firstWord_bitsWT0 {xa xt : BitVec 5} {k : Nat} (hk : k / 2 ^ 10 % 2 ^ 1 * 2 ^ 10 = k) :
    firstWord sp op h (bitsWT0 xa xt + k) = w ↔
      Head w sp op h ∧ fld w 16 5 = xa ∧ fld w 11 5 = xt ∧ fld w 10 1 = BitVec.ofNat 1 (k / 2 ^ 10) ∧ resv w 0x3FF#32 = true := by
  obtain ⟨c, rfl⟩ : ∃ c : BitVec 1, c.toNat * 2 ^ 10 = k := ⟨BitVec.ofNat 1 (k / 2 ^ 10), by rwa [BitVec.toNat_ofNat]⟩
  rw [firstWord_eq_iff hp ho (by rw [bitsWT0]; omega)]
  simp (disch := omega) only [bitsWT0, Nat.add_assoc, field_iff, lastGap_iff (mask := 0x3FF#32) (len := 10) rfl, lastField_iff,
    Nat.mul_div_cancel, BitVec.ofNat_toNat, BitVec.setWidth_eq, -Nat.reducePow]

@[simp] theorem firstWord_bitsWT0_zero {xa xt : BitVec 5} :
    firstWord sp op h (bitsWT0 xa xt) = w ↔
      Head w sp op h ∧ fld w 16 5 = xa ∧ fld w 11 5 = xt ∧ fld w 10 1 = 0#1 ∧ resv w 0x3FF#32 = true := by
  simpa using firstWord_bitsWT0 hp ho (k := 0) (by decide)

@[simp] theorem firstWord_bitsPT0 {pd : BitVec 3} {xa : BitVec 5} :
    firstWord sp op h (bitsPT0 pd xa) = w ↔ Head w sp op h ∧ fld w 18 3 = pd ∧ fld w 13 5 = xa ∧ resv w 0x1FFF#32 = true := by
  rw [firstWord_eq_iff hp ho (by rw [bitsPT0]; omega)]
  simp (disch := omega) only [bitsPT0, field_iff, lastGap_iff (mask := 0x1FFF#32) (len := 13) rfl, lastField_iff, -Nat.reducePow]

@[simp] theorem firstWord_bitsTW0 {ctx : BitVec 2} {xa xt : BitVec 5} :
    firstWord sp op h (bitsTW0 ctx xa xt) = w ↔
      Head w sp op h ∧ fld w 19 2 = ctx ∧ fld w 14 5 = xa ∧ fld w 9 5 = xt ∧ resv w 0x1FF#32 = true := by
  rw [firstWord_eq_iff hp ho (by rw [bitsTW0]; omega)]
  simp (disch := omega) only [bitsTW0, Nat.add_assoc, field_iff, lastGap_iff (mask := 0x1FF#32) (len := 9) rfl, lastField_iff,
    -Nat.reducePow]

@[simp] theorem firstWord_bitsTC0 {pd : BitVec 3} {ctx : BitVec 2} {xa : BitVec 5} :
    firstWord sp op h (bitsTC0 pd ctx xa) = w ↔
      Head w sp op h ∧ fld w 18 3 = pd ∧ fld w 16 2 = ctx ∧ fld w 11 5 = xa ∧ resv w 0x7FF#32 = true := by
  rw [firstWord_eq_iff hp ho (by rw [bitsTC0]; omega)]
  simp (disch := omega) only [bitsTC0, Nat.add_assoc, field_iff, lastGap_iff (mask := 0x7FF#32) (len := 11) rfl, lastField_iff,
    -Nat.reducePow]

@[simp] theorem firstWord_bitsCKP0 {p : BitVec 3} {neg : BitVec 1} :
    firstWord sp op h (bitsCKP0 p neg) = w ↔
      Head w sp op h ∧ fld w 20 1 = 0#1 ∧ fld w 17 3 = p ∧ fld w 16 1 = neg ∧ resv w 0xFFFF#32 = true := by
  have hb : bitsCKP0 p neg = (0#1).toNat * 2 ^ 20 + bitsCKP0 p neg := by simp
  rw [firstWord_eq_iff hp ho (by rw [bitsCKP0]; omega), hb, field_iff rfl (by rw [bitsCKP0]; omega)]
  simp (disch := omega) only [bitsCKP0, field_iff, lastGap_iff (mask := 0xFFFF#32) (len := 16) rfl, lastField_iff, -Nat.reducePow]

@[simp] theorem firstWord_bitsCKF0 {mask : BitVec 16} :
    firstWord sp op h (bitsCKF0 mask + 0x100000) = w ↔
      Head w sp op h ∧ fld w 20 1 = 1#1 ∧ resv w 0xF0000#32 = true ∧ fld w 0 16 = mask := by
  have hb : bitsCKF0 mask + 0x100000 = (1#1).toNat * 2 ^ 20 + bitsCKF0 mask := Nat.add_comm _ _
  rw [firstWord_eq_iff hp ho (by rw [bitsCKF0]; omega), hb, field_iff rfl (by rw [bitsCKF0]; omega)]
  simp (disch := omega) only [bitsCKF0, gap_iff (mask := 0xF0000#32) (lo := 16) (len := 4) rfl rfl, lowField_iff, -Nat.reducePow]

@[simp] theorem firstWord_bitsXRU0 {xd xa : BitVec 5} {pg : BitVec 3} {c : Nat} (hc : c < 8) :
    firstWord sp op h (bitsXRU0 xd xa pg + c) = w ↔
      Head w sp op h ∧ fld w 16 5 = xd ∧ fld w 11 5 = xa ∧ resv w 0x7C0#32 = true ∧ fld w 3 3 = pg ∧ fld w 0 3 = BitVec.ofNat 3 c := by
  rw [firstWord_eq_iff hp ho (by rw [bitsXRU0]; omega)]
  simp (disch := omega) only [bitsXRU0, Nat.add_assoc, field_iff, gap_iff (mask := 0x7C0#32) (lo := 6) (len := 5) rfl rfl, constField_iff
    (len := 3), -Nat.reducePow]

@[simp] theorem firstWord_bitsXRU0_zero {xd xa : BitVec 5} {pg : BitVec 3} :
    firstWord sp op h (bitsXRU0 xd xa pg) = w ↔
      Head w sp op h ∧ fld w 16 5 = xd ∧ fld w 11 5 = xa ∧ resv w 0x7C0#32 = true ∧ fld w 3 3 = pg ∧ fld w 0 3 = 0#3 := by
  simpa using firstWord_bitsXRU0 hp ho (c := 0) (by decide)

@[simp] theorem firstWord_bitsXRC0 {xd xa xb : BitVec 5} {pg cond : BitVec 3} :
    firstWord sp op h (bitsXRC0 xd xa xb pg cond) = w ↔
      Head w sp op h ∧ fld w 16 5 = xd ∧ fld w 11 5 = xa ∧ fld w 6 5 = xb ∧ fld w 3 3 = pg ∧ fld w 0 3 = cond := by
  rw [firstWord_eq_iff hp ho (by rw [bitsXRC0]; omega)]
  simp (disch := omega) only [bitsXRC0, Nat.add_assoc, field_iff, lowField_iff, -Nat.reducePow]

@[simp] theorem firstWord_bitsBC0 {p : BitVec 3} {neg : BitVec 1} {off : BitVec 17} :
    firstWord sp op h (bitsBC0 p neg off) = w ↔ Head w sp op h ∧ fld w 18 3 = p ∧ fld w 17 1 = neg ∧ fld w 0 17 = off := by
  rw [firstWord_eq_iff hp ho (by rw [bitsBC0]; omega)]
  simp (disch := omega) only [bitsBC0, Nat.add_assoc, field_iff, lowField_iff, -Nat.reducePow]

@[simp] theorem firstWord_bitsBZ0 {xa : BitVec 5} {off : BitVec 14} {k : Nat} (hk : k / 2 ^ 14 % 2 ^ 2 * 2 ^ 14 = k) :
    firstWord sp op h (bitsBZ0 xa off + k) = w ↔
      Head w sp op h ∧ fld w 16 5 = xa ∧ fld w 14 2 = BitVec.ofNat 2 (k / 2 ^ 14) ∧ fld w 0 14 = off := by
  obtain ⟨c, rfl⟩ : ∃ c : BitVec 2, c.toNat * 2 ^ 14 = k := ⟨BitVec.ofNat 2 (k / 2 ^ 14), by rwa [BitVec.toNat_ofNat]⟩
  rw [firstWord_eq_iff hp ho (by rw [bitsBZ0]; omega)]
  simp (disch := omega) only [bitsBZ0, Nat.add_comm off.toNat, Nat.add_assoc, field_iff, lowField_iff, Nat.mul_div_cancel,
    BitVec.ofNat_toNat, BitVec.setWidth_eq, -Nat.reducePow]

@[simp] theorem firstWord_bitsBZ0_zero {xa : BitVec 5} {off : BitVec 14} :
    firstWord sp op h (bitsBZ0 xa off) = w ↔ Head w sp op h ∧ fld w 16 5 = xa ∧ fld w 14 2 = 0#2 ∧ fld w 0 14 = off := by
  simpa using firstWord_bitsBZ0 hp ho (k := 0) (by decide)

@[simp] theorem firstWord_bitsXA0 {xa : BitVec 5} :
    firstWord sp op h (bitsXA0 xa) = w ↔ Head w sp op h ∧ fld w 16 5 = xa ∧ resv w 0xFFFF#32 = true := by
  rw [firstWord_eq_iff hp ho (by rw [bitsXA0]; omega)]
  simp (disch := omega) only [bitsXA0, lastGap_iff (mask := 0xFFFF#32) (len := 16) rfl, lastField_iff, -Nat.reducePow]

@[simp] theorem firstWord_bitsXX0 {seq : BitVec 2} {xd xa : BitVec 5} :
    firstWord sp op h (bitsXX0 seq xd xa) = w ↔
      Head w sp op h ∧ fld w 19 2 = seq ∧ fld w 14 5 = xd ∧ fld w 9 5 = xa ∧ resv w 0x1FF#32 = true := by
  rw [firstWord_eq_iff hp ho (by rw [bitsXX0]; omega)]
  simp (disch := omega) only [bitsXX0, Nat.add_assoc, field_iff, lastGap_iff (mask := 0x1FF#32) (len := 9) rfl, lastField_iff,
    -Nat.reducePow]

@[simp] theorem firstWord_bitsXP0 {seq : BitVec 2} {pd ps : BitVec 3} :
    firstWord sp op h (bitsXP0 seq pd ps) = w ↔
      Head w sp op h ∧ fld w 19 2 = seq ∧ fld w 16 3 = pd ∧ fld w 13 3 = ps ∧ resv w 0x1FFF#32 = true := by
  rw [firstWord_eq_iff hp ho (by rw [bitsXP0]; omega)]
  simp (disch := omega) only [bitsXP0, Nat.add_assoc, field_iff, lastGap_iff (mask := 0x1FFF#32) (len := 13) rfl, lastField_iff,
    -Nat.reducePow]

@[simp] theorem firstWord_bitsMS0 {xd xa : BitVec 5} {oc : BitVec 4} {ord : BitVec 3} {size : BitVec 2} {sx : BitVec 1} :
    firstWord sp op h (bitsMS0 xd xa oc ord size sx) = w ↔
      Head w sp op h ∧ fld w 16 5 = xd ∧ fld w 11 5 = xa ∧ fld w 7 4 = oc ∧ fld w 4 3 = ord ∧ fld w 2 2 = size ∧ fld w 1 1 = sx ∧
        fld w 0 1 = 0#1 := by
  rw [firstWord_eq_iff hp ho (by rw [bitsMS0]; omega)]
  simp (disch := omega) only [bitsMS0, Nat.add_assoc, field_iff, lastField_iff, constField_iff (len := 1), -Nat.reducePow]

@[simp] theorem firstWord_bitsMSD0 {xd xa : BitVec 5} {oc : BitVec 4} {ord : BitVec 3} {size : BitVec 2} {sx : BitVec 1} :
    firstWord sp op h (bitsMSD0 xd xa oc ord size sx + 0x1) = w ↔
      Head w sp op h ∧ fld w 16 5 = xd ∧ fld w 11 5 = xa ∧ fld w 7 4 = oc ∧ fld w 4 3 = ord ∧ fld w 2 2 = size ∧ fld w 1 1 = sx ∧
        fld w 0 1 = 1#1 := by
  rw [firstWord_eq_iff hp ho (by rw [bitsMSD0]; omega)]
  simp (disch := omega) only [bitsMSD0, Nat.add_assoc, field_iff, constField_iff (len := 1), -Nat.reducePow]

@[simp] theorem firstWord_bitsAM0 {xd xa xb : BitVec 5} {fn : BitVec 3} {size : BitVec 1} :
    firstWord sp op h (bitsAM0 xd xa xb fn size) = w ↔
      Head w sp op h ∧ fld w 16 5 = xd ∧ fld w 11 5 = xa ∧ fld w 6 5 = xb ∧ fld w 3 3 = fn ∧ fld w 2 1 = size ∧
        resv w 0x3#32 = true := by
  rw [firstWord_eq_iff hp ho (by rw [bitsAM0]; omega)]
  simp (disch := omega) only [bitsAM0, Nat.add_assoc, field_iff, lastGap_iff (mask := 0x3#32) (len := 2) rfl, lastField_iff, -Nat.reducePow]

@[simp] theorem firstWord_bitsWA0 {xa xb : BitVec 5} {cond : BitVec 3} {xt : BitVec 5} {size : BitVec 1} :
    firstWord sp op h (bitsWA0 xa xb cond xt size) = w ↔
      Head w sp op h ∧ fld w 16 5 = xa ∧ fld w 11 5 = xb ∧ fld w 8 3 = cond ∧ fld w 3 5 = xt ∧ fld w 2 1 = size ∧
        resv w 0x3#32 = true := by
  rw [firstWord_eq_iff hp ho (by rw [bitsWA0]; omega)]
  simp (disch := omega) only [bitsWA0, Nat.add_assoc, field_iff, lastGap_iff (mask := 0x3#32) (len := 2) rfl, lastField_iff, -Nat.reducePow]

@[simp] theorem firstWord_bitsXD0 {xd : BitVec 5} :
    firstWord sp op h (bitsXD0 xd) = w ↔ Head w sp op h ∧ fld w 16 5 = xd ∧ resv w 0xFFFF#32 = true := by
  rw [firstWord_eq_iff hp ho (by rw [bitsXD0]; omega)]
  simp (disch := omega) only [bitsXD0, lastGap_iff (mask := 0xFFFF#32) (len := 16) rfl, lastField_iff, -Nat.reducePow]

@[simp] theorem firstWord_bitsXW0 {xa xt : BitVec 5} :
    firstWord sp op h (bitsXW0 xa xt) = w ↔ Head w sp op h ∧ fld w 16 5 = xa ∧ fld w 11 5 = xt ∧ resv w 0x7FF#32 = true := by
  rw [firstWord_eq_iff hp ho (by rw [bitsXW0]; omega)]
  simp (disch := omega) only [bitsXW0, field_iff, lastGap_iff (mask := 0x7FF#32) (len := 11) rfl, lastField_iff, -Nat.reducePow]

@[simp] theorem firstWord_bitsFM0 {mask : BitVec 16} :
    firstWord sp op h (bitsFM0 mask) = w ↔ Head w sp op h ∧ fld w 5 16 = mask ∧ resv w 0x1F#32 = true := by
  rw [firstWord_eq_iff hp ho (by rw [bitsFM0]; omega)]
  simp (disch := omega) only [bitsFM0, lastGap_iff (mask := 0x1F#32) (len := 5) rfl, lastField_iff, -Nat.reducePow]

@[simp] theorem firstWord_bitsFT0 {pd : BitVec 3} {mask : BitVec 16} :
    firstWord sp op h (bitsFT0 pd mask) = w ↔ Head w sp op h ∧ fld w 18 3 = pd ∧ fld w 2 16 = mask ∧ resv w 0x3#32 = true := by
  rw [firstWord_eq_iff hp ho (by rw [bitsFT0]; omega)]
  simp (disch := omega) only [bitsFT0, field_iff, lastGap_iff (mask := 0x3#32) (len := 2) rfl, lastField_iff, -Nat.reducePow]

@[simp] theorem firstWord_bitsLS0 {xd : BitVec 5} {port : BitVec 4} :
    firstWord sp op h (bitsLS0 xd port) = w ↔ Head w sp op h ∧ fld w 16 5 = xd ∧ fld w 12 4 = port ∧ resv w 0xFFF#32 = true := by
  rw [firstWord_eq_iff hp ho (by rw [bitsLS0]; omega)]
  simp (disch := omega) only [bitsLS0, field_iff, lastGap_iff (mask := 0xFFF#32) (len := 12) rfl, lastField_iff, -Nat.reducePow]

@[simp] theorem firstWord_bitsTM0 {vt : BitVec 6} {xa : BitVec 5} {oc : BitVec 4} {ord : BitVec 3} :
    firstWord sp op h (bitsTM0 vt xa oc ord) = w ↔
      Head w sp op h ∧ fld w 15 6 = vt ∧ fld w 10 5 = xa ∧ fld w 6 4 = oc ∧ fld w 3 3 = ord ∧ resv w 0x6#32 = true ∧
        fld w 0 1 = 0#1 := by
  rw [firstWord_eq_iff hp ho (by rw [bitsTM0]; omega)]
  simp (disch := omega) only [bitsTM0, Nat.add_assoc, field_iff, gap_iff (mask := 0x6#32) (lo := 1) (len := 2) rfl rfl, lastField_iff,
    constField_iff (len := 1), -Nat.reducePow]

@[simp] theorem firstWord_bitsTMD0 {vt : BitVec 6} {xa : BitVec 5} {oc : BitVec 4} {ord : BitVec 3} :
    firstWord sp op h (bitsTMD0 vt xa oc ord + 0x1) = w ↔
      Head w sp op h ∧ fld w 15 6 = vt ∧ fld w 10 5 = xa ∧ fld w 6 4 = oc ∧ fld w 3 3 = ord ∧ resv w 0x6#32 = true ∧
        fld w 0 1 = 1#1 := by
  rw [firstWord_eq_iff hp ho (by rw [bitsTMD0]; omega)]
  simp (disch := omega) only [bitsTMD0, Nat.add_assoc, field_iff, gap_iff (mask := 0x6#32) (lo := 1) (len := 2) rfl rfl, constField_iff (len
    := 1), -Nat.reducePow]

@[simp] theorem firstWord_bitsBK0 {vt vi : BitVec 6} {xa : BitVec 5} {oc : BitVec 4} :
    firstWord sp op h (bitsBK0 vt vi xa oc) = w ↔ Head w sp op h ∧ fld w 15 6 = vt ∧ fld w 9 6 = vi ∧ fld w 4 5 = xa ∧ fld w 0 4 = oc := by
  rw [firstWord_eq_iff hp ho (by rw [bitsBK0]; omega)]
  simp (disch := omega) only [bitsBK0, Nat.add_assoc, field_iff, lowField_iff, -Nat.reducePow]

@[simp] theorem firstWord_bitsSL0 {slot : BitVec 3} {xa : BitVec 5} {oc planes : BitVec 4} :
    firstWord sp op h (bitsSL0 slot xa oc planes) = w ↔
      Head w sp op h ∧ fld w 18 3 = slot ∧ fld w 13 5 = xa ∧ fld w 9 4 = oc ∧ fld w 5 4 = planes ∧ resv w 0x1E#32 = true ∧
        fld w 0 1 = 0#1 := by
  rw [firstWord_eq_iff hp ho (by rw [bitsSL0]; omega)]
  simp (disch := omega) only [bitsSL0, Nat.add_assoc, field_iff, gap_iff (mask := 0x1E#32) (lo := 1) (len := 4) rfl rfl, lastField_iff,
    constField_iff (len := 1), -Nat.reducePow]

@[simp] theorem firstWord_bitsSLD0 {slot : BitVec 3} {xa : BitVec 5} {oc planes : BitVec 4} :
    firstWord sp op h (bitsSLD0 slot xa oc planes + 0x1) = w ↔
      Head w sp op h ∧ fld w 18 3 = slot ∧ fld w 13 5 = xa ∧ fld w 9 4 = oc ∧ fld w 5 4 = planes ∧ resv w 0x1E#32 = true ∧
        fld w 0 1 = 1#1 := by
  rw [firstWord_eq_iff hp ho (by rw [bitsSLD0]; omega)]
  simp (disch := omega) only [bitsSLD0, Nat.add_assoc, field_iff, gap_iff (mask := 0x1E#32) (lo := 1) (len := 4) rfl rfl, constField_iff
    (len := 1), -Nat.reducePow]

@[simp] theorem firstWord_bitsSLR0 {slot : BitVec 3} {xa : BitVec 5} {oc : BitVec 4} :
    firstWord sp op h (bitsSLR0 slot xa oc) = w ↔
      Head w sp op h ∧ fld w 18 3 = slot ∧ fld w 13 5 = xa ∧ fld w 9 4 = oc ∧ resv w 0x1FE#32 = true ∧ fld w 0 1 = 0#1 := by
  rw [firstWord_eq_iff hp ho (by rw [bitsSLR0]; omega)]
  simp (disch := omega) only [bitsSLR0, Nat.add_assoc, field_iff, gap_iff (mask := 0x1FE#32) (lo := 1) (len := 8) rfl rfl, lastField_iff,
    constField_iff (len := 1), -Nat.reducePow]

@[simp] theorem firstWord_bitsSLRD0 {slot : BitVec 3} {xa : BitVec 5} {oc : BitVec 4} :
    firstWord sp op h (bitsSLRD0 slot xa oc + 0x1) = w ↔
      Head w sp op h ∧ fld w 18 3 = slot ∧ fld w 13 5 = xa ∧ fld w 9 4 = oc ∧ resv w 0x1FE#32 = true ∧ fld w 0 1 = 1#1 := by
  rw [firstWord_eq_iff hp ho (by rw [bitsSLRD0]; omega)]
  simp (disch := omega) only [bitsSLRD0, Nat.add_assoc, field_iff, gap_iff (mask := 0x1FE#32) (lo := 1) (len := 8) rfl rfl, constField_iff
    (len := 1), -Nat.reducePow]

@[simp] theorem firstWord_bitsQL0 {xa : BitVec 5} {oc : BitVec 4} :
    firstWord sp op h (bitsQL0 xa oc) = w ↔
      Head w sp op h ∧ fld w 16 5 = xa ∧ fld w 12 4 = oc ∧ resv w 0xFFE#32 = true ∧ fld w 0 1 = 0#1 := by
  rw [firstWord_eq_iff hp ho (by rw [bitsQL0]; omega)]
  simp (disch := omega) only [bitsQL0, field_iff, gap_iff (mask := 0xFFE#32) (lo := 1) (len := 11) rfl rfl, lastField_iff, constField_iff
    (len := 1), -Nat.reducePow]

@[simp] theorem firstWord_bitsQLD0 {xa : BitVec 5} {oc : BitVec 4} :
    firstWord sp op h (bitsQLD0 xa oc + 0x1) = w ↔
      Head w sp op h ∧ fld w 16 5 = xa ∧ fld w 12 4 = oc ∧ resv w 0xFFE#32 = true ∧ fld w 0 1 = 1#1 := by
  rw [firstWord_eq_iff hp ho (by rw [bitsQLD0]; omega)]
  simp (disch := omega) only [bitsQLD0, Nat.add_assoc, field_iff, gap_iff (mask := 0xFFE#32) (lo := 1) (len := 11) rfl rfl, constField_iff
    (len := 1), -Nat.reducePow]

@[simp] theorem firstWord_bitsRT0 {xa xb : BitVec 5} {dir : BitVec 1} {oc : BitVec 4} :
    firstWord sp op h (bitsRT0 xa xb dir oc) = w ↔
      Head w sp op h ∧ fld w 16 5 = xa ∧ fld w 11 5 = xb ∧ fld w 10 1 = dir ∧ fld w 6 4 = oc ∧ resv w 0x3F#32 = true := by
  rw [firstWord_eq_iff hp ho (by rw [bitsRT0]; omega)]
  simp (disch := omega) only [bitsRT0, Nat.add_assoc, field_iff, lastGap_iff (mask := 0x3F#32) (len := 6) rfl, lastField_iff,
    -Nat.reducePow]

@[simp] theorem firstWord_bitsCP0 {xd xa xb : BitVec 5} {tag : BitVec 6} :
    firstWord sp op h (bitsCP0 xd xa xb tag) = w ↔
      Head w sp op h ∧ fld w 16 5 = xd ∧ fld w 11 5 = xa ∧ fld w 6 5 = xb ∧ fld w 0 6 = tag := by
  rw [firstWord_eq_iff hp ho (by rw [bitsCP0]; omega)]
  simp (disch := omega) only [bitsCP0, Nat.add_assoc, field_iff, lowField_iff, -Nat.reducePow]

@[simp] theorem firstWord_bitsCP20 {xd xa xb : BitVec 5} {tag : BitVec 6} :
    firstWord sp op h (bitsCP20 xd xa xb tag) = w ↔
      Head w sp op h ∧ fld w 16 5 = xd ∧ fld w 11 5 = xa ∧ fld w 6 5 = xb ∧ fld w 0 6 = tag := by
  rw [firstWord_eq_iff hp ho (by rw [bitsCP20]; omega)]
  simp (disch := omega) only [bitsCP20, Nat.add_assoc, field_iff, lowField_iff, -Nat.reducePow]

@[simp] theorem firstWord_bitsCPT0 {xd xa xb : BitVec 5} {tag : BitVec 6} :
    firstWord sp op h (bitsCPT0 xd xa xb tag) = w ↔
      Head w sp op h ∧ fld w 16 5 = xd ∧ fld w 11 5 = xa ∧ fld w 6 5 = xb ∧ fld w 0 6 = tag := by
  rw [firstWord_eq_iff hp ho (by rw [bitsCPT0]; omega)]
  simp (disch := omega) only [bitsCPT0, Nat.add_assoc, field_iff, lowField_iff, -Nat.reducePow]

@[simp] theorem firstWord_bitsAR0 {xa : BitVec 5} {rx : BitVec 6} :
    firstWord sp op h (bitsAR0 xa rx) = w ↔ Head w sp op h ∧ fld w 16 5 = xa ∧ fld w 10 6 = rx ∧ resv w 0x3FF#32 = true := by
  rw [firstWord_eq_iff hp ho (by rw [bitsAR0]; omega)]
  simp (disch := omega) only [bitsAR0, field_iff, lastGap_iff (mask := 0x3FF#32) (len := 10) rfl, lastField_iff, -Nat.reducePow]

@[simp] theorem firstWord_bitsRC0 {pd : BitVec 3} {rx : BitVec 6} :
    firstWord sp op h (bitsRC0 pd rx) = w ↔ Head w sp op h ∧ fld w 18 3 = pd ∧ fld w 12 6 = rx ∧ resv w 0xFFF#32 = true := by
  rw [firstWord_eq_iff hp ho (by rw [bitsRC0]; omega)]
  simp (disch := omega) only [bitsRC0, field_iff, lastGap_iff (mask := 0xFFF#32) (len := 12) rfl, lastField_iff, -Nat.reducePow]

@[simp] theorem firstWord_bitsRM0 {xd : BitVec 5} {rx : BitVec 6} :
    firstWord sp op h (bitsRM0 xd rx) = w ↔ Head w sp op h ∧ fld w 16 5 = xd ∧ fld w 10 6 = rx ∧ resv w 0x3FF#32 = true := by
  rw [firstWord_eq_iff hp ho (by rw [bitsRM0]; omega)]
  simp (disch := omega) only [bitsRM0, field_iff, lastGap_iff (mask := 0x3FF#32) (len := 10) rfl, lastField_iff, -Nat.reducePow]

@[simp] theorem firstWord_bitsV30 {vd va vb : BitVec 6} {pg : BitVec 3} :
    firstWord sp op h (bitsV30 vd va vb pg) = w ↔ Head w sp op h ∧ fld w 15 6 = vd ∧ fld w 9 6 = va ∧ fld w 3 6 = vb ∧ fld w 0 3 = pg := by
  rw [firstWord_eq_iff hp ho (by rw [bitsV30]; omega)]
  simp (disch := omega) only [bitsV30, Nat.add_assoc, field_iff, lowField_iff, -Nat.reducePow]

@[simp] theorem firstWord_bitsV40 {vd va vb : BitVec 6} {pg : BitVec 3} :
    firstWord sp op h (bitsV40 vd va vb pg) = w ↔ Head w sp op h ∧ fld w 15 6 = vd ∧ fld w 9 6 = va ∧ fld w 3 6 = vb ∧ fld w 0 3 = pg := by
  rw [firstWord_eq_iff hp ho (by rw [bitsV40]; omega)]
  simp (disch := omega) only [bitsV40, Nat.add_assoc, field_iff, lowField_iff, -Nat.reducePow]

@[simp] theorem firstWord_bitsV10 {vd va : BitVec 6} {pg : BitVec 3} :
    firstWord sp op h (bitsV10 vd va pg) = w ↔
      Head w sp op h ∧ fld w 15 6 = vd ∧ fld w 9 6 = va ∧ resv w 0x1F8#32 = true ∧ fld w 0 3 = pg := by
  rw [firstWord_eq_iff hp ho (by rw [bitsV10]; omega)]
  simp (disch := omega) only [bitsV10, Nat.add_assoc, field_iff, gap_iff (mask := 0x1F8#32) (lo := 3) (len := 6) rfl rfl, lowField_iff,
    -Nat.reducePow]

@[simp] theorem firstWord_bitsVX0 {vd : BitVec 6} {xa : BitVec 5} {pg : BitVec 3} :
    firstWord sp op h (bitsVX0 vd xa pg) = w ↔
      Head w sp op h ∧ fld w 15 6 = vd ∧ fld w 10 5 = xa ∧ resv w 0x3F8#32 = true ∧ fld w 0 3 = pg := by
  rw [firstWord_eq_iff hp ho (by rw [bitsVX0]; omega)]
  simp (disch := omega) only [bitsVX0, Nat.add_assoc, field_iff, gap_iff (mask := 0x3F8#32) (lo := 3) (len := 7) rfl rfl, lowField_iff,
    -Nat.reducePow]

@[simp] theorem firstWord_bitsVG0 {xd : BitVec 5} {va : BitVec 6} {lane : BitVec 8} :
    firstWord sp op h (bitsVG0 xd va lane) = w ↔
      Head w sp op h ∧ fld w 16 5 = xd ∧ fld w 10 6 = va ∧ fld w 2 8 = lane ∧ resv w 0x3#32 = true := by
  rw [firstWord_eq_iff hp ho (by rw [bitsVG0]; omega)]
  simp (disch := omega) only [bitsVG0, Nat.add_assoc, field_iff, lastGap_iff (mask := 0x3#32) (len := 2) rfl, lastField_iff, -Nat.reducePow]

@[simp] theorem firstWord_bitsCV0 {vd va : BitVec 6} {src dst : BitVec 4} {sat : BitVec 1} :
    firstWord sp op h (bitsCV0 vd va src dst sat) = w ↔
      Head w sp op h ∧ fld w 15 6 = vd ∧ fld w 9 6 = va ∧ fld w 5 4 = src ∧ fld w 1 4 = dst ∧ fld w 0 1 = sat := by
  rw [firstWord_eq_iff hp ho (by rw [bitsCV0]; omega)]
  simp (disch := omega) only [bitsCV0, Nat.add_assoc, field_iff, lowField_iff, -Nat.reducePow]

@[simp] theorem firstWord_bitsVQ0 {q : BitVec 2} {va vm : BitVec 6} {pg : BitVec 3} :
    firstWord sp op h (bitsVQ0 q va vm pg) = w ↔
      Head w sp op h ∧ fld w 19 2 = q ∧ fld w 13 6 = va ∧ fld w 7 6 = vm ∧ resv w 0x78#32 = true ∧ fld w 0 3 = pg := by
  rw [firstWord_eq_iff hp ho (by rw [bitsVQ0]; omega)]
  simp (disch := omega) only [bitsVQ0, Nat.add_assoc, field_iff, gap_iff (mask := 0x78#32) (lo := 3) (len := 4) rfl rfl, lowField_iff,
    -Nat.reducePow]

@[simp] theorem firstWord_bitsVP0 {q : BitVec 2} {vd : BitVec 6} {xd : BitVec 5} :
    firstWord sp op h (bitsVP0 q vd xd) = w ↔
      Head w sp op h ∧ fld w 19 2 = q ∧ fld w 13 6 = vd ∧ fld w 8 5 = xd ∧ resv w 0xFF#32 = true := by
  rw [firstWord_eq_iff hp ho (by rw [bitsVP0]; omega)]
  simp (disch := omega) only [bitsVP0, Nat.add_assoc, field_iff, lastGap_iff (mask := 0xFF#32) (len := 8) rfl, lastField_iff,
    -Nat.reducePow]

@[simp] theorem firstWord_bitsQC0 {xd : BitVec 5} {q : BitVec 2} :
    firstWord sp op h (bitsQC0 xd q) = w ↔ Head w sp op h ∧ fld w 16 5 = xd ∧ fld w 14 2 = q ∧ resv w 0x3FFF#32 = true := by
  rw [firstWord_eq_iff hp ho (by rw [bitsQC0]; omega)]
  simp (disch := omega) only [bitsQC0, field_iff, lastGap_iff (mask := 0x3FFF#32) (len := 14) rfl, lastField_iff, -Nat.reducePow]

@[simp] theorem firstWord_bitsSH0 {rows cols : BitVec 4} :
    firstWord sp op h (bitsSH0 rows cols) = w ↔ Head w sp op h ∧ fld w 17 4 = rows ∧ fld w 13 4 = cols ∧ resv w 0x1FFF#32 = true := by
  rw [firstWord_eq_iff hp ho (by rw [bitsSH0]; omega)]
  simp (disch := omega) only [bitsSH0, field_iff, lastGap_iff (mask := 0x1FFF#32) (len := 13) rfl, lastField_iff, -Nat.reducePow]

@[simp] theorem firstWord_bitsRX0 {vd va : BitVec 6} {nan : BitVec 1} {pg : BitVec 3} :
    firstWord sp op h (bitsRX0 vd va nan pg) = w ↔
      Head w sp op h ∧ fld w 15 6 = vd ∧ fld w 9 6 = va ∧ fld w 8 1 = nan ∧ resv w 0xF8#32 = true ∧ fld w 0 3 = pg := by
  rw [firstWord_eq_iff hp ho (by rw [bitsRX0]; omega)]
  simp (disch := omega) only [bitsRX0, Nat.add_assoc, field_iff, gap_iff (mask := 0xF8#32) (lo := 3) (len := 5) rfl rfl, lowField_iff,
    -Nat.reducePow]

@[simp] theorem firstWord_bitsMM0 {c : BitVec 2} {pa pb : BitVec 3} {fsrc : BitVec 1} {lvl : BitVec 2} {planes : BitVec 4} :
    firstWord sp op h (bitsMM0 c pa pb fsrc lvl planes) = w ↔
      Head w sp op h ∧ fld w 19 2 = c ∧ fld w 16 3 = pa ∧ fld w 13 3 = pb ∧ fld w 12 1 = fsrc ∧ fld w 10 2 = lvl ∧ fld w 6 4 = planes ∧
        resv w 0x3F#32 = true := by
  rw [firstWord_eq_iff hp ho (by rw [bitsMM0]; omega)]
  simp (disch := omega) only [bitsMM0, Nat.add_assoc, field_iff, lastGap_iff (mask := 0x3F#32) (len := 6) rfl, lastField_iff,
    -Nat.reducePow]

@[simp] theorem firstWord_bitsMMS0 {c : BitVec 2} {pa pb : BitVec 3} {fsrc : BitVec 1} {lvl : BitVec 2} {planes : BitVec 4} {pm : BitVec
    3} :
    firstWord sp op h (bitsMMS0 c pa pb fsrc lvl planes pm) = w ↔
      Head w sp op h ∧ fld w 19 2 = c ∧ fld w 16 3 = pa ∧ fld w 13 3 = pb ∧ fld w 12 1 = fsrc ∧ fld w 10 2 = lvl ∧ fld w 6 4 = planes ∧
        fld w 3 3 = pm ∧ resv w 0x7#32 = true := by
  rw [firstWord_eq_iff hp ho (by rw [bitsMMS0]; omega)]
  simp (disch := omega) only [bitsMMS0, Nat.add_assoc, field_iff, lastGap_iff (mask := 0x7#32) (len := 3) rfl, lastField_iff,
    -Nat.reducePow]

@[simp] theorem firstWord_bitsMC0 {c : BitVec 2} :
    firstWord sp op h (bitsMC0 c) = w ↔ Head w sp op h ∧ fld w 19 2 = c ∧ resv w 0x7FFFF#32 = true := by
  rw [firstWord_eq_iff hp ho (by rw [bitsMC0]; omega)]
  simp (disch := omega) only [bitsMC0, lastGap_iff (mask := 0x7FFFF#32) (len := 19) rfl, lastField_iff, -Nat.reducePow]

@[simp] theorem firstWord_bitsAC0 {vt : BitVec 6} {c : BitVec 2} {row0 : BitVec 7} {pg : BitVec 3} :
    firstWord sp op h (bitsAC0 vt c row0 pg) = w ↔
      Head w sp op h ∧ fld w 15 6 = vt ∧ fld w 13 2 = c ∧ fld w 6 7 = row0 ∧ resv w 0x38#32 = true ∧ fld w 0 3 = pg := by
  rw [firstWord_eq_iff hp ho (by rw [bitsAC0]; omega)]
  simp (disch := omega) only [bitsAC0, Nat.add_assoc, field_iff, gap_iff (mask := 0x38#32) (lo := 3) (len := 3) rfl rfl, lowField_iff,
    -Nat.reducePow]

@[simp] theorem firstWord_bitsFW0 {ft : BitVec 4} {xa : BitVec 5} :
    firstWord sp op h (bitsFW0 ft xa) = w ↔ Head w sp op h ∧ fld w 17 4 = ft ∧ fld w 12 5 = xa ∧ resv w 0xFFF#32 = true := by
  rw [firstWord_eq_iff hp ho (by rw [bitsFW0]; omega)]
  simp (disch := omega) only [bitsFW0, field_iff, lastGap_iff (mask := 0xFFF#32) (len := 12) rfl, lastField_iff, -Nat.reducePow]

@[simp] theorem firstWord_bitsFR0 {xd : BitVec 5} {ft : BitVec 4} :
    firstWord sp op h (bitsFR0 xd ft) = w ↔ Head w sp op h ∧ fld w 16 5 = xd ∧ fld w 12 4 = ft ∧ resv w 0xFFF#32 = true := by
  rw [firstWord_eq_iff hp ho (by rw [bitsFR0]; omega)]
  simp (disch := omega) only [bitsFR0, field_iff, lastGap_iff (mask := 0xFFF#32) (len := 12) rfl, lastField_iff, -Nat.reducePow]

@[simp] theorem firstWord_bitsRS0 {xa xb xc : BitVec 5} :
    firstWord sp op h (bitsRS0 xa xb xc) = w ↔
      Head w sp op h ∧ fld w 16 5 = xa ∧ fld w 11 5 = xb ∧ fld w 6 5 = xc ∧ resv w 0x3F#32 = true := by
  rw [firstWord_eq_iff hp ho (by rw [bitsRS0]; omega)]
  simp (disch := omega) only [bitsRS0, Nat.add_assoc, field_iff, lastGap_iff (mask := 0x3F#32) (len := 6) rfl, lastField_iff,
    -Nat.reducePow]

@[simp] theorem firstWord_bitsSG0 {xa xb xr : BitVec 5} :
    firstWord sp op h (bitsSG0 xa xb xr) = w ↔
      Head w sp op h ∧ fld w 16 5 = xa ∧ fld w 11 5 = xb ∧ fld w 6 5 = xr ∧ resv w 0x3F#32 = true := by
  rw [firstWord_eq_iff hp ho (by rw [bitsSG0]; omega)]
  simp (disch := omega) only [bitsSG0, Nat.add_assoc, field_iff, lastGap_iff (mask := 0x3F#32) (len := 6) rfl, lastField_iff,
    -Nat.reducePow]

@[simp] theorem firstWord_bitsRA0 {xd xa xb : BitVec 5} {fn : BitVec 3} {size : BitVec 1} :
    firstWord sp op h (bitsRA0 xd xa xb fn size) = w ↔
      Head w sp op h ∧ fld w 16 5 = xd ∧ fld w 11 5 = xa ∧ fld w 6 5 = xb ∧ fld w 3 3 = fn ∧ fld w 2 1 = size ∧
        resv w 0x3#32 = true := by
  rw [firstWord_eq_iff hp ho (by rw [bitsRA0]; omega)]
  simp (disch := omega) only [bitsRA0, Nat.add_assoc, field_iff, lastGap_iff (mask := 0x3#32) (len := 2) rfl, lastField_iff, -Nat.reducePow]

@[simp] theorem firstWord_bitsCL0 {xa : BitVec 5} {hd : BitVec 6} :
    firstWord sp op h (bitsCL0 xa hd) = w ↔ Head w sp op h ∧ fld w 16 5 = xa ∧ fld w 10 6 = hd ∧ resv w 0x3FF#32 = true := by
  rw [firstWord_eq_iff hp ho (by rw [bitsCL0]; omega)]
  simp (disch := omega) only [bitsCL0, field_iff, lastGap_iff (mask := 0x3FF#32) (len := 10) rfl, lastField_iff, -Nat.reducePow]

@[simp] theorem firstWord_bitsCW0 {hd : BitVec 6} {xt : BitVec 5} :
    firstWord sp op h (bitsCW0 hd xt) = w ↔ Head w sp op h ∧ fld w 15 6 = hd ∧ fld w 10 5 = xt ∧ resv w 0x3FF#32 = true := by
  rw [firstWord_eq_iff hp ho (by rw [bitsCW0]; omega)]
  simp (disch := omega) only [bitsCW0, field_iff, lastGap_iff (mask := 0x3FF#32) (len := 10) rfl, lastField_iff, -Nat.reducePow]

@[simp] theorem firstWord_bitsAA0 {xa xb : BitVec 5} {hd : BitVec 6} :
    firstWord sp op h (bitsAA0 xa xb hd) = w ↔
      Head w sp op h ∧ fld w 16 5 = xa ∧ fld w 11 5 = xb ∧ fld w 5 6 = hd ∧ resv w 0x1F#32 = true := by
  rw [firstWord_eq_iff hp ho (by rw [bitsAA0]; omega)]
  simp (disch := omega) only [bitsAA0, Nat.add_assoc, field_iff, lastGap_iff (mask := 0x1F#32) (len := 5) rfl, lastField_iff,
    -Nat.reducePow]

@[simp] theorem firstWord_bitsGD0 {port : BitVec 4} {beats : BitVec 8} :
    firstWord sp op h (bitsGD0 port beats) = w ↔ Head w sp op h ∧ fld w 17 4 = port ∧ fld w 9 8 = beats ∧ resv w 0x1FF#32 = true := by
  rw [firstWord_eq_iff hp ho (by rw [bitsGD0]; omega)]
  simp (disch := omega) only [bitsGD0, field_iff, lastGap_iff (mask := 0x1FF#32) (len := 9) rfl, lastField_iff, -Nat.reducePow]

end

/-! ### The spaces, one by one -/

/-- The words of an instruction of the own space of a stream (02 R34 to R37). -/
def encodePrivate : SeqName → Instr → List Word
  | .scl => encodeScl
  | .ld => encodeLd
  | .cmp => encodeCmp
  | .st => encodeSt

/-- The instruction of the own space of a stream that two words spell (02 R34 to R37). -/
def decodePrivate : SeqName → Word → Word → Option Instr
  | .scl => decodeScl
  | .ld => decodeLd
  | .cmp => decodeCmp
  | .st => decodeSt

/-- The space bit chooses between the shared subset and the own space of the stream (02 R17). -/
theorem decodeRaw_of_shared {w0 : Word} (hp : (fld w0 31 1).toNat = 0) (q : SeqName) (w1 : Word) : decodeRaw q w0 w1 = decodeShared w0 w1 :=
  if_pos (beq_iff_eq.2 (BitVec.eq_of_toNat_eq hp))

theorem decodeRaw_of_ownSpace {w0 : Word} (hp : (fld w0 31 1).toNat = 1) (q : SeqName) (w1 : Word) : decodeRaw q w0 w1 = decodePrivate q w0 w1 := by
  have hb : ¬ (fld w0 31 1 == 0) = true := fun h => by rw [beq_iff_eq.1 h] at hp; exact absurd hp (by decide)
  exact (if_neg hb).trans (by cases q <;> rfl)

/-- What the decoder of a space reads, the encoder of the space writes: on each branch the operands are the fields of the words, and the
rest of the words is fixed by the branch (`firstWord_bits…`, `ofNat_bits…`). -/
theorem encodeShared_of_decodeShared {w0 w1 : Word} {i : Instr} (hp : (fld w0 31 1).toNat = 0) (h : decodeShared w0 w1 = some i) :
    i.hdr = hdrOf w0 ∧ encode i = encodeShared i ∧ (encodeShared i = [w0] ∨ encodeShared i = [w0, w1]) := by
  unfold decodeShared at h
  split at h <;> rename_i ho
  all_goals repeat' split at h
  all_goals cases h
  all_goals
    have hd : Head w0 0 _ (hdrOf w0) := ⟨hp, ho, rfl⟩
    clear hp ho
    exact ⟨rfl, rfl, by simp_all [encodeShared]⟩

theorem encodeScl_of_decodeScl {w0 w1 : Word} {i : Instr} (hp : (fld w0 31 1).toNat = 1) (h : decodeScl w0 w1 = some i) :
    i.hdr = hdrOf w0 ∧ encode i = encodeScl i ∧ (encodeScl i = [w0] ∨ encodeScl i = [w0, w1]) := by
  unfold decodeScl at h
  split at h <;> rename_i ho
  all_goals repeat' split at h
  all_goals cases h
  all_goals
    have hd : Head w0 1 _ (hdrOf w0) := ⟨hp, ho, rfl⟩
    clear hp ho
    exact ⟨rfl, rfl, by simp_all [encodeScl]⟩

theorem encodeLd_of_decodeLd {w0 w1 : Word} {i : Instr} (hp : (fld w0 31 1).toNat = 1) (h : decodeLd w0 w1 = some i) :
    i.hdr = hdrOf w0 ∧ encode i = encodeLd i ∧ (encodeLd i = [w0] ∨ encodeLd i = [w0, w1]) := by
  unfold decodeLd at h
  split at h <;> rename_i ho
  all_goals repeat' split at h
  all_goals cases h
  all_goals
    have hd : Head w0 1 _ (hdrOf w0) := ⟨hp, ho, rfl⟩
    clear hp ho
    exact ⟨rfl, rfl, by simp_all [encodeLd]⟩

theorem encodeCmp_of_decodeCmp {w0 w1 : Word} {i : Instr} (hp : (fld w0 31 1).toNat = 1) (h : decodeCmp w0 w1 = some i) :
    i.hdr = hdrOf w0 ∧ encode i = encodeCmp i ∧ (encodeCmp i = [w0] ∨ encodeCmp i = [w0, w1]) := by
  unfold decodeCmp at h
  split at h <;> rename_i ho
  all_goals repeat' split at h
  all_goals cases h
  all_goals
    have hd : Head w0 1 _ (hdrOf w0) := ⟨hp, ho, rfl⟩
    clear hp ho
    exact ⟨rfl, rfl, by simp_all [encodeCmp]⟩

theorem encodeSt_of_decodeSt {w0 w1 : Word} {i : Instr} (hp : (fld w0 31 1).toNat = 1) (h : decodeSt w0 w1 = some i) :
    i.hdr = hdrOf w0 ∧ encode i = encodeSt i ∧ (encodeSt i = [w0] ∨ encodeSt i = [w0, w1]) := by
  unfold decodeSt at h
  split at h <;> rename_i ho
  all_goals repeat' split at h
  all_goals cases h
  all_goals
    have hd : Head w0 1 _ (hdrOf w0) := ⟨hp, ho, rfl⟩
    clear hp ho
    exact ⟨rfl, rfl, by simp_all [encodeSt]⟩

/-- The branch that an opcode selects, brought to weak head normal form, shows its reserved-bit checks in this shape. -/
theorem decidableRec_eq_ite {α : Type} {c : Prop} [inst : Decidable c] (t e : α) :
    (Decidable.rec (fun _ => e) (fun _ => t) inst : α) = if c then t else e := rfl

/-- What the encoder of a space writes, the decoder of the space reads back: the words have the opcode, the header and the operands as
their fields, and zeros in the reserved bits. -/
theorem decodeShared_of_encodeShared {w0 w1 : Word} {i : Instr} (h : encodeShared i = [w0] ∨ encodeShared i = [w0, w1]) :
    (fld w0 31 1).toNat = 0 ∧ decodeShared w0 w1 = some i := by
  unfold encodeShared at h
  split at h
  all_goals simp [and_assoc] at h
  all_goals
    obtain ⟨hd, hf⟩ := h
    refine ⟨hd.space, ?_⟩
    rw [decodeShared, hd.opcode]
    conv_lhs => whnf
    simp [↓decidableRec_eq_ite, hd.header, hf]

theorem decodeScl_of_encodeScl {w0 w1 : Word} {i : Instr} (h : encodeScl i = [w0] ∨ encodeScl i = [w0, w1]) :
    (fld w0 31 1).toNat = 1 ∧ decodeScl w0 w1 = some i := by
  unfold encodeScl at h
  split at h
  all_goals simp [and_assoc] at h
  all_goals
    obtain ⟨hd, hf⟩ := h
    refine ⟨hd.space, ?_⟩
    rw [decodeScl, hd.opcode]
    conv_lhs => whnf
    simp [↓decidableRec_eq_ite, hd.header, hf]

theorem decodeLd_of_encodeLd {w0 w1 : Word} {i : Instr} (h : encodeLd i = [w0] ∨ encodeLd i = [w0, w1]) :
    (fld w0 31 1).toNat = 1 ∧ decodeLd w0 w1 = some i := by
  unfold encodeLd at h
  split at h
  all_goals simp [and_assoc] at h
  all_goals
    obtain ⟨hd, hf⟩ := h
    refine ⟨hd.space, ?_⟩
    rw [decodeLd, hd.opcode]
    conv_lhs => whnf
    simp [↓decidableRec_eq_ite, hd.header, hf]

theorem decodeCmp_of_encodeCmp {w0 w1 : Word} {i : Instr} (h : encodeCmp i = [w0] ∨ encodeCmp i = [w0, w1]) :
    (fld w0 31 1).toNat = 1 ∧ decodeCmp w0 w1 = some i := by
  unfold encodeCmp at h
  split at h
  all_goals simp [and_assoc] at h
  all_goals
    obtain ⟨hd, hf⟩ := h
    refine ⟨hd.space, ?_⟩
    rw [decodeCmp, hd.opcode]
    conv_lhs => whnf
    simp [↓decidableRec_eq_ite, hd.header, hf]

theorem decodeSt_of_encodeSt {w0 w1 : Word} {i : Instr} (h : encodeSt i = [w0] ∨ encodeSt i = [w0, w1]) :
    (fld w0 31 1).toNat = 1 ∧ decodeSt w0 w1 = some i := by
  unfold encodeSt at h
  split at h
  all_goals simp [and_assoc] at h
  all_goals
    obtain ⟨hd, hf⟩ := h
    refine ⟨hd.space, ?_⟩
    rw [decodeSt, hd.opcode]
    conv_lhs => whnf
    simp [↓decidableRec_eq_ite, hd.header, hf]

theorem encodePrivate_of_decodePrivate {w0 w1 : Word} {i : Instr} (q : SeqName) (hp : (fld w0 31 1).toNat = 1)
    (h : decodePrivate q w0 w1 = some i) :
    i.hdr = hdrOf w0 ∧ encode i = encodePrivate q i ∧ (encodePrivate q i = [w0] ∨ encodePrivate q i = [w0, w1]) := by
  cases q
  case scl => exact encodeScl_of_decodeScl hp h
  case ld => exact encodeLd_of_decodeLd hp h
  case cmp => exact encodeCmp_of_decodeCmp hp h
  case st => exact encodeSt_of_decodeSt hp h

theorem decodePrivate_of_encodePrivate {w0 w1 : Word} {i : Instr} (q : SeqName) (h : encodePrivate q i = [w0] ∨ encodePrivate q i = [w0, w1]) :
    (fld w0 31 1).toNat = 1 ∧ decodePrivate q w0 w1 = some i := by
  cases q
  case scl => exact decodeScl_of_encodeScl h
  case ld => exact decodeLd_of_encodeLd h
  case cmp => exact decodeCmp_of_encodeCmp h
  case st => exact decodeSt_of_encodeSt h

/-! ### Well-formed instructions -/

theorem length_encode (i : Instr) : (encode i).length = i.len := by
  cases i <;> rfl

theorem len_of_wf {i : Instr} {k : SeqName} {sh : Bool} (hw : i.wf k sh = true) : i.len = 1 ∨ i.len = 2 := by
  have hl : (i.len == 1 || i.len == 2 || !i.wf k sh) = true := by cases i <;> rfl
  simpa [hw] using hl

/-- SQ is legal in the SCL stream alone (02 R19). -/
theorem eq_scl_of_sq {i : Instr} {k : SeqName} {sh : Bool} (hw : i.wf k sh = true) (hs : i.hdr.sq = true) : k = .scl := by
  obtain ⟨⟨idle, sq⟩, hh⟩ : ∃ hd, i.hdr = hd := ⟨_, rfl⟩
  obtain rfl : sq = true := by rw [← hs, hh]
  have hb : (k == .scl || !i.wf k sh) = true := by
    cases k
    case scl => rfl
    all_goals cases i <;> cases hh <;> rfl
  simpa [hw] using hb

/-- The instructions of a stream's own space are legal in that stream alone (02 R17). -/
theorem stream_of_encodePrivate {i : Instr} {q k : SeqName} {sh : Bool} (he : (encodePrivate q i).isEmpty = false)
    (hw : i.wf k sh = true) : k = q := by
  obtain ⟨⟨idle, sq⟩, hh⟩ : ∃ hd, i.hdr = hd := ⟨_, rfl⟩
  have hb : (k == q || !i.wf k sh) = true := by
    cases q <;> rw [encodePrivate] at he
    case scl => unfold encodeScl at he; split at he <;> cases he <;> cases k <;> rfl
    case ld => unfold encodeLd at he; split at he <;> cases he <;> cases hh <;> cases sq <;> cases k <;> rfl
    case cmp => unfold encodeCmp at he; split at he <;> cases he <;> cases hh <;> cases sq <;> cases k <;> rfl
    case st => unfold encodeSt at he; split at he <;> cases he <;> cases hh <;> cases sq <;> cases k <;> rfl
  simpa [hw] using hb

theorem encodePrivate_of_wf {i : Instr} {q k : SeqName} {sh : Bool} (hw : i.wf k sh = true) (hq : q ≠ k) : encodePrivate q i = [] := by
  by_contra he
  exact hq (stream_of_encodePrivate (by simpa using he) hw).symm

theorem encode_of_wf {i : Instr} {k : SeqName} {sh : Bool} (hw : i.wf k sh = true) :
    encode i = encodeShared i ++ encodePrivate k i := by
  have he (q : SeqName) (hq : q ≠ k) : encodePrivate q i = [] := encodePrivate_of_wf hw hq
  have hs := he .scl; have hl := he .ld; have hc := he .cmp; have ht := he .st
  cases k <;> simp_all [encode, encodePrivate]

theorem encodeShared_nil_or_encodePrivate_nil (i : Instr) (k : SeqName) : encodeShared i = [] ∨ encodePrivate k i = [] := by
  have h : ((encodeShared i).isEmpty || (encodePrivate k i).isEmpty) = true := by cases k <;> cases i <;> rfl
  simpa using h

/-! ### The decoder and the encoder -/

theorem decode_eq_some {k : SeqName} {sh : Bool} {w0 w1 : Word} {i : Instr} :
    decode k sh w0 w1 = some i ↔ decodeRaw k w0 w1 = some i ∧ i.wf k sh = true := by
  unfold decode
  split
  next h => simp [h]
  next j h =>
    rw [h, Option.ite_none_right_eq_some, Option.some.injEq]
    constructor
    · rintro ⟨hw, rfl⟩; exact ⟨rfl, hw⟩
    · rintro ⟨rfl, hw⟩; exact ⟨hw, rfl⟩

/-- What decodes has the header of its first word, and is encoded in the words that it was read from. -/
theorem encode_of_decodeRaw {k : SeqName} {w0 w1 : Word} {i : Instr} (h : decodeRaw k w0 w1 = some i) :
    i.hdr = hdrOf w0 ∧ (encode i = [w0] ∨ encode i = [w0, w1]) := by
  have hlt := (fld w0 31 1).isLt
  obtain hp | hp : (fld w0 31 1).toNat = 0 ∨ (fld w0 31 1).toNat = 1 := by omega
  · rw [decodeRaw_of_shared hp] at h
    obtain ⟨hh, he, hw⟩ := encodeShared_of_decodeShared hp h
    exact ⟨hh, he ▸ hw⟩
  · rw [decodeRaw_of_ownSpace hp] at h
    obtain ⟨hh, he, hw⟩ := encodePrivate_of_decodePrivate k hp h
    exact ⟨hh, he ▸ hw⟩

/-- The words that the encoder gives a well-formed instruction spell it, a one-word form whatever word follows. -/
theorem decode_of_encode {k : SeqName} {sh : Bool} {w0 w1 : Word} {i : Instr} (hw : i.wf k sh = true)
    (he : encode i = [w0] ∨ encode i = [w0, w1]) : decode k sh w0 w1 = some i := by
  rw [decode_eq_some]
  refine ⟨?_, hw⟩
  rw [encode_of_wf hw] at he
  obtain hs | hp := encodeShared_nil_or_encodePrivate_nil i k
  · rw [hs, List.nil_append] at he
    obtain ⟨hb, hd⟩ := decodePrivate_of_encodePrivate k he
    rw [decodeRaw_of_ownSpace hb, hd]
  · rw [hp, List.append_nil] at he
    obtain ⟨hb, hd⟩ := decodeShared_of_encodeShared he
    rw [decodeRaw_of_shared hb, hd]

/-- Settles O2: the words of a well-formed instruction are one or two, and `decode_of_encode` reads them. -/
theorem encodeThenDecode : Obligations.EncodeThenDecode := by
  unfold Obligations.EncodeThenDecode
  intro k sh i next hw
  refine decode_of_encode hw ?_
  obtain hl | hl := len_of_wf hw <;> rw [← length_encode] at hl
  · obtain ⟨a, ha⟩ := List.length_eq_one_iff.1 hl
    exact .inl (by rw [ha]; rfl)
  · obtain ⟨a, b, hab⟩ := List.length_eq_two.1 hl
    exact .inr (by rw [hab]; rfl)

/-- Settles O3: of the two ways to spell an instruction (`encode_of_decodeRaw`) its length names the one. -/
theorem decodeThenEncode : Obligations.DecodeThenEncode := by
  unfold Obligations.DecodeThenEncode
  intro k sh w0 w1 i h
  have hl := length_encode i
  obtain he | he := (encode_of_decodeRaw (decode_eq_some.1 h).1).2 <;> rw [he] at hl ⊢
  · exact (if_neg fun h2 => absurd (hl.trans h2) (Nat.ne_of_beq_eq_false rfl)).symm
  · exact (if_pos hl.symm).symm

/-- Settles O1: the worked words are evaluated; what decodes is well-formed, and has the header of its word. -/
theorem workedWordsDecode : Obligations.WorkedWordsDecode := by
  unfold Obligations.WorkedWordsDecode
  refine ⟨by decide, fun k sh w0 w1 i h => ?_⟩
  obtain ⟨hr, hw⟩ := decode_eq_some.1 h
  exact ⟨hw, len_of_wf hw, (encode_of_decodeRaw hr).1, eq_scl_of_sq hw⟩

end Sys2Proof.Codec
end

section
/-! SUPPORT. Issue: what a guarded form with a false guard, a form that reads a special register and a landing write to i0 or p0 do
(02 R27, R28, R32, 05 R110 to R112). -/

namespace Sys2Proof.Machine
open Host

theorem xr_setX_of_ne_zero {q : Seq} {r : XReg} (hr : r ≠ 0) (k : XReg) (v : Dword) :
    (q.setX r v).xr k = if k = r then v else q.xr k := by
  simp only [xr_setX, and_iff_left hr]

theorem pr_setP_of_ne_zero {q : Seq} {r : PReg} (hr : r ≠ 0) (k : PReg) (v : Bool) :
    (q.setP r v).pr k = if k = r then v else q.pr k := by
  simp only [pr_setP, and_iff_left hr]

@[simp] theorem setX_zero (q : Seq) (v : Dword) : q.setX 0 v = q := rfl

@[simp] theorem setP_zero (q : Seq) (v : Bool) : q.setP 0 v = q := rfl

theorem landOne_setX {now : List Eff} {s : State} {e : Eff} {q : SeqId} {r : XReg} {v : Dword} {x : Bool} (he : e.op = .setX q r v x) :
    State.landOne now s e = s.setSeq q ((s.seq q).setX r v) := by
  unfold State.landOne; rw [he]; rfl

theorem landOne_setP {now : List Eff} {s : State} {e : Eff} {q : SeqId} {r : PReg} {v x : Bool} (he : e.op = .setP q r v x) :
    State.landOne now s e = s.setSeq q ((s.seq q).setP r v) := by
  unfold State.landOne; rw [he]; rfl

/-- A write to i0 that lands is discarded (02 R27). -/
theorem landOne_setX_zero {now : List Eff} {s : State} {e : Eff} {q : SeqId} {v : Dword} {x : Bool} (he : e.op = .setX q 0 v x) :
    State.landOne now s e = s := by
  rw [landOne_setX he, setX_zero, setSeq_self]

/-- A write to p0 that lands is discarded (02 R27). -/
theorem landOne_setP_zero {now : List Eff} {s : State} {e : Eff} {q : SeqId} {v x : Bool} (he : e.op = .setP q 0 v x) :
    State.landOne now s e = s := by
  rw [landOne_setP he, setP_zero, setSeq_self]

/-- Only a shepherd core reads `FLAGS` as zero (15 R337). -/
theorem flagsNow_of_not_isShep {s : State} (hs : isShep s.cur.unit = false) : s.flagsNow = s.here.flags := by
  simp [State.flagsNow, hs]

/-- Only on a shepherd core is a clearing of flags without effect (15 R337). -/
theorem laterClear_of_not_isShep {s : State} (hs : isShep s.cur.unit = false) (h : Hdr) (reg : Bool) (f : Flags) :
    s.laterClear h reg f = s.later h (s.cyc + 2) reg true (.clearFlags s.cur.unit f) := by
  simp [State.laterClear, hs]

/-- An instruction whose meaning is `issue` of a body, and that issues with its own effect, does what the body answers. -/
theorem exec_of_issue {i : Instr} {h : Hdr} {len : Nat} {a : Ask} {body : State → Verdict} {s t : State}
    (he : exec i s = issue h len a body s) (hi : s.issues h a) (hb : body s = .ok t) : exec i s = .next (t.retire len 0) :=
  he.trans (issue_ok hi hb)

theorem exec_sel (h : Hdr) (xd xa xb : XReg) (pg : PReg) (s : State) : exec (.sel h xd xa xb pg) s =
    issue h 1 { reads := [.x s.cur xa, .x s.cur xb, .p s.cur pg], writes := [.x s.cur xd] }
      (fun s => .ok (s.laterX h xd 1 (if s.pr pg then s.xr xa else s.xr xb))) s := rfl

theorem exec_mfs (h : Hdr) (xd : XReg) (n : BitVec 12) (s : State) : exec (.mfs h xd n) s =
    issue h 1 { writes := [.x s.cur xd] } (fun s => .ok (s.laterX h xd 1 (s.sreg n.toNat))) s := rfl

theorem exec_mts_shp (h : Hdr) (xa : XReg) (s : State) (hi : s.issues h { reads := [.x s.cur xa] }) : exec (.mts h xa 0x009) s =
    .next ((s.later h (s.cyc + 2) true true (.setShp s.cur.unit ((s.xr xa).setWidth 8))).retire 1 0) := by
  have he : exec (.mts h xa 0x009) s = issue h 1 { reads := [.x s.cur xa] }
      (fun s => .ok (s.later h (s.cyc + 2) true true (.setShp s.cur.unit ((s.xr xa).setWidth 8)))) s := rfl
  exact exec_of_issue he hi rfl

theorem exec_mts_flags (h : Hdr) (xa : XReg) (s : State) : exec (.mts h xa 0x007) s =
    issue h 1 { reads := [.x s.cur xa] } (fun s => .ok (s.laterClear h true ((s.xr xa).setWidth 16))) s := rfl

theorem exec_rdt (h : Hdr) (xd : XReg) (s : State) : exec (.rdt h xd) s =
    issue h 1 { writes := [.x s.cur xd] } (fun s => .ok (s.laterX h xd 1 (BitVec.ofNat 64 s.drone))) s := rfl

theorem exec_rdc (h : Hdr) (xd : XReg) (s : State) : exec (.rdc h xd) s =
    issue h 1 { writes := [.x s.cur xd] } (fun s => .ok (s.laterX h xd 1 (BitVec.ofNat 64 s.cyc))) s := rfl

theorem exec_rdslip (h : Hdr) (xd : XReg) (s : State) : exec (.rdslip h xd) s =
    issue h 1 { writes := [.x s.cur xd] } (fun s => .ok (s.laterX h xd 1 (BitVec.ofNat 64 (s.n65 / 65 - s.cyc)))) s := rfl

theorem exec_pitchq (h : Hdr) (xd : XReg) (s : State) : exec (.pitchq h xd) s =
    issue h 1 { writes := [.x s.cur xd] } (fun s => .ok (s.laterX h xd 1 s.pitchStatus)) s := rfl

theorem exec_flgrd (h : Hdr) (xd : XReg) (s : State) : exec (.flgrd h xd) s =
    issue h 1 { writes := [.x s.cur xd] } (fun s => .ok (s.laterX h xd 1 (s.flagsNow.setWidth 64))) s := rfl

theorem exec_flgclr (h : Hdr) (mask : BitVec 16) (s : State) : exec (.flgclr h mask) s =
    issue h 1 {} (fun s => .ok (s.laterClear h false mask)) s := rfl

theorem exec_flgtst (h : Hdr) (pd : PReg) (mask : BitVec 16) (s : State) : exec (.flgtst h pd mask) s =
    issue h 1 { writes := [.p s.cur pd] } (fun s => .ok (s.laterP h pd 1 (s.flagsNow &&& mask != 0))) s := rfl

theorem exec_xset (h : Hdr) (n : BitVec 2) (xd xa : XReg) (s : State) : exec (.xset h n xd xa) s =
    issue h 1 { reads := [.x s.cur xa], writes := [.x ⟨s.cur.unit, seqNamed n.toNat⟩ xd] }
      (fun s => .ok (s.later h (s.cyc + 4) true true (.setX ⟨s.cur.unit, seqNamed n.toNat⟩ xd (s.xr xa) true))) s := rfl

theorem exec_xsetp (h : Hdr) (n : BitVec 2) (pd ps : PReg) (s : State) : exec (.xsetp h n pd ps) s =
    issue h 1 { reads := [.p s.cur ps], writes := [.p ⟨s.cur.unit, seqNamed n.toNat⟩ pd] }
      (fun s => .ok (s.later h (s.cyc + 4) true true (.setP ⟨s.cur.unit, seqNamed n.toNat⟩ pd (s.pr ps) true))) s := rfl

/-- `MFS` writes the special register that it names, as it reads at issue (05 R111). -/
theorem exec_mfs_of_sreg {h : Hdr} {xd : XReg} {n : BitVec 12} {v : Dword} {s : State} (hi : s.issues h { writes := [.x s.cur xd] })
    (hv : s.sreg n.toNat = v) : exec (.mfs h xd n) s = .next ((s.laterX h xd 1 v).retire 1 0) :=
  exec_of_issue (exec_mfs h xd n s) hi (by rw [hv])

theorem sreg_flags {s : State} (hs : isShep s.cur.unit = false) : s.sreg 0x007 = s.here.flags.setWidth 64 := by
  rw [← flagsNow_of_not_isShep hs]; rfl

end Sys2Proof.Machine
end

section
/-! OBLIGATIONS. False guards, i0 and p0, special registers. -/

open Sys2Proof Sys2Proof.Machine Host

/-- Settles O7: each of these forms is `guarded`, and SEL is not. -/
theorem guardFalseHasNoEffect : Obligations.GuardFalseHasNoEffect := by
  intro h pg s hp hi
  refine ⟨fun xd xa xb cond => ?_, fun vd va vb xa nan q => ?_, fun vd va vb vc ac row0 col0 fmt sat tr => ?_, fun xd xa xb hs => ?_⟩
  · repeat refine List.forall_mem_cons.2 ⟨guarded_false hp hi, ?_⟩
    exact List.forall_mem_nil _
  · repeat refine List.forall_mem_cons.2 ⟨guarded_false hp hi, ?_⟩
    exact List.forall_mem_nil _
  · repeat refine List.forall_mem_cons.2 ⟨guarded_false hp hi, ?_⟩
    exact List.forall_mem_nil _
  · exact exec_of_issue (exec_sel h xd xa xb pg s) hs (by simp [hp])

/-- Settles O8. -/
theorem indexAndPredicateZero : Obligations.IndexAndPredicateZero :=
  ⟨fun q v b => ⟨xr_zero q, pr_zero q, setX_zero q v, setP_zero q b⟩,
    fun _ _ k v hr => xr_setX_of_ne_zero hr k v,
    fun _ _ k v hr => pr_setP_of_ne_zero hr k v,
    fun _ _ _ _ _ _ he => landOne_setX_zero he,
    fun _ _ _ _ _ _ he => landOne_setP_zero he⟩

/-- Settles O17: each form issues with the one operation that its table row names. -/
theorem specialRegisterForms : Obligations.SpecialRegisterForms := by
  intro h xd xa pd ps s
  refine ⟨fun hi => ⟨?_, exec_of_issue (exec_rdt h xd s) hi rfl, exec_of_issue (exec_rdc h xd s) hi rfl,
    exec_of_issue (exec_rdslip h xd s) hi rfl, exec_of_issue (exec_pitchq h xd s) hi rfl, fun hs => ⟨?_, ?_⟩⟩, fun hi => exec_mfs_of_sreg hi rfl,
    exec_mts_shp h xa s, fun hi hs => ?_, fun mask hs => ⟨fun hi => ?_, fun hi => ?_⟩, ?_, fun _ _ _ _ _ he => landOne_setX_zero he⟩
  · repeat refine List.forall_mem_cons.2 ⟨exec_mfs_of_sreg hi rfl, ?_⟩
    exact List.forall_mem_nil _
  · exact exec_mfs_of_sreg hi (sreg_flags hs)
  · exact exec_of_issue (exec_flgrd h xd s) hi (by rw [flagsNow_of_not_isShep hs])
  · exact exec_of_issue (exec_mts_flags h xa s) hi (by rw [laterClear_of_not_isShep hs])
  · exact exec_of_issue (exec_flgclr h mask s) hi (by rw [laterClear_of_not_isShep hs])
  · exact exec_of_issue (exec_flgtst h pd mask s) hi (by rw [flagsNow_of_not_isShep hs])
  · repeat refine List.forall_mem_cons.2 ⟨⟨fun hi => exec_of_issue (exec_xset h _ xd xa s) hi rfl, fun hi => exec_of_issue (exec_xsetp h _ pd ps s) hi rfl⟩, ?_⟩
    exact List.forall_mem_nil _

end

section
/-! SUPPORT. A step of the issue phase: what the sequencer whose turn has come fetches and does (02 R16 to R22, R40, R41, 05 R83). -/

namespace Sys2Proof.Machine
open Host

/-- The state in which the sequencer `q` takes its turn, with `rest` left for later. -/
def State.atTurn (s : State) (q : SeqId) (rest : List SeqId) : State := { s with turn := rest, cur := q }

/-- A node is found under its own number. -/
theorem nd_of_node?_eq_some {s : State} {nd : Nat} {n : Node} (hn : s.node? nd = some n) : n.nd = nd := by
  simpa using List.find?_some hn

/-- The words at the program counter decode, and a wide form lies inside the pinned code with both (02 R21, R40). -/
theorem fetch_eq_some {s : State} {n : Node} {q : SeqId} {w0 : Word} {i : Instr}
    (hw : s.fetchWord n (isShep q.unit) (s.seq q).pc = some w0)
    (hd : decode q.q (isShep q.unit) w0 ((s.fetchWord n (isShep q.unit) ((s.seq q).pc + 4)).getD 0) = some i)
    (hl : i.len = 2 → (s.fetchWord n (isShep q.unit) ((s.seq q).pc + 4)).isSome = true) : s.fetch n q = some i := by
  have hl' : (decide (i.len = 2) && (s.fetchWord n (isShep q.unit) ((s.seq q).pc + 4)).isNone) = false := by
    by_cases h2 : i.len = 2
    · rw [Option.isNone_eq_false_iff.2 (hl h2), Bool.and_false]
    · simp [h2]
  unfold State.fetch
  simp only [hw, hd]
  exact if_neg (by rw [hl']; exact Bool.false_ne_true)

theorem fetch_eq_none {s : State} {n : Node} {q : SeqId} {w0 : Word} (hw : s.fetchWord n (isShep q.unit) (s.seq q).pc = some w0)
    (hd : decode q.q (isShep q.unit) w0 ((s.fetchWord n (isShep q.unit) ((s.seq q).pc + 4)).getD 0) = none) : s.fetch n q = none := by
  unfold State.fetch
  simp only [hw, hd]

/-! The visit to a sequencer that may issue (02 R40, 05 R83). -/

section
variable {s : State} {q : SeqId} {nd : Nat} {n : Node} {i : Instr}

theorem visit_of_lt_base (hc : (s.core q.unit).node = some nd) (hn : s.node? nd = some n) (hb : s.cyc < (s.seq q).base) :
    s.visit q = .idle := by
  have hbind : (s.core q.unit).node.bind s.node? = some n := by rw [hc]; exact hn
  unfold State.visit
  simp [hbind, hb]

theorem visit_of_illegal (hc : (s.core q.unit).node = some nd) (hn : s.node? nd = some n) (ht : s.turnOf n q = .issues)
    (hb : (s.seq q).base ≤ s.cyc) (hf : s.fetch n q = none) : s.visit q = .illegal nd := by
  have hbind : (s.core q.unit).node.bind s.node? = some n := by rw [hc]; exact hn
  unfold State.visit
  simp [hbind, ht, hf, hb, nd_of_node?_eq_some hn]

theorem visit_of_lt_idle (hc : (s.core q.unit).node = some nd) (hn : s.node? nd = some n) (ht : s.turnOf n q = .issues)
    (hf : s.fetch n q = some i) (hi : s.cyc < (s.seq q).base + i.hdr.idle.toNat) (hl : ({ s with cur := q } : State).illegalNow i = false) :
    s.visit q = .idle := by
  have hbind : (s.core q.unit).node.bind s.node? = some n := by rw [hc]; exact hn
  unfold State.visit
  simp [hbind, ht, hf, hi, hl]

theorem visit_of_due (hc : (s.core q.unit).node = some nd) (hn : s.node? nd = some n) (ht : s.turnOf n q = .issues)
    (hf : s.fetch n q = some i) (hb : (s.seq q).base ≤ s.cyc)
    (hi : (s.seq q).base + i.hdr.idle.toNat ≤ s.cyc ∨ ({ s with cur := q } : State).illegalNow i = true) : s.visit q = .run i := by
  have hbind : (s.core q.unit).node.bind s.node? = some n := by rw [hc]; exact hn
  unfold State.visit
  rcases hi with hi | hi
  · simp [hbind, ht, hf, hb, Nat.not_lt.2 hi]
  · simp [hbind, ht, hf, hb, hi]

end

/-- What the sequencer current in `s` does when it is visited. -/
def State.visited (s : State) (q : SeqId) : Res :=
  match s.visit q with
  | .idle => .next s
  | .illegal nd => .next (s.illegalWord nd)
  | .run i => exec i s
  | .probe i => .next (match exec i s with | .next t => s.noteCut q i t | _ => s)

/-- A step of the issue phase is the visit to the sequencer whose turn has come. -/
theorem step_issue {s : State} {q : SeqId} {rest : List SeqId} (hp : s.phase = .issue) (ht : s.turn = q :: rest) :
    step s = (s.atTurn q rest).visited q := by
  cases s
  cases hp
  cases ht
  rfl

/-- A word inside the pinned code is what the code store holds there (02 R21). -/
theorem fetchWord_eq_some {s : State} {n : Node} {sh : Bool} {pc : Dword} {w : Word} (hw : s.fetchWord n sh pc = some w) :
    s.codeWord sh pc.toNat = w := by
  unfold State.fetchWord at hw
  split at hw
  · exact Option.some.inj hw
  · exact absurd hw (by simp)

/-- An illegal word of the current sequencer is squashable (02 R41). -/
def State.illegalSq (s : State) : Bool := s.cur.q == .scl && wordSq (s.codeWord (isShep s.cur.unit) s.me.pc.toNat)

theorem illegalWord_of_held {s : State} (nd : Nat) (hq : s.illegalSq = true) (hu : s.unresolved.isSome = true ∨ s.killing = true) :
    s.illegalWord nd = s := by
  have hu' : (s.unresolved.isSome || s.killing) = true := by simpa using hu
  exact if_pos (show (s.illegalSq && (s.unresolved.isSome || s.killing)) = true by rw [hq, hu']; rfl)

theorem illegalWord_of_raised {s : State} (nd : Nat) (hq : s.illegalSq = false ∨ (s.unresolved = none ∧ s.killing = false)) :
    s.illegalWord nd = s.addCause { node := nd, rank := 3, unit := s.cur.unit.val, seq := some (s.cur.q, s.me.pc), r := { code := .illegal } } := by
  have hq' : ¬ (s.illegalSq && (s.unresolved.isSome || s.killing)) = true := by
    rcases hq with hq | ⟨hu, hk⟩
    · simp [hq]
    · simp [hu, hk]
  exact if_neg hq'

theorem redirects_scl {s : State} {u : UnitId} {t : Dword} (hr : (s.core u).scl.redirect = some t) (hw : (s.core u).scl.wait = none) :
    (s.redirects.core u).scl = { (s.core u).scl with pc := t, base := s.cyc + 1, redirect := none, held := false } := by
  have hc : s.redirects.core u = match (s.core u).scl.redirect with
      | some t =>
        if (s.core u).scl.wait.isSome then { (s.core u) with scl := { (s.core u).scl with after := some t, redirect := none } }
        else { (s.core u) with scl := { (s.core u).scl with pc := t, base := s.cyc + 1, redirect := none, held := false } }
      | none => s.core u := Vector.getElem_map _ u.isLt
  rw [hc, hr, hw]
  rfl

end Sys2Proof.Machine
end

section
/-! OBLIGATIONS. A step runs the instruction that its words decode to; illegal words. -/

open Sys2Proof Sys2Proof.Machine Host

/-- Settles O4. -/
theorem stepRunsDecodedInstruction : Obligations.StepRunsDecodedInstruction := by
  refine ⟨fun s q rest nd n w0 i hp ht hc hn hturn hw hd hl hb hidle => ?_, fun s q rest nd n w0 i hp ht hc hn hturn hw hd hl hearly => ?_⟩
  · have hv : (s.atTurn q rest).visit q = .run i :=
      visit_of_due (s := s.atTurn q rest) hc hn hturn (fetch_eq_some hw hd hl) hb hidle
    rw [step_issue hp ht, State.visited, hv]; rfl
  · have hv : (s.atTurn q rest).visit q = .idle := by
      rcases hearly with hb | ⟨hi, hill⟩
      · exact visit_of_lt_base (s := s.atTurn q rest) hc hn hb
      · exact visit_of_lt_idle (s := s.atTurn q rest) hc hn hturn (fetch_eq_some hw hd hl) hi hill
    rw [step_issue hp ht, State.visited, hv]; rfl

/-- Settles O5. -/
theorem illegalWordRaisesIllegal : Obligations.IllegalWordRaisesIllegal := by
  refine ⟨fun s q rest nd n w0 hp ht hc hn hturn hb hw hd => ?_, fun s u t hr hwait => ?_⟩
  · have hv : (s.atTurn q rest).visit q = .illegal nd :=
      visit_of_illegal (s := s.atTurn q rest) hc hn hturn hb (fetch_eq_none hw hd)
    have hstep : step s = .next ((s.atTurn q rest).illegalWord nd) := by rw [step_issue hp ht, State.visited, hv]
    have hsq : (s.atTurn q rest).illegalSq = (q.q == .scl && wordSq w0) := by rw [← fetchWord_eq_some hw]; rfl
    refine ⟨fun hq hs hu => ?_, fun hq hs hu hk => ?_, fun hq => ?_⟩
    · rw [hstep, illegalWord_of_held (s := s.atTurn q rest) nd (by simp [hsq, hq, hs]) hu]; rfl
    · rw [hstep, illegalWord_of_raised (s := s.atTurn q rest) nd (.inr ⟨hu, hk⟩)]; rfl
    · rw [hstep, illegalWord_of_raised (s := s.atTurn q rest) nd (.inl (by rw [hsq]; rcases hq with hq | hq <;> simp [hq]))]; rfl
  · rw [redirects_scl hr hwait]
    exact ⟨rfl, rfl, rfl⟩

end

section
/-! SUPPORT. The gate of the waiting forms and of the forms that serialise SCL (02 R39, 05 R86, R90, 06 R121). -/

namespace Sys2Proof.Machine
open Host

/-! A form that can wait issues as any other where no wait of it is in progress. -/

section
variable {s : State} (hw : s.me.wait = none)
include hw

theorem waitForm_of_no_wait (h : Hdr) (reads : List Dest) (what : State → WaitFor) (tmo : State → Dword) :
    waitForm h reads what tmo s = issue h 1 { reads := reads, waiting := true, serial := true }
      (fun s => if s.waitMet s.cur (what s) then .ok s else .hold (s.beginWait h (what s) (tmo s))) s := by
  unfold waitForm; rw [hw]

theorem exec_align_of_no_wait (h : Hdr) (lvl : BitVec 2) (seg : BitVec 8) (xa : XReg) (budget : BitVec 32) :
    ∃ body, exec (.align h lvl seg xa budget) s = issue h 2 { reads := [.x s.cur xa], serial := true } body s := by
  change ∃ body, execAlign h lvl seg xa budget s = _
  unfold execAlign; rw [hw]; exact ⟨_, rfl⟩

theorem exec_bar_of_no_wait (h : Hdr) (lvl : BitVec 3) (xt : XReg) :
    ∃ body, exec (.bar h lvl xt) s = issue h 1 { reads := [.x s.cur xt], waiting := true, serial := true } body s := by
  change ∃ body, execBar h lvl xt s = _
  unfold execBar; rw [hw]; exact ⟨_, rfl⟩

theorem exec_waita_of_no_wait (h : Hdr) (xa xb : XReg) (cond : BitVec 3) (xt : XReg) (size : BitVec 1) (oc : BitVec 4) (ord : BitVec 3) :
    ∃ body, exec (.waita h xa xb cond xt size oc ord) s =
      issue h 2 { reads := [.x s.cur xa, .x s.cur xb, .x s.cur xt], waiting := true, serial := true } body s := by
  change ∃ body, execWaita h xa xb cond xt size oc ord s = _
  unfold execWaita; rw [hw]; exact ⟨_, rfl⟩

theorem exec_collw_of_no_wait (h : Hdr) (hd : BitVec 6) (xt : XReg) :
    ∃ body, exec (.collw h hd xt) s = issue h 1 { reads := [.x s.cur xt], waiting := true, serial := true } body s := by
  change ∃ body, execCollw h hd xt s = _
  unfold execCollw
  split
  · exact ⟨_, rfl⟩
  · exact ⟨_, waitForm_of_no_wait hw ..⟩

end

/-- A waiting form is illegal in aligned mode, but in the shadow of a branch where it is squashable (02 R39, 06 R121). -/
theorem issue_waiting_of_aligned {h : Hdr} {s : State} (ha : s.me.aligned = true) (hk : (h.sq && (s.killing || s.unresolved.isSome)) = false)
    (len : Nat) (a : Ask) (body : State → Verdict) (hw : a.waiting = true) :
    issue h len a body s = .next (s.raise h len { code := .illegal }) := by
  have hkill : (h.sq && s.killing) = false := by cases hsq : h.sq <;> simp_all
  have hheld : (a.serial && h.sq && s.unresolved.isSome) = false := by cases hsq : h.sq <;> simp_all
  have hg : s.gate h a = .fault { code := .illegal } := by simp [State.gate, hheld, hw, ha]
  unfold issue
  simp [hg, hkill]

/-- In the shadow of a branch, the gate of a form that serialises SCL (06 R121). -/
theorem gate_serial_of_unresolved {h : Hdr} {s : State} {a : Ask} (hq : s.cur.q = .scl) (hu : s.unresolved.isSome = true)
    (hser : a.serial = true) (hill : a.illegal = false) :
    s.gate h a =
      if !s.me.aligned && (a.reads ++ a.writes).any s.pending then .wait
      else if h.sq then .hold else .fault { code := .illegal } := by
  have hsh : s.inShadow = true := by simp [State.inShadow, hq, hu]
  unfold State.gate
  cases hsq : h.sq <;> cases ha : s.me.aligned <;> simp [hser, hill, hu, hsh]

/-- What a form that serialises SCL does in the shadow of a branch, after it has read its registers: a pending one puts it off in free
mode, else it is held with SQ = 1 and illegal with SQ = 0 (05 R86, 06 R121). -/
def State.serialInShadow (s : State) (h : Hdr) (reads : List Dest) (r : Res) : Prop :=
  (s.me.aligned = false → (∃ d ∈ reads, s.pending d = true) → r = .next s) ∧
  (s.me.aligned = true ∨ (∀ d ∈ reads, s.pending d = false) →
    (h.sq = true → r = .next (s.setMe { s.me with issued := s.me.counted, held := true })) ∧
    (h.sq = false → r = .next (s.raiseAt s.cur s.me.pc s.myNode { code := .illegal })))

/-- In a branch's shadow the fault of a form that is not squashable is raised at once (06 R120). -/
theorem raise_of_not_sq {h : Hdr} (s : State) (len : Nat) (r : Raise) (hsq : h.sq = false) :
    s.raise h len r = s.raiseAt s.cur s.me.pc s.myNode r := by
  unfold State.raise
  split <;> simp [hsq]

theorem issue_serialInShadow {h : Hdr} {s : State} (hq : s.cur.q = .scl) (hu : s.unresolved.isSome = true) {len : Nat} {reads : List Dest}
    {w : Bool} {body : State → Verdict} :
    s.serialInShadow h reads (issue h len { reads := reads, waiting := w, serial := true } body s) := by
  have hg := gate_serial_of_unresolved (h := h) (a := { reads := reads, waiting := w, serial := true }) hq hu rfl rfl
  refine ⟨fun ha hd => ?_, fun hd => ?_⟩
  · have hp : reads.any s.pending = true := List.any_eq_true.2 hd
    unfold issue
    simp [hg, ha, hp]
  · have hp : (!s.me.aligned && reads.any s.pending) = false := by
      rcases hd with ha | hd
      · simp [ha]
      · rw [List.any_eq_false.2 (fun d hm => by simp [hd d hm]), Bool.and_false]
    refine ⟨fun hsq => ?_, fun hsq => ?_⟩
    · unfold issue
      simp only [hg, List.append_nil, hp, hsq]
      rfl
    · unfold issue
      simp [hg, hp, hsq, raise_of_not_sq s len _ hsq]

/-- As `issue_serialInShadow`, of what is an issue of some body. -/
theorem serialInShadow_of_issue {h : Hdr} {s : State} {r : Res} (hq : s.cur.q = .scl) (hu : s.unresolved.isSome = true) {len : Nat}
    {reads : List Dest} {w : Bool} (he : ∃ body, r = issue h len { reads := reads, waiting := w, serial := true } body s) :
    s.serialInShadow h reads r := by
  obtain ⟨body, rfl⟩ := he
  exact issue_serialInShadow hq hu

end Sys2Proof.Machine
end

section
/-! OBLIGATIONS. The gate. -/

open Sys2Proof Sys2Proof.Machine Host

/-- Settles O9: the gate's verdict, read off for each form. -/
theorem gateOfWaitingAndSerialisingForms : Obligations.GateOfWaitingAndSerialisingForms := by
  refine ⟨fun h s ha hw hk => ⟨fun xa xt lvl ctx hd => ?_, fun xa xb xt cond size oc ord => ?_⟩,
    fun h s hq hu hw off n lvl ctx xa xb xt len p neg size mask count budget seg blvl cond ord hd oc => ?_⟩
  · have hissue (i : Instr) (reads : List Dest) (he : ∃ body, exec i s = issue h 1 { reads := reads, waiting := true, serial := true } body s) :
        exec i s = .next (s.raise h 1 { code := .illegal }) := by
      obtain ⟨body, he⟩ := he
      rw [he, issue_waiting_of_aligned ha hk 1 _ body rfl]
    simp only [List.forall_mem_cons]
    exact ⟨hissue _ _ (exec_bar_of_no_wait hw h lvl xt), hissue _ _ ⟨_, waitForm_of_no_wait hw ..⟩, hissue _ _ ⟨_, waitForm_of_no_wait hw ..⟩,
      hissue _ _ ⟨_, waitForm_of_no_wait hw ..⟩, hissue _ _ ⟨_, waitForm_of_no_wait hw ..⟩, hissue _ _ ⟨_, waitForm_of_no_wait hw ..⟩,
      hissue _ _ (exec_collw_of_no_wait hw h hd xt), List.forall_mem_nil _⟩
  · obtain ⟨body, he⟩ := exec_waita_of_no_wait hw h xa xb cond xt size oc ord
    rw [he, issue_waiting_of_aligned ha hk 2 _ body rfl]
  · intro x
    change ∀ k ∈ (_ : List (Instr × List Dest)), s.serialInShadow h k.2 (exec k.1 s)
    have held {reads : List Dest} {len : Nat} {w : Bool} (r : Res)
        (he : ∃ body, r = issue h len { reads := reads, waiting := w, serial := true } body s) :
        s.serialInShadow h reads r := serialInShadow_of_issue hq hu he
    simp only [List.forall_mem_cons]
    exact ⟨held (execJ h off s) ⟨_, rfl⟩, held (execCall h off s) ⟨_, rfl⟩, held (execRet h s) ⟨_, rfl⟩, held (execRelax h s) ⟨_, rfl⟩,
      held (execWait h n s) ⟨_, rfl⟩, held (execEnd h s) ⟨_, rfl⟩, held (execTrap h n s) ⟨_, rfl⟩, held (execBrk h n s) ⟨_, rfl⟩,
      held (execChkF h mask s) ⟨_, rfl⟩, held (execLoopi h lvl len count s) ⟨_, rfl⟩, held (execLoop h lvl xa len s) ⟨_, rfl⟩,
      held (execJx h xa s) ⟨_, rfl⟩, held (execCallx h xa s) ⟨_, rfl⟩, held (execChkP h p neg s) ⟨_, rfl⟩,
      held _ (exec_align_of_no_wait hw h lvl seg xa budget), held _ (exec_bar_of_no_wait hw h blvl xt),
      held _ ⟨_, waitForm_of_no_wait hw ..⟩, held _ ⟨_, waitForm_of_no_wait hw ..⟩, held _ ⟨_, waitForm_of_no_wait hw ..⟩,
      held _ ⟨_, waitForm_of_no_wait hw ..⟩, held _ ⟨_, waitForm_of_no_wait hw ..⟩, held _ (exec_collw_of_no_wait hw h hd xt),
      held _ (exec_waita_of_no_wait hw h xa xb cond xt size oc ord), List.forall_mem_nil _⟩

end

section
/-! SUPPORT. The frame of an issue: what no instruction changes when it issues (02 R27, 05 R84, 06 R119, 07 R132), proved once for each
operation on the state that the instructions are made of. -/

namespace Sys2Proof.Machine
open Host

/-! ### The frame -/

/-- The index registers and predicates of a sequencer. -/
def Seq.regs (q : Seq) : Vector Dword 32 × Vector Bool 8 := (q.x, q.p)

/-- What a core holds that an instruction writes only when its operation lands, but for its tags. -/
def Core.regs (c : Core) :=
  (c.tiles, c.accs, c.planes, c.rows, c.ft, c.shp, c.flags, c.fold, c.nodeId, c.attempt, c.phases, c.tlc, c.tagsAt, c.tagsSet)

/-- As `regs`, with the tags and the sequencers. -/
def Core.held (c : Core) := (c.regs, c.tags, c.scl, c.ld, c.cmp, c.st)

/-- What no instruction changes of the state outside the cores. -/
def State.fixed (s : State) :=
  (s.cur, s.cyc, s.queues, s.parts, s.ports, s.images, s.group, s.keys, s.roots, s.drone, s.pitch, s.epoch, s.n65, s.stage, s.ready, s.alarm,
    s.transit, s.retired, s.spad, s.spadSeed, s.dev, s.devKeys, s.host, s.code, s.codeSh)

/-- Two tag registers agree, but for a tag that a completion has set on the cycle `cyc`. -/
def Core.tagsKept (c d : Core) (cyc : Nat) : Prop :=
  ∀ j, d.tags.getLsbD j = c.tags.getLsbD j ∨ (c.tagsAt = cyc ∧ c.tagsSet.getLsbD j = true)

/-- What an issue leaves as it was, and the operations and causes that it does not lose. -/
structure State.Frame (s t : State) : Prop where
  fixed : t.fixed = s.fixed
  regs : t.here.regs = s.here.regs
  tags : s.here.tagsKept t.here s.cyc
  mine : t.me.regs = s.me.regs
  seqs : ∀ q, q ≠ s.cur.q → t.here.seq q = s.here.seq q
  cores : ∀ u, u ≠ s.cur.unit → t.core u = s.core u
  effs : s.effs ⊆ t.effs
  causes : s.causes ⊆ t.causes

theorem Core.tagsKept_refl (c : Core) (cyc : Nat) : c.tagsKept c cyc := fun _ => .inl rfl

theorem Core.tagsKept_of_eq {c d : Core} (cyc : Nat) (h : d.tags = c.tags) : c.tagsKept d cyc := fun _ => .inl (by rw [h])

theorem Core.tagsKept_trans {c d e : Core} {cyc : Nat} (hr : d.regs = c.regs) (h₁ : c.tagsKept d cyc) (h₂ : d.tagsKept e cyc) :
    c.tagsKept e cyc := by
  have hat : d.tagsAt = c.tagsAt := congrArg (fun r => r.2.2.2.2.2.2.2.2.2.2.2.2.1) hr
  have hset : d.tagsSet = c.tagsSet := congrArg (fun r => r.2.2.2.2.2.2.2.2.2.2.2.2.2) hr
  intro j
  rcases h₂ j with hj | hj
  · rw [hj]; exact h₁ j
  · rw [hat, hset] at hj; exact .inr hj

namespace State.Frame
variable {s t v : State}

theorem cur (h : s.Frame t) : t.cur = s.cur := congrArg (fun r => r.1) h.fixed

theorem cyc (h : s.Frame t) : t.cyc = s.cyc := congrArg (fun r => r.2.1) h.fixed

@[refl] theorem refl (s : State) : s.Frame s :=
  ⟨rfl, rfl, Core.tagsKept_refl _ _, rfl, fun _ _ => rfl, fun _ _ => rfl, List.Subset.refl _, List.Subset.refl _⟩

theorem trans (h₁ : s.Frame t) (h₂ : t.Frame v) : s.Frame v where
  fixed := h₂.fixed.trans h₁.fixed
  regs := h₂.regs.trans h₁.regs
  tags := Core.tagsKept_trans h₁.regs h₁.tags (h₁.cyc ▸ h₂.tags)
  mine := h₂.mine.trans h₁.mine
  seqs q hq := (h₂.seqs q (h₁.cur ▸ hq)).trans (h₁.seqs q hq)
  cores u hu := (h₂.cores u (h₁.cur ▸ hu)).trans (h₁.cores u hu)
  effs := List.Subset.trans h₁.effs h₂.effs
  causes := List.Subset.trans h₁.causes h₂.causes

/-- A change outside the cores and the fixed part, that loses no operation and no cause. -/
theorem of_cores_eq (hf : t.fixed = s.fixed) (hc : t.cores = s.cores) (he : s.effs ⊆ t.effs) (hk : s.causes ⊆ t.causes) : s.Frame t := by
  have hcur : t.cur = s.cur := congrArg (fun r => r.1) hf
  have hcore (u : UnitId) : t.core u = s.core u := by unfold State.core; rw [hc]
  have hhere : t.here = s.here := by unfold State.here; rw [hcur, hcore]
  have hme : t.me = s.me := by unfold State.me State.seq; rw [hcur, hcore]
  exact ⟨hf, by rw [hhere], by rw [hhere]; exact Core.tagsKept_refl _ _, by rw [hme], fun _ _ => by rw [hhere], fun u _ => hcore u, he, hk⟩

end State.Frame

/-! ### Operations on the issuing sequencer and its core -/

theorem setSeq_regs (c : Core) (q : SeqName) (v : Seq) : (c.setSeq q v).regs = c.regs := by cases q <;> rfl

theorem setSeq_tags (c : Core) (q : SeqName) (v : Seq) : (c.setSeq q v).tags = c.tags := by cases q <;> rfl

theorem seq_eq_of_held {c d : Core} (h : d.held = c.held) (q : SeqName) : d.seq q = c.seq q := by
  simp only [Core.held, Prod.mk.injEq] at h
  obtain ⟨-, -, hscl, hld, hcmp, hst⟩ := h
  cases q
  · exact hscl
  · exact hld
  · exact hcmp
  · exact hst

/-- The issuing core with other registers. -/
theorem frame_setCore {s : State} {c : Core} (hr : c.regs = s.here.regs) (ht : s.here.tagsKept c s.cyc)
    (hm : (c.seq s.cur.q).regs = s.me.regs) (hs : ∀ q, q ≠ s.cur.q → c.seq q = s.here.seq q) : s.Frame (s.setCore s.cur.unit c) := by
  have hhere : (s.setCore s.cur.unit c).here = c := core_setCore_same s s.cur.unit c
  have hme : (s.setCore s.cur.unit c).me = c.seq s.cur.q := congrArg (fun c => c.seq s.cur.q) hhere
  refine ⟨rfl, ?_, ?_, ?_, ?_, fun u hu => core_setCore_other s _ u c hu, List.Subset.refl _, List.Subset.refl _⟩
  · rw [hhere]; exact hr
  · rw [hhere]; exact ht
  · rw [hme]; exact hm
  · rw [hhere]; exact hs

theorem advance_regs (q : Seq) (len n cyc : Nat) : (q.advance len n cyc).regs = q.regs := by
  rw [advance_eq]; rfl

namespace State.Frame

section
variable {s t : State} (h : s.Frame t)
include h

theorem setSeq {v : Seq} (hv : v.regs = t.me.regs) : s.Frame (t.setSeq s.cur v) := by
  rw [← h.cur]
  exact h.trans (frame_setCore (setSeq_regs ..) (Core.tagsKept_of_eq _ (setSeq_tags ..)) (by rw [seq_setSeq_core_same]; exact hv)
    (fun q hq => seq_setSeq_core_other _ _ q v hq))

theorem setMe {v : Seq} (hv : v.regs = t.me.regs) : s.Frame (t.setMe v) := by
  have := h.setSeq hv
  rwa [← h.cur] at this

theorem modSeq {f : Seq → Seq} (hf : ∀ v, (f v).regs = v.regs) : s.Frame (t.modSeq s.cur f) := by
  have hme : t.seq s.cur = t.me := by rw [← h.cur]; rfl
  exact h.setSeq (by rw [hme]; exact hf _)

theorem modHere {f : Core → Core} (hf : (f t.here).held = t.here.held) : s.Frame (t.modHere f) := by
  have hseq := seq_eq_of_held hf
  exact h.trans (frame_setCore (congrArg (fun r => r.1) hf) (Core.tagsKept_of_eq _ (congrArg (fun r => r.2.1) hf))
    (congrArg Seq.regs (hseq _)) (fun q _ => hseq q))

theorem modCore {f : Core → Core} (hf : ∀ c, (f c).held = c.held) : s.Frame (t.modCore s.cur.unit f) := by
  rw [← h.cur]
  exact h.modHere (hf _)

theorem retire {len n : Nat} : s.Frame (t.retire len n) := h.setMe (advance_regs ..)

/-! Operations outside the cores. -/

theorem later {hd : Hdr} {at_ : Nat} {reg fixed : Bool} {op : EffOp} : s.Frame (t.later hd at_ reg fixed op) :=
  h.trans (.of_cores_eq rfl rfl (List.subset_append_left _ _) (List.Subset.refl _))

theorem laterX {hd : Hdr} {r : XReg} {lat : Nat} {v : Dword} : s.Frame (t.laterX hd r lat v) := h.later

theorem laterP {hd : Hdr} {r : PReg} {lat : Nat} {v : Bool} : s.Frame (t.laterP hd r lat v) := h.later

theorem put {o : Org} {at_ iss : Nat} {op : EffOp} : s.Frame (t.put o at_ iss op) :=
  h.trans (.of_cores_eq rfl rfl (List.subset_append_left _ _) (List.Subset.refl _))

theorem access {hd : Hdr} {a : Dword} {oc : BitVec 4} {ord : BitVec 3} {at_ commit : Nat} {fixed : Bool} {op : EffOp} {esz : Nat} :
    s.Frame (t.access hd a oc ord at_ commit fixed op esz) :=
  h.trans (.of_cores_eq rfl rfl (List.subset_append_left _ _) (List.Subset.refl _))

theorem addCause {c : Cause} : s.Frame (t.addCause c) :=
  h.trans (.of_cores_eq rfl rfl (List.Subset.refl _) (List.subset_append_left _ _))

theorem raiseAt {q : SeqId} {pc : Dword} {node : Nat} {r : Raise} : s.Frame (t.raiseAt q pc node r) := h.addCause

theorem raiseEff {e : Eff} {r : Raise} : s.Frame (t.raiseEff e r) := by
  unfold State.raiseEff
  split
  · exact h.trans (.of_cores_eq rfl rfl (List.subset_append_left _ _) (List.Subset.refl _))
  · exact h.raiseAt

theorem postMine {n : Nat} {ev : Instr} : s.Frame (t.postMine n ev) :=
  h.trans (.of_cores_eq rfl rfl (List.Subset.refl _) (List.Subset.refl _))

theorem emit {o : Out} : s.Frame (t.emit o) := h.trans (.of_cores_eq rfl rfl (List.Subset.refl _) (List.Subset.refl _))

theorem nextFree : s.Frame t.nextFree := h.trans (.of_cores_eq rfl rfl (List.Subset.refl _) (List.Subset.refl _))

theorem modNode {nd : Nat} {f : Node → Node} : s.Frame (t.modNode nd f) :=
  h.trans (.of_cores_eq rfl rfl (List.Subset.refl _) (List.Subset.refl _))

theorem serial {n : Nat} : s.Frame { t with serial := n } := h.trans (.of_cores_eq rfl rfl (List.Subset.refl _) (List.Subset.refl _))

theorem agenda {l : List Todo} : s.Frame { t with agenda := l } := h.trans (.of_cores_eq rfl rfl (List.Subset.refl _) (List.Subset.refl _))

theorem turn {l : List SeqId} : s.Frame { t with turn := l } := h.trans (.of_cores_eq rfl rfl (List.Subset.refl _) (List.Subset.refl _))

/-- A fold of steps that each keep the frame keeps it. -/
theorem foldl {α : Type} {f : State → α → State} {l : List α} (hf : ∀ (t : State) (a : α), s.Frame t → s.Frame (f t a)) :
    s.Frame (l.foldl f t) := by
  induction l generalizing t with
  | nil => exact h
  | cons a l ih => exact ih (hf t a h)

end
end State.Frame

/-! ### Issue -/

/-- The answer of a meaning keeps the frame. -/
def Verdict.Frames (s : State) : Verdict → Prop
  | .ok t => s.Frame t
  | .delay t _ => s.Frame t
  | .jump t _ => s.Frame t
  | .hold t => s.Frame t
  | .stall _ => True
  | .fault _ => True

/-- The next state of an outcome keeps the frame. -/
def Frames (s : State) (r : Res) : Prop := ∀ t, r = .next t → s.Frame t

theorem frames_next {s t : State} (h : s.Frame t) : Frames s (.next t) := fun _ he => Outcome.next.inj he ▸ h

theorem frames_fault (s : State) (r : Raise) : (Verdict.fault r).Frames s := trivial

theorem frames_stall (s : State) (n : Nat) : (Verdict.stall n).Frames s := trivial

theorem frames_addrFault (s : State) (c : Code) (a : Dword) : (addrFault c a).Frames s := trivial

theorem frames_ite {s : State} {p : Prop} [Decidable p] {a b : Verdict} (ha : a.Frames s) (hb : b.Frames s) :
    (if p then a else b).Frames s := by
  split
  · exact ha
  · exact hb

theorem frames_busy (s t : State) (till : Nat) : (t.busy till).Frames s := by
  unfold State.busy
  split
  · exact frames_fault ..
  · exact frames_stall ..

theorem frame_raise (s : State) (h : Hdr) (len : Nat) (r : Raise) : s.Frame (s.raise h len r) := by
  unfold State.raise
  split
  · split
    · exact ((State.Frame.refl s).later).retire
    · exact (State.Frame.refl s).raiseAt
  · exact (State.Frame.refl s).raiseAt

theorem frame_killed (s : State) (a : Ask) (len : Nat) : s.Frame (s.killed a len) := by
  unfold State.killed
  split
  · exact (State.Frame.refl s).setMe (by rfl)
  · exact (State.Frame.refl s).retire

theorem issue_frames {h : Hdr} {len : Nat} {a : Ask} {body : State → Verdict} {s : State} (hb : (body s).Frames s) :
    Frames s (issue h len a body s) := by
  rcases issue_cases h len a body s with ⟨he, -⟩ | ⟨he, -⟩ | ⟨he, -⟩ | ⟨r, he, -⟩ | ⟨-, -, hok⟩
  · rw [he]; exact frames_next (.refl s)
  · rw [he]; exact frames_next ((State.Frame.refl s).setMe (by rfl))
  · rw [he]; exact frames_next (frame_killed ..)
  · rw [he]; exact frames_next (frame_raise ..)
  · rcases hok with ⟨t, ht, he⟩ | ⟨t, n, ht, he⟩ | ⟨t, d, ht, he⟩ | ⟨t, ht, he⟩ | ⟨c, -, he⟩ <;> rw [he] <;> apply frames_next
    · rw [ht] at hb; exact State.Frame.retire hb
    · rw [ht] at hb; exact State.Frame.retire hb
    · rw [ht] at hb; exact State.Frame.setMe hb (by rfl)
    · rw [ht] at hb; exact State.Frame.setMe hb (by rfl)
    · exact (State.Frame.refl s).setMe (by rfl)

theorem guarded_frames {h : Hdr} {len : Nat} {pg : PReg} {a : Ask} {body : State → Verdict} {s : State} (hb : (body s).Frames s) :
    Frames s (guarded h len pg a body s) := by
  unfold guarded
  split
  · exact issue_frames hb
  · exact issue_frames (.refl s)

/-! ### Shared meanings (05, 11 R216, R230) -/

namespace State.Frame

section
variable {s t : State} (h : s.Frame t)
include h

theorem laterFlags {hd : Hdr} {at_ : Nat} {f : Flags} : s.Frame (t.laterFlags hd at_ f) := by
  unfold State.laterFlags
  dsimp only
  split
  · exact h.setMe (by rfl)
  · exact .later (h.setMe (by rfl))

theorem laterClear {hd : Hdr} {reg : Bool} {f : Flags} : s.Frame (t.laterClear hd reg f) := by
  unfold State.laterClear
  split
  · exact h
  · exact h.later

theorem addMark {m : Mark} : s.Frame (t.addMark s.cur m) := h.modSeq fun _ => rfl

theorem branch {hd : Hdr} {taken : Bool} {target : Dword} : s.Frame (t.branch hd taken target) :=
  .postMine (.serial (h.setMe (by rfl)))

theorem beginWait {hd : Hdr} {w : WaitFor} {tmo : Dword} : s.Frame (t.beginWait hd w tmo) := by
  unfold State.beginWait
  dsimp only
  split <;> split
  · exact .agenda (h.setMe (by rfl))
  · exact h.setMe (by rfl)
  · exact .postMine (.agenda (h.setMe (by rfl)))
  · exact .postMine (h.setMe (by rfl))

theorem arrive {n : Node} {a : Arrived} : s.Frame (t.arrive n a) := by
  unfold State.arrive
  dsimp only
  repeat' split
  · exact h.modNode
  · exact h.modNode
  · exact .postMine h.modNode
  · exact .postMine h.modNode
  · exact .nextFree (.postMine (.emit h.modNode))
  · exact .emit h.modNode

theorem membersFail {n : Node} {u : UnitId} : s.Frame (t.membersFail n u) := h.foldl (fun _ _ h => h.raiseAt)

theorem alignArrive {n : Node} {lvl k : Nat} {seg : BitVec 8} {d : Dword} {budget : Word} : s.Frame (t.alignArrive n lvl k seg d budget) := by
  unfold State.alignArrive
  dsimp only
  repeat' split
  · exact .agenda (.membersFail (.arrive (h.setMe (by rfl))))
  · exact .agenda (.arrive (h.setMe (by rfl)))
  · exact .arrive (h.setMe (by rfl))

theorem acquireAll {ms : List Mark} : s.Frame (t.acquireAll ms s.cur) := by
  refine h.foldl (fun t m h => ?_)
  split
  · exact h
  · exact h.addMark

end

theorem timeoutNow (s : State) (w : Wait) : s.Frame (s.timeoutNow s.cur w) := by
  unfold State.timeoutNow
  dsimp only
  split
  · exact setSeq (raiseEff (refl s)) ((advance_regs ..).trans (raiseEff (refl s)).mine.symm)
  · exact (refl s).raiseAt

end State.Frame

theorem call_frames (s : State) (target : Dword) : (s.call target).Frames s := by
  unfold State.call
  split
  · exact frames_fault ..
  · exact (State.Frame.refl s).setMe (by rfl)

theorem startLoop_frames (s : State) (lvl : BitVec 2) (count start : Dword) (len : Nat) : (s.startLoop lvl count start len).Frames s := by
  unfold State.startLoop
  split
  · exact State.Frame.refl s
  · exact (State.Frame.refl s).setMe (by rfl)

theorem checkForm_frames (s : State) (h : Hdr) (pd : PReg) (v : Bool) : (s.checkForm h pd v).Frames s := by
  unfold State.checkForm
  split
  · exact frames_fault ..
  · exact (State.Frame.refl s).laterP

section
variable {h : Hdr} {s : State}

theorem indexOp_frames {xd xa xb : XReg} {pg : PReg} {lat : Nat} {f : Dword → Dword → Dword} :
    Frames s (indexOp h xd xa xb pg lat f s) := guarded_frames ((State.Frame.refl s).laterX)

theorem bitOp_frames {xd xa : XReg} {pg : PReg} {f : Dword → Dword} : Frames s (bitOp h xd xa pg f s) :=
  guarded_frames ((State.Frame.refl s).laterX)

theorem immOp_frames {xd xa : XReg} {f : Dword → Dword} : Frames s (immOp h xd xa f s) := issue_frames ((State.Frame.refl s).laterX)

theorem predOp_frames {pd pa pb : PReg} {f : Bool → Bool → Bool} : Frames s (predOp h pd pa pb f s) :=
  issue_frames ((State.Frame.refl s).laterP)

theorem readOut_frames {xd : XReg} {f : State → Dword} : Frames s (readOut h xd f s) := issue_frames ((State.Frame.refl s).laterX)

theorem zeroBranch_frames {xa : XReg} {off : BitVec 14} {f : Int → Bool} : Frames s (zeroBranch h xa off f s) :=
  issue_frames ((State.Frame.refl s).branch)

theorem waitForm_frames {reads : List Dest} {what : State → WaitFor} {tmo : State → Dword} : Frames s (waitForm h reads what tmo s) := by
  unfold waitForm
  split
  · split
    · exact frames_next ((State.Frame.refl s).retire)
    · split
      · exact frames_next (State.Frame.timeoutNow ..)
      · exact frames_next (.refl s)
  · refine issue_frames ?_
    split
    · exact State.Frame.refl s
    · exact (State.Frame.refl s).beginWait

theorem align_frames {lvl : BitVec 2} {seg : BitVec 8} {xa : XReg} {budget : BitVec 32} : Frames s (execAlign h lvl seg xa budget s) := by
  unfold execAlign
  split
  · exact frames_next (.refl s)
  · refine issue_frames ?_
    dsimp only
    repeat' split
    · exact frames_fault ..
    · exact frames_fault ..
    · exact (State.Frame.refl s).alignArrive

theorem bar_frames {lvl : BitVec 3} {xt : XReg} : Frames s (execBar h lvl xt s) := by
  unfold execBar
  split
  · exact frames_next (.refl s)
  · refine issue_frames ?_
    dsimp only
    repeat' split
    · exact .acquireAll ((State.Frame.refl s).setMe (by rfl))
    · exact frames_fault ..
    · exact frames_fault ..
    · exact .arrive (.beginWait ((State.Frame.refl s).setMe (by rfl)))

theorem collw_frames {hd : BitVec 6} {xt : XReg} : Frames s (execCollw h hd xt s) := by
  unfold execCollw
  split
  · exact issue_frames (frames_fault ..)
  · exact waitForm_frames

end

/-! ### Accesses to memory (06 R124 to R127, 07, 11 R206, R234 to R237) -/

namespace State.Frame

section
variable {s t : State} (h : s.Frame t)
include h

theorem takeScalar : s.Frame t.takeScalar := h.modHere (by rfl)

theorem request {hd : Hdr} {op : ReqOp} {a : Dword} {oc : BitVec 4} {ord : BitVec 3} : s.Frame (t.request hd op a oc ord) :=
  .nextFree (.postMine (.serial (h.modHere (by rfl))))

theorem restoreCur : s.Frame { t with cur := s.cur } := by rw [← h.cur]; exact h

end

theorem startRead (s : State) (t0 : Nat) (a : Dword) (wide : Bool) (oc : BitVec 4) (ord : BitVec 3) :
    s.Frame (s.startRead s.cur t0 a wide oc ord) := by
  unfold State.startRead
  dsimp only
  split
  · exact restoreCur (takeScalar (access (refl s)))
  · exact restoreCur (request (refl s))

end State.Frame

section
variable {h : Hdr} {s : State} {a : Dword} {oc : BitVec 4} {ord : BitVec 3}

theorem scalarLoad_frames {xd : XReg} {n : Nat} {sx : Bool} : (s.scalarLoad h xd a oc ord n sx).Frames s := by
  unfold State.scalarLoad
  dsimp only
  repeat' split
  · exact frames_addrFault ..
  · exact frames_addrFault ..
  · exact frames_fault ..
  · exact (State.Frame.refl s).request
  · exact frames_busy ..
  · exact .takeScalar (State.Frame.refl s).access

theorem scalarStore_frames {v : Dword} {n : Nat} : (s.scalarStore h v a oc ord n).Frames s := by
  unfold State.scalarStore
  dsimp only
  repeat' split
  · exact frames_addrFault ..
  · exact frames_addrFault ..
  · exact frames_fault ..
  · exact (State.Frame.refl s).request
  · exact frames_busy ..
  · exact .takeScalar (State.Frame.refl s).access

theorem atomicForm_frames {far : Bool} {xd : XReg} {fn : BitVec 3} {wide : Bool} {b c : Dword} :
    (s.atomicForm h far xd a fn wide b c oc ord).Frames s := by
  unfold State.atomicForm
  dsimp only
  repeat' split
  · exact frames_addrFault ..
  · exact frames_addrFault ..
  · exact frames_addrFault ..
  · exact frames_fault ..
  · exact (State.Frame.refl s).request
  · exact frames_busy ..
  · exact frames_busy ..
  · exact .takeScalar (State.Frame.refl s).access

theorem lineLoad_frames {n : Nat} {wait : Option Nat} {dest : LoadTo} : (s.lineLoad h a oc ord n wait dest).Frames s := by
  unfold State.lineLoad
  dsimp only
  repeat' split
  · exact frames_addrFault ..
  · exact frames_addrFault ..
  · exact frames_addrFault ..
  · exact frames_busy ..
  · exact frames_busy ..
  · exact frames_busy ..
  · exact .modHere (State.Frame.refl s).access (by rfl)

theorem lineStore_frames {v : Tile} : (s.lineStore h v a oc ord).Frames s := by
  unfold State.lineStore
  dsimp only
  repeat' split
  · exact frames_addrFault ..
  · exact frames_addrFault ..
  · exact frames_addrFault ..
  · exact frames_busy ..
  · exact frames_busy ..
  · exact .modHere (State.Frame.refl s).access (by rfl)

theorem scaleLoad_frames : (s.scaleLoad h a oc).Frames s := by
  have hl := lineLoad_frames (s := s) (h := h) (a := a) (oc := oc) (ord := 0) (n := 512)
    (wait := if s.here.sq.length ≥ 64 then some (s.cyc + 1) else none) (dest := .scale s.serial)
  unfold State.scaleLoad
  split
  · next t ht => rw [ht] at hl; exact .serial (State.Frame.modHere hl (by rfl))
  · exact hl

theorem banked_frames {addrs : List Dword} {n : Nat} {budget : BitVec 9} {rel : Bool} {act : State → Nat → Nat → Nat → Verdict}
    (hact : ∀ t off k c, s.Frame t → (act t off k c).Frames s) : (s.banked a addrs n budget oc rel act).Frames s := by
  unfold State.banked
  dsimp only
  split
  · exact frames_addrFault ..
  · split
    · exact frames_busy ..
    · split
      · exact frames_fault ..
      · split
        · exact frames_busy ..
        · exact hact _ _ _ _ ((State.Frame.refl s).modHere (by rfl))

theorem ldb_frames {vt vi : TileCode} {xa : XReg} {budget : BitVec 9} {size : BitVec 2} : Frames s (execLdb h vt vi xa oc budget size ord s) := by
  unfold execLdb
  refine issue_frames ?_
  refine banked_frames fun t off k c ht => ?_
  split
  · exact ht.later
  · exact ht.access

theorem stb_frames {vt vi : TileCode} {xa : XReg} {budget : BitVec 9} {size : BitVec 2} : Frames s (execStb h vt vi xa oc budget size ord s) := by
  unfold execStb
  refine issue_frames ?_
  exact banked_frames fun _ _ _ _ ht => ht.access

theorem sqld_frames {xa : XReg} : Frames s (execSqld h xa oc s) := by
  unfold execSqld
  split
  · exact frames_next (.turn (.refl s))
  · exact issue_frames scaleLoad_frames

theorem sqldDisp_frames {xa : XReg} {disp : BitVec 32} : Frames s (execSqldDisp h xa oc disp s) := by
  unfold execSqldDisp
  split
  · exact frames_next (.turn (.refl s))
  · exact issue_frames scaleLoad_frames

theorem rrot_frames {xa xb : XReg} {dir : BitVec 1} : Frames s (execRrot h xa xb dir oc s) := by
  refine issue_frames ?_
  dsimp only
  repeat' split
  · exact frames_addrFault ..
  · exact frames_addrFault ..
  · exact frames_addrFault ..
  · exact frames_addrFault ..
  · exact frames_fault ..
  · exact .modHere (.later (State.Frame.refl s).access) (by rfl)

theorem waita_frames {xa xb : XReg} {cond : BitVec 3} {xt : XReg} {size : BitVec 1} : Frames s (execWaita h xa xb cond xt size oc ord s) := by
  unfold execWaita
  split
  · split
    · exact frames_next (State.Frame.refl s).retire
    · exact frames_next (.refl s)
  · refine issue_frames ?_
    dsimp only
    split
    · exact frames_addrFault ..
    · split
      · exact frames_addrFault ..
      · exact frames_ite (frames_busy ..) ((State.Frame.refl s).beginWait.trans (State.Frame.startRead ..))

end

/-! ### Copies (11 R206, R207) -/

/-- A copy that undoes the completion of its tag on this cycle (11 R207). -/
theorem Core.tagsKept_clear {c d : Core} {cyc n : Nat}
    (hd : d.tags = if c.tagsAt = cyc && c.tagsSet.getLsbD n then c.tags &&& ~~~BitVec.ofNat 64 (2 ^ n) else c.tags) : c.tagsKept d cyc := by
  intro j
  rw [hd]
  split
  · next hset =>
    obtain ⟨hat, hbit⟩ : c.tagsAt = cyc ∧ c.tagsSet.getLsbD n = true := by simpa using hset
    by_cases hj : j = n
    · subst hj; exact .inr ⟨hat, hbit⟩
    · refine .inl ?_
      have hpow : (2 ^ n).testBit j = false := by rw [Nat.testBit_two_pow]; simpa using fun h => hj h.symm
      by_cases h64 : j < 64
      · rw [BitVec.getLsbD_and, BitVec.getLsbD_not, BitVec.getLsbD_ofNat, hpow]; simp [h64]
      · simp [BitVec.getLsbD_of_ge _ _ (Nat.le_of_not_lt h64)]
  · exact .inl rfl

/-- The issuing core takes a copy (11 R206). -/
theorem State.Frame.setCopy {s t : State} (h : s.Frame t) {c : Core} {n : Nat}
    (ht : c.tags = if t.here.tagsAt = t.cyc && t.here.tagsSet.getLsbD n then t.here.tags &&& ~~~BitVec.ofNat 64 (2 ^ n) else t.here.tags)
    (hr : c.regs = t.here.regs)
    (hq : (c.scl, c.ld, c.cmp, c.st) = (t.here.scl, t.here.ld, t.here.cmp, t.here.st)) : s.Frame (t.setCore t.cur.unit c) := by
  simp only [Prod.mk.injEq] at hq
  obtain ⟨hscl, hld, hcmp, hst⟩ := hq
  have hseq (q : SeqName) : c.seq q = t.here.seq q := by
    cases q
    · exact hscl
    · exact hld
    · exact hcmp
    · exact hst
  exact h.trans (frame_setCore hr (Core.tagsKept_clear ht) (congrArg Seq.regs (hseq _)) (fun q _ => hseq q))

section
variable {h : Hdr} {s : State} {tag : BitVec 6} {ctx : BitVec 2} {oc : BitVec 4} {ord : BitVec 3} {kind : CopyKind} {rows : List CopyRow}

theorem frame_startCopy {srcs dsts : List (Dword × Nat)} {cells : List (Dword × Option Dword × Byte × Nat)} :
    s.Frame (s.startCopy h tag ctx oc ord kind rows srcs dsts cells) := by
  have hfree : s.Frame s.nextFree := (State.Frame.refl s).nextFree
  unfold State.startCopy
  dsimp only
  split
  · refine .nextFree (.postMine (.foldl (.foldl (.later (.serial (.setCopy hfree (by rfl) (by rfl) (by rfl)))) ?_) ?_))
    · exact fun _ _ h => .nextFree h.later
    · exact fun _ _ h => .nextFree h.later
  · refine .foldl (.foldl (.later (.serial (.setCopy hfree (by rfl) (by rfl) (by rfl)))) ?_) ?_
    · exact fun _ _ h => .nextFree h.later
    · exact fun _ _ h => .nextFree h.later

theorem copyForm_frames {srcs dsts : List (Dword × Nat)} {cells : List (Dword × Option Dword × Byte × Nat)} :
    (s.copyForm h tag ctx oc ord kind rows srcs dsts cells).Frames s := by
  unfold State.copyForm
  split
  · exact frames_addrFault ..
  · exact frames_ite (frames_busy ..) (frames_ite (frames_fault ..) frame_startCopy)

theorem rowCopy_frames : (s.rowCopy h tag ctx oc ord kind rows).Frames s := copyForm_frames

theorem cpt_frames {xd xa xb xr xs xt : XReg} {fmt : BitVec 4} : Frames s (execCpt h xd xa xb tag ctx oc ord xr xs xt fmt s) := by
  unfold execCpt
  refine issue_frames ?_
  exact frames_ite (frames_addrFault ..) copyForm_frames

end

/-! ### The fabric and the shepherd cores (12, 15 R319, R335) -/

namespace State.Frame

section
variable {s t : State} (h : s.Frame t)
include h

theorem setDesc {rx : Idx64} {d : Desc} : s.Frame (t.setDesc s.cur.unit rx d) := h.modCore fun _ => rfl

theorem setHandle {hd : Idx64} {v : Handle} : s.Frame (t.setHandle s.cur.unit hd v) := h.modCore fun _ => rfl

theorem post {hd : Hdr} {v : Dword} : s.Frame (t.post hd v) := h.later

theorem startSend {o : Org} {p : SendPlan} : s.Frame (t.startSend o p) := h.put

theorem closeDesc {rx : Idx64} : s.Frame (t.closeDesc s.cur.unit rx) := by
  have hzero : s.Frame (((List.range (t.desc s.cur.unit rx).e).filter (fun b => (lookup (t.desc s.cur.unit rx).got b).isNone)).foldl
      (fun v b => v.closeWrite s.cur.unit t.cyc (offOf (t.desc s.cur.unit rx).base + 256 * b) (List.replicate 256 0)) t) :=
    h.foldl (fun _ _ h => h.put)
  unfold State.closeDesc
  dsimp only
  refine put ?_
  have hnode (v : State) (hv : s.Frame v) (k : Nat) : s.Frame (match (v.core s.cur.unit).node with
      | some nd => v.modNode nd (fun n => { n with lossyZeros := n.lossyZeros + k })
      | none => v) := by
    split
    · exact hv.modNode
    · exact hv
  refine hnode _ ?_ _
  repeat' split
  · exact hzero
  · exact .foldl hzero (fun _ _ h => h.put)
  · exact .foldl hzero (fun _ _ h => h.put)
  · exact .foldl (.foldl hzero (fun _ _ h => h.put)) (fun _ _ h => h.put)

theorem arm {rx : Idx64} {rec : Dword} {o : Org} (ho : o.by_.unit = s.cur.unit) : s.Frame (t.arm o rx rec) := by
  unfold State.arm
  rw [ho]
  dsimp only
  split
  · exact .put (.serial (.setDesc h.closeDesc))
  · exact .put (.serial h.setDesc)

end
end State.Frame

section
variable {h : Hdr} {s : State}

theorem sendForm_frames {p : SendPlan} : (s.sendForm p).Frames s := by
  unfold State.sendForm
  dsimp only
  split
  · exact frames_fault ..
  · split
    · exact frames_fault ..
    · refine frames_ite (frames_busy ..) ?_
      split
      · exact frames_fault ..
      · exact frames_ite (frames_busy ..) (State.Frame.refl s).startSend

theorem rxarm_frames {xa : XReg} {rx : BitVec 6} : Frames s (execRxarm h xa rx s) := by
  refine issue_frames ?_
  dsimp only
  repeat' split
  · exact frames_addrFault ..
  · exact frames_addrFault ..
  · exact frames_addrFault ..
  · exact frames_addrFault ..
  · exact frames_fault ..
  · exact frames_busy ..
  · exact (State.Frame.refl s).arm rfl

theorem stepreq_frames {xa xt : XReg} : Frames s (execStepreq h xa xt s) := by
  unfold execStepreq
  repeat' split
  · exact frames_next (.retire (State.Frame.refl s).post)
  · exact frames_next (State.Frame.timeoutNow ..)
  · exact frames_next (.refl s)
  · refine issue_frames ?_
    repeat' split
    · exact frames_fault ..
    · exact frames_busy ..
    · exact (State.Frame.refl s).post
    · exact frames_fault ..
    · exact (State.Frame.refl s).beginWait

theorem stepget_frames {xd : XReg} : Frames s (execStepget h xd s) := by
  refine issue_frames ?_
  dsimp only
  repeat' split
  · exact frames_fault ..
  · exact (State.Frame.refl s).laterX
  · exact .later (.laterX ((State.Frame.refl s).modHere (by rfl)))
  · exact .laterX ((State.Frame.refl s).modHere (by rfl))
  · exact .laterX ((State.Frame.refl s).modHere (by rfl))

theorem coll_frames {xa : XReg} {hd : BitVec 6} : Frames s (execColl h xa hd s) := by
  refine issue_frames ?_
  dsimp only
  repeat' split
  · exact frames_fault ..
  · exact frames_fault ..
  · exact frames_busy ..
  · exact .put (State.Frame.refl s).setHandle

theorem a2a_frames {xa xb : XReg} {hd : BitVec 6} : Frames s (execA2a h xa xb hd s) := by
  refine issue_frames ?_
  dsimp only
  split
  · exact frames_fault ..
  · split
    · exact frames_fault ..
    · exact frames_ite (frames_fault ..) (frames_ite (frames_busy ..) (.put (State.Frame.refl s).setHandle))

theorem end_frames : Frames s (execEnd h s) := by
  refine issue_frames ?_
  dsimp only
  repeat' split
  · exact frames_fault ..
  · exact (State.Frame.refl s).setMe (by rfl)
  · exact .postMine (.modNode ((State.Frame.refl s).setMe (by rfl)))
  · exact (State.Frame.refl s).setMe (by rfl)

theorem brk_frames {n : BitVec 21} : Frames s (execBrk h n s) := by
  refine issue_frames ?_
  repeat' split
  · exact (State.Frame.refl s).addCause
  · exact frames_fault ..
  · exact frames_fault ..

/-! ### Vectors and matrices (08 to 10) -/

theorem onPipe_frames {b : Bool} {act : State → Verdict} (hact : ∀ t, s.Frame t → (act t).Frames s) : (s.onPipe b act).Frames s := by
  unfold State.onPipe
  exact frames_ite (frames_busy ..) (hact _ (.modHere (.refl s) (by cases b <;> rfl)))

theorem onEngine_frames {d : Nat} {act : State → Verdict} (hact : ∀ t, s.Frame t → (act t).Frames s) : (s.onEngine d act).Frames s :=
  frames_ite (frames_busy ..) (hact _ ((State.Frame.refl s).modHere (by rfl)))

theorem scaleCase_frames {t : State} {n : Nat} {act : State → Verdict} (hact : (act t).Frames s) : (t.scaleCase n act).Frames s :=
  frames_ite hact (frames_ite (frames_fault ..) (frames_ite (frames_fault ..) (frames_stall ..)))

theorem State.Frame.result {t : State} (ht : s.Frame t) {vd : TileCode} {lat : Nat} {last : Option Nat} {fl : Bool}
    {rs : List (Word × Flags)} : s.Frame (t.result h vd lat last fl rs) := by
  unfold State.result
  dsimp only
  repeat' split
  · exact .laterFlags (.later ht.later)
  · exact .laterFlags ht.later
  · exact .later ht.later
  · exact ht.later

theorem pipeOpBut_frames {skip : List (Nat × Nat)} {len : Nat} {vd : TileCode} {srcs : List TileCode} {extra : List Dest} {pg : PReg}
    {lat : Nat} {fl : Bool} {f : State → Nat → List (Word × Flags)} : Frames s (pipeOpBut skip h len vd srcs extra pg lat fl f s) :=
  guarded_frames (onPipe_frames fun _ ht => ht.result)

theorem sfuOp_frames {vd : TileCode} {srcs : List TileCode} {pg : PReg} {lat : Nat} {f : State → Nat → List (Word × Flags)} :
    Frames s (sfuOp h vd srcs pg lat f s) :=
  guarded_frames (frames_ite (frames_busy ..) (.result ((State.Frame.refl s).modHere (by rfl))))

theorem afterPushes_frames {q : BitVec 2} {act : State → Verdict} (hact : (act s).Frames s) : (s.afterPushes q act).Frames s :=
  frames_ite (frames_stall ..) hact

theorem vpush_frames {q : BitVec 2} {va vm : TileCode} {pg : PReg} : Frames s (execVpush h q va vm pg s) :=
  guarded_frames (frames_ite (frames_fault ..) (State.Frame.refl s).later)

theorem vpop_frames {q : BitVec 2} {vd : TileCode} {xd : XReg} : Frames s (execVpop h q vd xd s) :=
  issue_frames (afterPushes_frames (frames_ite (frames_fault ..) (.laterX (.later ((State.Frame.refl s).modHere (by rfl))))))

theorem vxm_frames {vd va : TileCode} {pg : PReg} : Frames s (execVxm h vd va pg s) :=
  guarded_frames (onPipe_frames fun _ ht => ht.result)

theorem accin_frames {vt : TileCode} {c : BitVec 2} {row0 : BitVec 7} {pg : PReg} {col0 : BitVec 8} {fmt : BitVec 4} {sat tr : BitVec 1} :
    Frames s (execAccin h vt c row0 pg col0 fmt sat tr s) :=
  guarded_frames (onEngine_frames fun _ ht => ht.later)

theorem sqdrop_frames {xa : XReg} : Frames s (execSqdrop h xa s) := issue_frames (scaleCase_frames ((State.Frame.refl s).modHere (by rfl)))

theorem matrixOp_frames {c : BitVec 2} {pa pb : BitVec 3} {fsrc : BitVec 1} {lvl : BitVec 2} {planes fa fb : BitVec 4} {zero : BitVec 1}
    {kblk : BitVec 3} {pm : Option (BitVec 3)} : Frames s (matrixOp h c pa pb fsrc lvl planes fa fb zero kblk pm s) := by
  unfold matrixOp
  dsimp only
  split
  · exact issue_frames (frames_fault ..)
  · refine issue_frames (onEngine_frames fun t ht => scaleCase_frames ?_)
    refine .setMe (.foldl (.later (.serial (ht.modHere (by rfl)))) fun v b hv => ?_) (by rfl)
    split
    · exact hv
    · exact hv.later

theorem pipeOp_frames {len : Nat} {vd : TileCode} {srcs : List TileCode} {extra : List Dest} {pg : PReg} {lat : Nat} {fl : Bool}
    {f : State → Nat → List (Word × Flags)} : Frames s (pipeOp h len vd srcs extra pg lat fl f s) := pipeOpBut_frames

theorem vec1_frames {vd va : TileCode} {pg : PReg} {lat : Nat} {fl : Bool} {f : Word → Word × Flags} :
    Frames s (vec1 h vd va pg lat fl f s) := pipeOp_frames

theorem vec2_frames {vd va vb : TileCode} {pg : PReg} {lat : Nat} {fl : Bool} {f : Word → Word → Word × Flags} :
    Frames s (vec2 h vd va vb pg lat fl f s) := pipeOp_frames

theorem vec3_frames {vd va vb vc : TileCode} {pg : PReg} {lat : Nat} {fl : Bool} {f : Word → Word → Word → Word × Flags} :
    Frames s (vec3 h vd va vb vc pg lat fl f s) := pipeOp_frames

theorem ret_frames : Frames s (execRet h s) := by
  refine issue_frames ?_
  split
  · exact frames_fault ..
  · exact (State.Frame.refl s).setMe (by rfl)

theorem relax_frames : Frames s (execRelax h s) := issue_frames (frames_ite ((State.Frame.refl s).setMe (by rfl)) (.refl s))

theorem mts_frames {xa : XReg} {n : BitVec 12} : Frames s (execMts h xa n s) :=
  issue_frames (frames_ite (State.Frame.refl s).later (State.Frame.refl s).laterClear)

end

/-- Every instruction keeps the frame at its issue. -/
theorem exec_frames {i : Instr} {k : SeqName} {sh : Bool} (hw : i.wf k sh = true) (s : State) : Frames s (exec i s) := by
  have hs : s.Frame s := .refl s
  cases i with delta exec
  | nop | wait | j => exact issue_frames hs
  | call => exact issue_frames (call_frames ..)
  | ret => exact ret_frames
  | loop | loopi => exact issue_frames (startLoop_frames ..)
  | align => exact align_frames
  | relax => exact relax_frames
  | bar => exact bar_frames
  | movi | movw | movh | addi | sel | mfs | flgrd | lnkst | vget | ftget | sqcnt => exact issue_frames (State.Frame.laterX hs)
  | add | sub | and_ | or_ | xor_ | shl | shr | sar | mul | mulhs | mulhu | idiv | idivu | irem | iremu | min | max | minu | maxu | andn |
    orn | xnor | rol | ror | setc => exact indexOp_frames
  | andi | ori | xori | shli | shri | sari => exact immOp_frames
  | pcmp | pcmpi | flgtst => exact issue_frames (State.Frame.laterP hs)
  | pand | por | pxor | pandn => exact predOp_frames
  | mts => exact mts_frames
  | fence | drain => exact issue_frames (State.Frame.addMark hs)
  | waitany | waitall | waittl | pitchw | dronew => exact waitForm_frames
  | ffrdy | tlrdy | droneck => exact issue_frames (checkForm_frames ..)
  | end_ => exact end_frames
  | trap => exact issue_frames (frames_fault ..)
  | brk => exact brk_frames
  | chkP => exact issue_frames (frames_ite hs (frames_fault ..))
  | chkF => exact issue_frames (frames_ite (frames_stall ..) (frames_ite hs (frames_fault ..)))
  | clz | ctz | popc | brev | bswap => exact bitOp_frames
  | br => exact issue_frames (State.Frame.branch hs)
  | beqz | bnez | bltz | bgez => exact zeroBranch_frames
  | jx => exact issue_frames (frames_ite (frames_addrFault ..) hs)
  | callx => exact issue_frames (frames_ite (frames_addrFault ..) (call_frames ..))
  | xset | xsetp | shape | tagclr | ftset => exact issue_frames (State.Frame.later hs)
  | sld | sldDisp => exact issue_frames scalarLoad_frames
  | sst | sstDisp => exact issue_frames scalarStore_frames
  | satm | atm => exact issue_frames atomicForm_frames
  | waita => exact waita_frames
  | rdt | rdc | rdslip | pitchq => exact readOut_frames
  | flgclr => exact issue_frames (State.Frame.laterClear hs)
  | stepreq => exact stepreq_frames
  | stepget => exact stepget_frames
  | ld | ldDisp | pld | pldDisp | rld | rldDisp => exact issue_frames lineLoad_frames
  | ldb => exact ldb_frames
  | sqld => exact sqld_frames
  | sqldDisp => exact sqldDisp_frames
  | rrot => exact rrot_frames
  | cpy | cpy2 | cfill => exact issue_frames rowCopy_frames
  | cpt => exact cpt_frames
  | rxarm => exact rxarm_frames
  | rxchk => exact issue_frames (frames_ite (frames_fault ..) (checkForm_frames ..))
  | rxmsk => exact issue_frames (frames_ite (frames_fault ..) hs.laterX)
  | vfabs | vfneg | vmov | vcvt => exact vec1_frames
  | vfadd | vfsub | vfmul | vfmin | vfmax | vfceq | vfclt | vfcle | vfcun | viadd | visub | vimul | vimulh | vimin | vimax | vumin | vumax |
    viadds | visubs | vand | vor | vxor | vandn | vshl | vshr | vsar | viceq | viclt | vuclt => exact vec2_frames
  | vfma | vfms | vfnma | vsel => exact vec3_frames
  | vbcast | vrsum | vrisum | vrmax | vrmin | vrimax | vrimin | vrdot | vrscl | vmcnt => exact pipeOp_frames
  | vrlsum => exact pipeOpBut_frames
  | vxm => exact vxm_frames
  | vpush => exact vpush_frames
  | vpop => exact vpop_frames
  | vqcnt => exact issue_frames (afterPushes_frames hs.laterX)
  | exp2 | log2 | rcp | rsq | sqrt | div => exact sfuOp_frames
  | mma | mmas => exact matrixOp_frames
  | mclr => exact issue_frames (onEngine_frames fun _ ht => ht.later)
  | accmv => exact guarded_frames (State.Frame.result hs)
  | accin => exact accin_frames
  | sqdrop => exact sqdrop_frames
  | st | stDisp => exact issue_frames lineStore_frames
  | stb => exact stb_frames
  | rst | rsig | ratm | psend => exact issue_frames sendForm_frames
  | coll => exact coll_frames
  | collw => exact collw_frames
  | a2a => exact a2a_frames
  | guard => exact issue_frames (frames_ite (frames_fault ..) hs.postMine)
  | _ => exact absurd hw Bool.false_ne_true

/-! ### What the frame says -/

namespace State.Frame
variable {s t : State} (h : s.Frame t)
include h

theorem seq_regs (u : UnitId) (q : SeqName) : ((t.core u).seq q).regs = ((s.core u).seq q).regs := by
  by_cases hu : u = s.cur.unit
  · subst hu
    have hhere : t.core s.cur.unit = t.here := by rw [State.here, h.cur]
    by_cases hq : q = s.cur.q
    · subst hq
      have hme : (t.core s.cur.unit).seq s.cur.q = t.me := by rw [State.me, h.cur]; rfl
      rw [hme, h.mine]; rfl
    · rw [hhere, h.seqs q hq]; rfl
  · rw [h.cores u hu]

theorem core_regs (u : UnitId) : (t.core u).regs = (s.core u).regs := by
  by_cases hu : u = s.cur.unit
  · subst hu
    have hhere : t.core s.cur.unit = t.here := by rw [State.here, h.cur]
    rw [hhere, h.regs]; rfl
  · rw [h.cores u hu]

theorem sameRegs : s.sameRegs t := by
  intro u
  have hx (q : SeqName) : ((t.core u).seq q).x = ((s.core u).seq q).x := congrArg Prod.fst (h.seq_regs u q)
  have hp (q : SeqName) : ((t.core u).seq q).p = ((s.core u).seq q).p := congrArg Prod.snd (h.seq_regs u q)
  have hr := h.core_regs u
  simp only [Core.regs, Prod.mk.injEq] at hr
  obtain ⟨htiles, haccs, hplanes, hrows, hft, hshp, hflags, hfold, hnode, hattempt, hphases, htlc, -, -⟩ := hr
  exact ⟨fun q r => by simp only [Seq.xr, hx], fun q r => by simp only [Seq.pr, hp], htiles, haccs, hplanes, hrows, hft, hshp, hflags, hfold,
    hnode, hattempt, hphases, htlc⟩

theorem sameMemory : s.sameMemory t := by
  have hf := h.fixed
  simp only [State.fixed, Prod.mk.injEq] at hf
  obtain ⟨-, -, -, -, -, -, -, -, -, -, -, -, -, -, -, -, -, -, hspad, hseed, hdev, hkeys, hhost, hcode, hcodeSh⟩ := hf
  have hbg : t.spadBg = s.spadBg := by funext a; simp only [State.spadBg, hseed]
  exact ⟨fun a => by simp only [State.spadByte, hspad, hbg], fun a n => by simp only [State.devBytes, hdev], hkeys,
    fun p a n => by simp only [State.hostBytes, hhost], fun sh a => by simp only [State.codeWord, hcode, hcodeSh]⟩

end State.Frame

end Sys2Proof.Machine
end

section
/-! OBLIGATIONS. The frame of an issue. -/

open Sys2Proof Sys2Proof.Machine Host

/-- Settles O53: every instruction is made of operations that keep the frame. -/
theorem issueFrame : Obligations.IssueFrame := by
  intro i k sh s t hw he
  have h : s.Frame t := exec_frames hw s t he
  have hf := h.fixed
  simp only [State.fixed, Prod.mk.injEq] at hf
  obtain ⟨hcur, hcyc, hqueues, hparts, hports, himages, hgroup, hkeys, hroots, hdrone, hpitch, hepoch, hn65, hstage, hready, halarm, htransit,
    hretired, -⟩ := hf
  exact ⟨h.sameRegs, h.tags, h.sameMemory, h.cores, h.seqs, hcur, hqueues, hparts, hports, himages, hgroup, hkeys, hroots, hcyc, hdrone, hpitch,
    hepoch, hn65, hstage, hready, halarm, htransit, hretired, fun _ hm => h.effs hm, fun _ hm => h.causes hm⟩

end

section
/-! SUPPORT. Landings in registers: what each leaves in the core and the state (02 R27, 05 R84, 06 R126, 08 R151, 11 R207). -/

namespace Sys2Proof.Machine
open Host

theorem vector_get_set {α : Type} {n : Nat} (v : Vector α n) (i : Nat) (h : i < n) (x : α) (j : Fin n) :
    (v.set i x h).get j = if j.val = i then x else v.get j := by
  show (v.set i x h)[j.val] = if j.val = i then x else v[j.val]
  rw [Vector.getElem_set]
  simp only [eq_comm]

theorem vector_get_set_of_ne {α : Type} {n : Nat} (v : Vector α n) (i : Nat) (h : i < n) (x : α) {j : Fin n} (hj : j.val ≠ i) :
    (v.set i x h).get j = v.get j := by
  rw [vector_get_set, if_neg hj]

/-- A number that is not the one of `n` names another place. -/
theorem val_ne_toNat {w : Nat} {n : BitVec w} {k : Fin (2 ^ w)} (h : k ≠ n.toFin) : k.val ≠ n.toNat := fun hv => h (Fin.ext hv)

/-- A change of cores alone leaves every memory as it was. -/
theorem sameMemory_setSeq (s : State) (q : SeqId) (v : Seq) : s.sameMemory (s.setSeq q v) :=
  ⟨fun _ => rfl, fun _ _ => rfl, rfl, fun _ _ _ => rfl, fun _ _ => rfl⟩

/-! ### Tiles (08 R151) -/

theorem tile_setTile {c : Core} {code : Nat} (hc : code < 39) (new : Tile) (k : Nat) :
    (c.setTile code new).tile k = if k = code then new else c.tile k := by
  unfold Core.setTile Core.tile
  rw [dif_pos hc]
  by_cases hk : k < 39
  · rw [dif_pos hk, dif_pos hk, vector_get_set]
  · rw [dif_neg hk, dif_neg hk, if_neg (by omega)]

theorem setTile_eq (c : Core) (code : Nat) (new : Tile) : ∃ tiles, c.setTile code new = { c with tiles := tiles } := by
  unfold Core.setTile
  split
  · exact ⟨_, rfl⟩
  · exact ⟨c.tiles, rfl⟩

/-- A tile of the core of unit `u` takes lanes: that tile, and the record of the errors of its lanes (08 R151, 15 R326). -/
theorem core_landTile (s : State) (u : UnitId) (code : Nat) (lanes : Tile) :
    ((s.landTile u code lanes).core u).tile = ((s.core u).setTile code (overlay lanes ((s.core u).tile code))).tile ∧
    ((s.landTile u code lanes).core u).seq = (s.core u).seq ∧ ((s.landTile u code lanes).core u).accs = (s.core u).accs ∧
    ((s.landTile u code lanes).core u).flags = (s.core u).flags := by
  obtain ⟨tiles, ht⟩ := setTile_eq (s.core u) code (overlay lanes ((s.core u).tile code))
  unfold State.landTile
  rw [core_modCore_same, ht]
  exact ⟨rfl, by funext q; cases q <;> rfl, rfl, rfl⟩

theorem seq_landTile (s : State) (u : UnitId) (code : Nat) (lanes : Tile) (k : SeqId) : (s.landTile u code lanes).seq k = s.seq k := by
  obtain ⟨-, hseq, -⟩ := core_landTile s u code lanes
  unfold State.seq
  by_cases hk : k.unit = u
  · rw [hk, hseq]
  · rw [State.landTile, core_modCore_other _ _ _ _ hk]

theorem landOne_tile {now : List Eff} {s : State} {e : Eff} {u : UnitId} {code : Nat} {lanes : Tile}
    (he : e.op = .setTile u code lanes ∨ e.op = .setLast u code lanes) : State.landOne now s e = s.landTile u code lanes := by
  unfold State.landOne
  rcases he with he | he <;> rw [he]

/-! ### Accumulators (10 R202) -/

/-- A cell that none of the writes names keeps its value. -/
theorem getElem?_foldl_set {cells : List (Nat × Word)} {i : Nat} (hi : ∀ x ∈ cells, x.1 ≠ i) (old : List Word) :
    (cells.foldl (fun (m : List Word) x => m.set x.1 x.2) old)[i]? = old[i]? := by
  induction cells generalizing old with
  | nil => rfl
  | cons x cells ih =>
    rw [List.foldl_cons, ih (fun y hy => hi y (List.mem_cons_of_mem _ hy)), List.getElem?_set_ne (hi x List.mem_cons_self)]

/-- A scalar load that has read its bytes writes its value (06 R126). -/
theorem landOne_load_x {now : List Eff} {s : State} {e : Eff} {got : List Byte} {r : XReg} {sx : Bool} {land tbl : Nat}
    (he : e.op = .load [] got (.x r sx) land tbl) :
    State.landOne now s e = s.setSeq e.by_ ((s.seq e.by_).setX r (loadValue got sx)) := by
  unfold State.landOne; rw [he]; rfl

theorem loadValue_eq (bs : List Byte) (sx : Bool) :
    loadValue bs sx = if sx = true ∧ 2 ^ (8 * bs.length - 1) ≤ leNat bs then BitVec.ofInt 64 ((leNat bs : Int) - 2 ^ (8 * bs.length))
      else BitVec.ofNat 64 (leNat bs) := by
  simp [loadValue]

end Sys2Proof.Machine
end

section
/-! OBLIGATIONS. Landings in registers. -/

open Sys2Proof Sys2Proof.Machine Host

/-- Settles O51: each landing is a change of one field of one core, read back. -/
theorem registersLand : Obligations.RegistersLand := by
  intro now s e t
  refine ⟨?setX, ?setP, ?tile, ?flags, ?shp, ?ft, ?tags, ?push, ?acc, ?load⟩
  case setX =>
    intro q r v b he
    have ht : t = s.setSeq q ((s.seq q).setX r v) := landOne_setX he
    refine ⟨fun hr => ?_, fun hr => ?_, fun x hx => ?_, fun p => ?_, fun k hk => ?_, ?_, ?_⟩
    · subst hr; exact landOne_setX_zero he
    · rw [ht, seq_setSeq_same, xr_setX_of_ne_zero hr, if_pos rfl]
    · rw [ht, seq_setSeq_same, xr_setX, if_neg (fun h => hx h.1)]
    · rw [ht, seq_setSeq_same, pr_setX]
    · rw [ht, seq_setSeq_other _ _ _ _ hk]
    · rw [ht]; exact sameMemory_setSeq ..
    · rw [ht]; rfl
  case setP =>
    intro q r v b he
    have ht : t = s.setSeq q ((s.seq q).setP r v) := landOne_setP he
    refine ⟨fun hr => ?_, fun hr => ?_, fun x hx => ?_, fun p => ?_, fun k hk => ?_, ?_⟩
    · subst hr; exact landOne_setP_zero he
    · rw [ht, seq_setSeq_same, pr_setP_of_ne_zero hr, if_pos rfl]
    · rw [ht, seq_setSeq_same, pr_setP, if_neg (fun h => hx h.1)]
    · rw [ht, seq_setSeq_same, xr_setP]
    · rw [ht, seq_setSeq_other _ _ _ _ hk]
    · rw [ht]; rfl
  case tile =>
    intro u code lanes he hc
    have ht : t = s.landTile u code lanes := landOne_tile he
    obtain ⟨htile, -, haccs, hflags⟩ := core_landTile s u code lanes
    refine ⟨?_, fun k hk => ?_, fun k => ?_, fun v hv => ?_, ?_, ?_, ?_⟩
    · rw [ht, htile, tile_setTile hc, if_pos rfl]; rfl
    · rw [ht, htile, tile_setTile hc, if_neg hk]
    · rw [ht, seq_landTile]
    · rw [ht]; exact core_modCore_other _ _ _ _ hv
    · rw [ht, haccs]
    · rw [ht, hflags]
    · rw [ht]; rfl
  case flags =>
    intro u m
    exact ⟨fun he => by simp only [t, State.landOne, he], fun he => by simp only [t, State.landOne, he]⟩
  case shp =>
    intro u v he
    simp only [t, State.landOne, he]
  case ft =>
    intro u n v he
    have ht : t = s.modCore u (fun c => { c with ft := c.ft.set n.toNat v n.isLt }) := by simp only [t, State.landOne, he]
    have hft : (t.core u).ft = (s.core u).ft.set n.toNat v n.isLt := by rw [ht, core_modCore_same]
    refine ⟨?_, fun k hk => ?_, ?_⟩
    · rw [hft, vector_get_set]; exact if_pos rfl
    · rw [hft]; exact vector_get_set_of_ne _ _ _ _ (val_ne_toNat hk)
    · rw [hft]; exact ht
  case tags =>
    intro u m he
    simp only [t, State.landOne, he]
  case push =>
    intro u q ws he
    have ht : t = s.modCore u (fun c => { c with streams := c.streams.set q.toNat (c.streams.get q.toFin ++ ws) q.isLt }) := by
      simp only [t, State.landOne, he]
    have hst : (t.core u).streams = (s.core u).streams.set q.toNat ((s.core u).streams.get q.toFin ++ ws) q.isLt := by
      rw [ht, core_modCore_same]
    refine ⟨?_, fun k hk => ?_⟩
    · rw [hst, vector_get_set]; exact if_pos rfl
    · rw [hst]; exact vector_get_set_of_ne _ _ _ _ (val_ne_toNat hk)
  case acc =>
    intro u c cells kind i he
    have hcore : t.core u = (s.core u).landAcc c cells kind := by
      simp only [t, State.landOne, he, core_modCore_same]
    rw [hcore]
    refine ⟨rfl, fun d hd => vector_get_set_of_ne _ _ c.isLt _ (val_ne_toNat hd), fun hi => ?_⟩
    have hacc : ((s.core u).landAcc c cells kind).accs.get c.toFin =
        ⟨cells.foldl (fun (m : List Word) x => m.set x.1 x.2) ((s.core u).accs.get c.toFin).cells, kind.getD ((s.core u).accs.get c.toFin).kind⟩ :=
      (vector_get_set _ _ c.isLt _ c.toFin).trans (if_pos rfl)
    rw [hacc]
    exact getElem?_foldl_set hi _
  case load =>
    intro got r sx land tbl he hr
    have ht : t = s.setSeq e.by_ ((s.seq e.by_).setX r (loadValue got sx)) := landOne_load_x he
    refine ⟨?_, fun x hx => ?_, fun k hk => ?_, ?_⟩
    · rw [ht, seq_setSeq_same, xr_setX_of_ne_zero hr, if_pos rfl, loadValue_eq]
    · rw [ht, seq_setSeq_same, xr_setX, if_neg (fun h => hx h.1)]
    · rw [ht, seq_setSeq_other _ _ _ _ hk]
    · rw [ht]; exact sameMemory_setSeq ..

end

section
/-! SUPPORT. Queues, partitions and completions: what is read back after a write, and what the end of a packet leaves (14 R293, R297, R310, R311). -/

namespace Sys2Proof.Machine
open Host

/-- A loop over states keeps whatever each of its steps keeps. -/
theorem foldl_keeps {α β : Type} (view : State → β) {f : State → α → State} (hf : ∀ t a, view (f t a) = view t) (l : List α) (s : State) :
    view (l.foldl f s) = view s :=
  (List.foldl_hom view (g₂ := fun b _ => b) fun t a => (hf t a).symm).symm.trans (List.foldl_fixed l)

@[simp] theorem queue_setQueue_same (s : State) (q : QueueId) (v : Queue) : (s.setQueue q v).queue q = v :=
  (vector_get_set _ _ q.isLt _ _).trans (if_pos rfl)

@[simp] theorem queue_modQueue_same (s : State) (q : QueueId) (f : Queue → Queue) : (s.modQueue q f).queue q = f (s.queue q) :=
  queue_setQueue_same ..

@[simp] theorem queue_postIn (s : State) (n : Nat) (ev : Instr) (q : QueueId) : (s.postIn n ev).queue q = s.queue q := rfl

@[simp] theorem part_modPart_same (s : State) (p : PartId) (f : Partition → Partition) : (s.modPart p f).part p = f (s.part p) :=
  (vector_get_set _ _ p.isLt _ _).trans (if_pos rfl)

theorem part_congr {s t : State} (h : t.parts = s.parts) (p : PartId) : t.part p = s.part p := congrArg (fun v => Vector.get v p) h

theorem queue_congr {s t : State} (h : t.queues = s.queues) (q : QueueId) : t.queue q = s.queue q := congrArg (fun v => Vector.get v q) h

/-- What is posted is on the agenda. -/
theorem postAt_mem_agenda (s : State) (due : Due) (ev : Instr) : ∃ e ∈ (s.postAt due ev).agenda, e.due = due ∧ e.ev = ev :=
  ⟨_, List.mem_append_right _ List.mem_cons_self, rfl, rfl⟩

/-- What was on the agenda stays there when more is posted. -/
theorem mem_agenda_postAt {s : State} {P : Todo → Prop} (h : ∃ e ∈ s.agenda, P e) (due : Due) (ev : Instr) : ∃ e ∈ (s.postAt due ev).agenda, P e :=
  h.imp fun _ h => ⟨List.mem_append_left _ h.1, h.2⟩

/-! ### The end of a packet (14 R297, R310, R311) -/

/-- A packet that ends with a record and lets its queue go on: `HEAD` has passed it and the record is the last that is due. -/
theorem queue_completePacket (s : State) (q : QueueId) (r : Record) (adv : Nat) : (s.completePacket q (some r) false adv).queue q =
    { s.queue q with started := none, head := (s.queue q).head + BitVec.ofNat 32 adv, due := (s.queue q).due ++ [r] } := by
  simp [State.completePacket, State.recordDue]

theorem parts_completePacket (s : State) (q : QueueId) (r : Record) (adv : Nat) : (s.completePacket q (some r) false adv).parts = s.parts := rfl

theorem nodes_completePacket (s : State) (q : QueueId) (r : Record) (adv : Nat) : (s.completePacket q (some r) false adv).nodes = s.nodes := rfl

theorem completePacket_stop (s : State) (q : QueueId) (r : Record) (adv : Nat) :
    s.completePacket q (some r) true adv = (s.completePacket q (some r) false adv).stopQueue q .stopped r.status := rfl

theorem headNode_congr {s t : State} (h : t.nodes = s.nodes) (q : QueueId) : t.headNode q = s.headNode q := by
  simp only [State.headNode, h]

/-- A launch that has not been armed stands at the head of its queue. -/
theorem unarmed_of_headNode {s : State} {q : QueueId} (hhead : s.headNode q = none) {n : Node} (hn : n ∈ s.nodes) :
    (n.queue == q && n.unarmed) = false := by
  have hstands := List.find?_eq_none.1 hhead n hn
  unfold Node.unarmed
  cases hst : n.state <;> simp_all

/-- A queue that has not halted and has no launch at its head drops no node when it stops. -/
theorem stopQueue_of_running {s : State} {q : QueueId} (hrun : (s.queue q).halted = false) (hhead : s.headNode q = none) (st : QState) (status : Nat) :
    s.stopQueue q st status =
      s.modQueue q (fun v => { v with state := st, out := true, cause := BitVec.ofNat 4 status, started := none }) := by
  have hnone : ∀ n ∈ s.nodes, (n.queue == q && n.unarmed) = false := fun _ => unarmed_of_headNode hhead
  have hgone : s.nodes.filter (fun n => n.queue == q && n.unarmed) = [] :=
    List.filter_eq_nil_iff.2 fun n hn => by simp [hnone n hn]
  have hkept : s.nodes.filter (fun n => !(n.queue == q && n.unarmed)) = s.nodes :=
    List.filter_eq_self.2 fun n hn => by simp [hnone n hn]
  unfold State.stopQueue
  rw [if_neg (by simp [hrun])]
  simp only [hgone, List.foldl_nil, modQueue_nodes, hkept]
  rfl

/-- A packet that ends with a record and stops its queue, which has not halted and has no launch at its head. -/
theorem completePacket_stops {s : State} {q : QueueId} (hrun : (s.queue q).halted = false) (hhead : s.headNode q = none) (r : Record) (adv : Nat) :
    let t := s.completePacket q (some r) true adv
    t.nodes = s.nodes ∧ (t.queue q).state = .stopped ∧ (t.queue q).head = (s.queue q).head + BitVec.ofNat 32 adv ∧ r ∈ (t.queue q).due := by
  have hq := queue_completePacket s q r adv
  have hn := nodes_completePacket s q r adv
  rw [completePacket_stop, stopQueue_of_running (by rw [hq]; exact hrun) ((headNode_congr hn q).trans hhead)]
  simp only [modQueue_nodes, queue_modQueue_same, hq, hn, List.mem_append, List.mem_singleton, or_true, and_self]

end Sys2Proof.Machine
end

section
/-! SUPPORT. What each packet does once it is in hand (03 R54 to R58, 13 R278, 14 R299, R301 to R303, 15 R322, 16 R347, R348). -/

namespace Sys2Proof.Machine
open Host

theorem cRecord_of_inHand {u : Queue} {typ : Nat} {c : QueueCfg} {p : Started} (hp : u.inHand typ = some (c, p)) :
    cRecord p = if (p.words.getD 0 0).getLsbD 15 then some (plainRecord 0 p.seq typ 0) else none := by
  have ht : p.typ = typ := by
    unfold Queue.inHand at hp
    split at hp
    · split at hp
      · next h => obtain ⟨-, rfl⟩ := Prod.mk.inj (Option.some.inj hp); exact h
      · contradiction
    · contradiction
  rw [cRecord, hdrC, ht]

/-- A use of a free value changes nothing that an access of a packet looks at. -/
@[simp] theorem awaits_nextFree (s : State) (a : Dword) : s.nextFree.awaits a = s.awaits a := rfl

section
variable {q : QueueId} {s t : State} {c : QueueCfg} {p : Started}

/-! ### NOP, MARK, FENCE (14 R301) -/

theorem exec_nopPacket (hs : s.startPacket q 0 = t) (hp : (t.queue q).inHand 0 = some (c, p)) :
    exec (.nopPacket q) s = .next (t.completePacket q (cRecord p) false p.words.length) := by
  show execNopPacket q s = _
  simp only [execNopPacket, hs, hp]

theorem exec_mark (hs : s.startPacket q 4 = t) (hp : (t.queue q).inHand 4 = some (c, p)) :
    exec (.mark q) s = .next ((t.completePacket q (some (plainRecord (pkt64 p.words 1) p.seq 4 0)) false 3).writeRecords q) := by
  show execMark q s = _
  simp only [execMark, hs, hp]

theorem exec_fencePacket (hs : s.startPacket q 5 = t) (hp : (t.queue q).inHand 5 = some (c, p)) :
    exec (.fencePacket q) s = if t.launchesOpen q = true ∨ (pkt32 p.words 1 = 1 ∧ t.nodesOpen q = true) then .next t
      else .next (t.completePacket q (cRecord p) false 2) := by
  show execFencePacket q s = _
  simp only [execFencePacket, hs, hp, Bool.or_eq_true, Bool.and_eq_true, decide_eq_true_eq]

/-! ### SEMSIG (14 R301, R379, 16 R346) -/

section
variable (hs : s.startPacket q 3 = t) (hp : (t.queue q).inHand 3 = some (c, p))
include hs hp

theorem semsig_waits (hw : t.launchesOpen q = true ∨ t.committingIn c.part = true ∨ t.awaits (pkt64 p.words 1) = true) :
    exec (.semsig q) s = .next t := by
  show execSemsig q s = _
  simp only [execSemsig, hs, hp]
  exact if_pos (by simpa only [Bool.or_eq_true, or_assoc] using hw)

variable (hl : t.launchesOpen q = false) (hc : t.committingIn c.part = false) (ha : t.awaits (pkt64 p.words 1) = false)
  (hf : t.semFault c (pkt64 p.words 1) true = none)
include hl hc ha hf

theorem semsig_host (hw : winOf (pkt64 p.words 1) = 0x20) :
    exec (.semsig q) s = .next ((t.nextFree.semWrite c p).completePacket q (cRecord p) false 6) := by
  show execSemsig q s = _
  simp only [execSemsig, hs, hp, hl, hc, ha, hf, hw, Bool.or_self, Bool.false_eq_true, if_false, if_true]

section
variable (hw : winOf (pkt64 p.words 1) = 0x10)
include hw

theorem semsig_device {x : State} (ho : (t.nextFree.ownAt c.part c.pasid (offOf (pkt64 p.words 1))).bind
    (fun x => x.ownAt c.part c.pasid (offOf (pkt64 p.words 1) + 7)) = some x) :
    exec (.semsig q) s = .next ((x.semWrite c p).completePacket q (cRecord p) false 6) := by
  show execSemsig q s = _
  simp only [execSemsig, hs, hp, hl, hc, ha, hf, hw, ho, Bool.or_self, Bool.false_eq_true, if_false, Nat.reduceEqDiff]

/-- Where a page that it must copy finds no frame in the pool, the packet ends with TRANSLATION (14 R379, 16 R343). -/
theorem semsig_no_frame (ho : (t.nextFree.ownAt c.part c.pasid (offOf (pkt64 p.words 1))).bind
    (fun x => x.ownAt c.part c.pasid (offOf (pkt64 p.words 1) + 7)) = none) :
    exec (.semsig q) s = .next (t.nextFree.packetFault q c p 0x07) := by
  show execSemsig q s = _
  simp only [execSemsig, hs, hp, hl, hc, ha, hf, hw, ho, Bool.or_self, Bool.false_eq_true, if_false, Nat.reduceEqDiff]

end

end

/-! ### SEMWAIT (14 R299, R301) -/

section
variable (ha : s.awaits (pkt64 p.words 1) = false) (hf : s.semFault c (pkt64 p.words 1) false = none)
include ha hf

theorem semRead_holds (hv : s.nextFree.semHolds c p = true) : s.semRead q c p = (s.nextFree.completePacket q (cRecord p) false 6, true) := by
  simp only [State.semRead, awaits_nextFree, ha, hf, hv, Bool.false_eq_true, if_false, if_true]

theorem semRead_fails (hv : s.nextFree.semHolds c p = false) : s.semRead q c p = (s.nextFree, false) := by
  simp only [State.semRead, awaits_nextFree, ha, hf, hv, Bool.false_eq_true, if_false]

end

theorem nextRead_of_not_awaits (ha : s.awaits (pkt64 p.words 1) = false) (ns : Nat) (ev : Instr) :
    s.nextRead p ns ev = s.postAt (.ns (s.drone + ns)) ev := by
  simp only [State.nextRead, ha, Bool.false_eq_true, if_false]

section
variable (hfresh : (s.queue q).started = none) (hs : s.startPacket q 2 = t) (hp : (t.queue q).inHand 2 = some (c, p))
  (ha : t.awaits (pkt64 p.words 1) = false) (hf : t.semFault c (pkt64 p.words 1) false = none)
include hfresh hs hp ha hf

theorem semwait_holds (hv : t.nextFree.semHolds c p = true) :
    exec (.semwait q) s = .next (t.nextFree.completePacket q (cRecord p) false 6) := by
  show execSemwait q s = _
  simp only [execSemwait, hfresh, hs, hp, semRead_holds ha hf hv, Option.isNone_none, Bool.not_true, Bool.false_eq_true, if_false, if_true]

/-- The next poll and the park count from this read, the timeout from the start of the packet. -/
theorem semwait_polls (hv : t.nextFree.semHolds c p = false) : ∃ x, exec (.semwait q) s = .next x ∧ x.queue q = t.queue q ∧
    (∃ e ∈ x.agenda, e.due = .ns (t.drone + 2000) ∧ e.ev = .semaphorePoll q p.id) ∧
    (∃ e ∈ x.agenda, e.due = .ns (t.drone + 1000000) ∧ e.ev = .park q p.id) ∧
    (∃ e ∈ x.agenda, e.due = .ns (p.at_ + 1000 * pkt32 p.words 5) ∧ e.ev = .semwaitTimeout q p.id) := by
  refine ⟨((t.nextFree.postAt (.ns (t.drone + 2000)) (.semaphorePoll q p.id)).postAt (.ns (t.drone + 1000000)) (.park q p.id)).postAt
    (.ns (p.at_ + 1000 * pkt32 p.words 5)) (.semwaitTimeout q p.id), ?_, queue_congr (by simp only [postAt_queues, nextFree_queues]) q,
    mem_agenda_postAt (mem_agenda_postAt (postAt_mem_agenda ..) ..) .., mem_agenda_postAt (postAt_mem_agenda ..) .., postAt_mem_agenda ..⟩
  show execSemwait q s = _
  simp only [execSemwait, hfresh, hs, hp, semRead_fails ha hf hv, nextRead_of_not_awaits (s := t.nextFree) ha, Option.isNone_none, Bool.not_true,
    Bool.false_eq_true, if_false, postAt_drone, nextFree_drone]

end

theorem waitingFor_of_inHand {u : Queue} (hp : u.inHand 2 = some (c, p)) : u.waitingFor p.id = some (c, p) := by
  simp [Queue.waitingFor, hp]

section
variable (hp : (s.queue q).inHand 2 = some (c, p))
include hp

theorem exec_park : exec (.park q p.id) s =
    .next ((s.modQueue q (fun u => { u with state := .parked, out := true })).postAt (.ns (s.drone + 100000)) (.parkedPoll q p.id)) := by
  show execPark q p.id s = _
  simp only [execPark, waitingFor_of_inHand hp]

theorem exec_semwaitTimeout :
    exec (.semwaitTimeout q p.id) s = .next (s.completePacket q (some (plainRecord 0 p.seq 2 0x14)) true 6) := by
  show execSemwaitTimeout q p.id s = _
  simp only [execSemwaitTimeout, waitingFor_of_inHand hp]

variable (ha : s.awaits (pkt64 p.words 1) = false) (hf : s.semFault c (pkt64 p.words 1) false = none) (hv : s.nextFree.semHolds c p = false)
include ha hf hv

theorem semaphorePoll_again (hst : (s.queue q).state ≠ .parked) :
    exec (.semaphorePoll q p.id) s = .next (s.nextFree.postAt (.ns (s.drone + 2000)) (.semaphorePoll q p.id)) := by
  show execSemaphorePoll q p.id s = _
  simp only [execSemaphorePoll, waitingFor_of_inHand hp, beq_iff_eq, if_neg hst, semRead_fails ha hf hv, Bool.false_eq_true, if_false,
    nextRead_of_not_awaits (s := s.nextFree) ha, nextFree_drone]

theorem parkedPoll_again (hst : (s.queue q).state = .parked) :
    exec (.parkedPoll q p.id) s = .next (s.nextFree.postAt (.ns (s.drone + 100000)) (.parkedPoll q p.id)) := by
  show execParkedPoll q p.id s = _
  simp only [execParkedPoll, waitingFor_of_inHand hp, hst, bne_self_eq_false, semRead_fails ha hf hv, Bool.false_eq_true, if_false, Bool.not_false,
    if_true, nextRead_of_not_awaits (s := s.nextFree) ha, nextFree_drone]

end

/-! ### LAUNCH (14 R303) -/

section
variable (hs : s.startPacket q 1 = t) (hp : (t.queue q).inHand 1 = some (c, p)) (hh : t.headNode q = none)
include hs hp hh

theorem launch_of_family {f : Family} (hf : (t.launchCheck c.part p.words).2 = some f) : ∃ x, exec (.launch q) s = .next x ∧
    x.nodes = t.nodes ++ [{ newNode t.serial q c p f t.drone with announced := if f.group then t.group.early else [] }] ∧ x.cores = t.cores ∧
    ∃ e ∈ x.agenda, e.due = .cyc (t.cyc + 1) ∧ e.ev = .variantPlacement t.serial := by
  have he : exec (.launch q) s = _ := show execLaunch q s = _ by
    simp only [execLaunch, hs, hp, hh, Option.isSome_none, Bool.false_eq_true, if_false, hf]
    rfl
  refine ⟨_, he, ?_⟩
  cases hg : f.group <;> simp [State.postIn, State.postAt, newNode]

/-- Whichever check fails, the packet ends with its record, and no node has been made. -/
theorem launch_fails_check (hf : (t.launchCheck c.part p.words).2 = none) : ∃ v : State, v.nodes = t.nodes ∧ v.queues = t.queues ∧
    exec (.launch q) s = .next (v.completePacket q
      (some (plainRecord (pkt64 p.words 2) p.seq 1 (t.launchCheck c.part p.words).1)) true 9) := by
  have he : exec (.launch q) s = _ := show execLaunch q s = _ by
    simp only [execLaunch, hs, hp, hh, Option.isSome_none, Bool.false_eq_true, if_false, hf]
    rfl
  refine ⟨_, ?nodes, ?queues, he⟩
  case nodes => split <;> rfl
  case queues => split <;> rfl

/-- A launch that fails a check stops its queue, with `HEAD` behind the packet (log 31). -/
theorem launch_of_failed (hf : (t.launchCheck c.part p.words).2 = none) (hrun : (t.queue q).halted = false) : ∃ x, exec (.launch q) s = .next x ∧
    x.nodes = t.nodes ∧ (x.queue q).state = .stopped ∧ (x.queue q).head = (t.queue q).head + 9 ∧
    ∃ r ∈ (x.queue q).due, r.status = (t.launchCheck c.part p.words).1 ∧ r.seq = p.seq := by
  obtain ⟨v, hnodes, hqueues, he⟩ := launch_fails_check hs hp hh hf
  have hqueue : v.queue q = t.queue q := queue_congr hqueues q
  obtain ⟨hn, hst, hhead, hr⟩ := completePacket_stops (hqueue ▸ hrun) ((headNode_congr hnodes q).trans hh)
    (plainRecord (pkt64 p.words 2) p.seq 1 (t.launchCheck c.part p.words).1) 9
  exact ⟨_, he, hn.trans hnodes, hst, hhead.trans (by rw [hqueue]; rfl), _, hr, rfl, rfl⟩

end

end
end Sys2Proof.Machine
end

section
/-! SUPPORT. Versions and frames: what SNAP, ROLL and the copy of a held page leave in the partitions and in device memory (16 R346 to R348). -/

namespace Sys2Proof.Machine
open Host

/-! ### Device memory -/

@[simp] theorem wake_dev (s : State) (line : UnitId → Dword → Bool) : (s.wake line).dev = s.dev := by
  refine foldl_keeps State.dev (fun t u => ?_) _ s
  split <;> rfl

@[simp] theorem freeFrame_dev (s : State) (p : PartId) (frame : Nat) (big : Bool) : (s.freeFrame p frame big).dev = s.dev := by
  unfold State.freeFrame
  split <;> rfl

@[simp] theorem freeLoose_dev (s : State) (p : PartId) (keep : Nat → Nat → Bool) (frame : Nat) (big : Bool) :
    (s.freeLoose p keep frame big).dev = s.dev := by
  cases big
  case false =>
    simp only [State.freeLoose, Bool.false_eq_true, if_false]
    split
    · exact freeFrame_dev ..
    · rfl
  case true =>
    simp only [State.freeLoose, if_true]
    split
    · exact freeFrame_dev ..
    · refine foldl_keeps State.dev (fun t k => ?_) _ s
      split
      · rfl
      · exact freeFrame_dev ..

/-- Setting a page back changes device memory in its entry alone: the frames that it no longer names go back to the pool (16 R348). -/
theorem rollEntry_dev (s : State) (part : PartId) (a : Nat) (e : Dword) : (s.rollEntry part a e).dev =
    (s.setEntry a (if pteV e then pteSet e 60 (pteS (s.entryAt a)) else pteSet (s.entryAt a) 63 false)).dev := by
  refine (foldl_keeps State.dev (fun t f => freeLoose_dev t _ _ _ _) _ _).trans ?_
  split
  · exact wake_dev ..
  · rfl

/-! ### Tables (16 R338, R348) -/

theorem pteV_of_ptePointer {e : Dword} (h : ptePointer e = true) : pteV e = true := by
  simp only [ptePointer, Bool.and_eq_true] at h
  exact h.1.1.1

theorem pteG_of_ptePointer {e : Dword} (h : ptePointer e = true) : pteG e = false := by
  simp only [ptePointer, Bool.and_eq_true, beq_iff_eq, bitsOf] at h
  have h57 : e.toNat / 2 ^ 57 % 2 ^ 6 = 0 := h.1.2
  rw [pteG, BitVec.getLsbD, Nat.testBit_eq_decide_div_mod_eq, decide_eq_false_iff_not]
  omega

/-- Where tables stand above an address, looking up its entry of level 2 makes none. -/
theorem makeSlot2_of_slot2 {s : State} {pasid va a : Nat} (h : s.slot2 pasid va = some a) (part : PartId) :
    s.makeSlot2 part pasid va = some (s, a) := by
  have h' := h
  unfold State.slot2 at h'
  obtain ⟨root, hr, hroot⟩ := Option.bind_eq_some_iff.1 h'
  have hptr : ptePointer (s.entryAt (root + 8 * bitsOf va 42 34)) = true := by
    by_contra hn
    simp [hn] at hroot
  simp [State.makeSlot2, hr, State.pointed, hptr, h]

theorem makeSlot3_of_pointer {s : State} {a : Nat} (h : ptePointer (s.entryAt a) = true) (part : PartId) (va : Nat) :
    s.makeSlot3 part a va = some (s, pteAddr (s.entryAt a) + 8 * (va / 2 ^ 16 % 2 ^ 9)) := by
  have hb : s.bigLeaf a = false := by rw [State.bigLeaf, pteG_of_ptePointer h, Bool.and_false]
  simp only [State.makeSlot3, hb, Bool.false_eq_true, if_false, State.pointed, h, if_true, Option.map_some, bitsOf]

/-- A page of 64 KiB under a table that stands goes back to its recorded leaf in its entry of that table. -/
theorem rollPage_of_table {s : State} {k : Snapshot} {va a : Nat} {e : Dword} (hv : pteV e = true) (hg : pteG e = false)
    (ha : s.slot2 k.pasid va = some a) (hp : ptePointer (s.entryAt a) = true) (part : PartId) :
    s.rollPage part k (va, e) = some (s.rollEntry part (pteAddr (s.entryAt a) + 8 * (va / 2 ^ 16 % 2 ^ 9)) e) := by
  simp only [State.rollPage, hv, hg, makeSlot2_of_slot2 ha, makeSlot3_of_pointer hp, Option.bind_some, Option.map_some, Bool.not_true, Bool.not_false,
    Bool.false_eq_true, if_false, if_true]

/-! ### Frames and their holders (16 R346, R347) -/

@[simp] theorem setHeld_parts (s : State) (leaves : List Dword) : (s.setHeld leaves).parts = s.parts :=
  foldl_keeps State.parts (fun _ _ => setEntry_parts ..) _ s

@[simp] theorem setHeld_queues (s : State) (leaves : List Dword) : (s.setHeld leaves).queues = s.queues :=
  foldl_keeps State.queues (fun _ _ => setEntry_queues ..) _ s

@[simp] theorem copyFrame_parts (s : State) (key old new size : Nat) : (s.copyFrame key old new size).parts = s.parts := by
  simp only [State.copyFrame, State.clearPoison, setDevBytes_parts, blankKey_parts]

theorem ownAt_of_free {s : State} {pasid off : Nat} {l : Leaf} (hw : s.walk pasid off = some l) (hf : s.frameHeld (pteAddr l.e) l.size = false)
    (hi : s.isPreImage (pteAddr l.e) l.size = false) (part : PartId) : s.ownAt part pasid off = some s := by
  simp only [State.ownAt, hw, Option.bind_some, State.ownPage, hf, hi, Bool.not_false, Bool.and_self, if_true]

/-- A page that a snapshot or an unsettled node holds takes the first frame of its granule from the pool. -/
theorem ownAt_of_held {s : State} {part : PartId} {pasid off f : Nat} {rest : List (Nat × Bool)} {l : Leaf} (hw : s.walk pasid off = some l)
    (hh : s.frameHeld (pteAddr l.e) l.size = true ∨ s.isPreImage (pteAddr l.e) l.size = true)
    (ht : takeFrame (l.size == 2 ^ 25) (s.part part).pool = some (f, rest)) : ∃ t, s.ownAt part pasid off = some t ∧ (t.part part).pool = rest := by
  have hn : (!s.frameHeld (pteAddr l.e) l.size && !s.isPreImage (pteAddr l.e) l.size) = false := by
    obtain h | h := hh <;> simp [h]
  simp only [State.ownAt, hw, Option.bind_some, State.ownPage, hn, Bool.false_eq_true, if_false, ht]
  refine ⟨_, rfl, ?_⟩
  rw [part_congr ((setEntry_parts ..).trans (copyFrame_parts ..)), part_modPart_same]

/-! ### SNAP and ROLL (16 R347, R348) -/

section
variable {q : QueueId} {s t : State} {c : QueueCfg} {p : Started}

theorem snap_records (hs : s.startPacket q 6 = t) (hp : (t.queue q).inHand 6 = some (c, p)) (hl : t.launchesOpen q = false)
    (hc : t.committingIn c.part = false) (hr : t.retraining = false) (hbase : offOf (pkt64 p.words 1) % 2 ^ 16 = 0)
    (hlen : (pkt64 p.words 3).toNat % 2 ^ 16 = 0) (hid : ∀ k ∈ (t.part c.part).snapshots, k.id ≠ pkt32 p.words 5)
    (hroom : (t.part c.part).snapshots.length < 256) : ∃ x, exec (.snap q) s = .next x ∧ (x.queue q).head = (t.queue q).head + 6 ∧
      ∃ k ∈ (x.part c.part).snapshots, k.id = pkt32 p.words 5 ∧ k.pasid = c.pasid ∧ k.base = offOf (pkt64 p.words 1) ∧
        k.len = (pkt64 p.words 3).toNat := by
  have hnew : (t.part c.part).snapshots.any (fun k => k.id == pkt32 p.words 5) = false :=
    List.any_eq_false.2 fun k hk => by simpa using hid k hk
  have he : exec (.snap q) s = _ := show execSnap q s = _ by
    simp only [execSnap, hs, hp, hl, hc, hr, hbase, hlen, hnew, ne_eq, not_true_eq_false, decide_false, Nat.not_le.2 hroom, Bool.or_self,
      Bool.false_eq_true, if_false]
    rfl
  refine ⟨_, he, ?_, ?_⟩
  · rw [queue_completePacket, queue_congr (setHeld_queues ..)]
    rfl
  · rw [part_congr (parts_completePacket ..), part_congr (setHeld_parts ..), part_modPart_same]
    exact ⟨_, List.mem_append_right _ List.mem_cons_self, rfl, rfl, rfl, rfl⟩

section
variable (hs : s.startPacket q 7 = t) (hp : (t.queue q).inHand 7 = some (c, p)) (hl : t.launchesOpen q = false)
  (hc : t.committingIn c.part = false) (hr : t.retraining = false) {k : Snapshot}
  (hk : (t.part c.part).snapshots.find? (fun k => k.id == pkt32 p.words 1) = some k)
include hs hp hl hc hr hk

theorem roll_completes {x : State} (hx : t.rollAll c.part k = some x) :
    exec (.roll q) s = .next (x.completePacket q (some (plainRecord 0 p.seq 7 0)) false 2) := by
  show execRoll q s = _
  simp only [execRoll, hs, hp, hl, hc, hr, hk, hx, Bool.or_self, Bool.false_eq_true, if_false]

/-- It waits while the pool has no frame for a table that it needs (log 35). -/
theorem roll_waits (hx : t.rollAll c.part k = none) : exec (.roll q) s = .next t := by
  show execRoll q s = _
  simp only [execRoll, hs, hp, hl, hc, hr, hk, hx, Bool.or_self, Bool.false_eq_true, if_false]

end
end
end Sys2Proof.Machine
end

section
/-! SUPPORT. What the packets for images and groups and the decision for a node in doubt do (03 R56, R58, 13 R278, 14 R302, 15 R322). -/

namespace Sys2Proof.Machine
open Host

/-! ### Notices (13 R271, R277) -/

@[simp] theorem awaitInstant_queues (s : State) (x : Nat) : (s.awaitInstant x).queues = s.queues := by
  unfold State.awaitInstant
  split <;> rfl

@[simp] theorem awaitInstant_group (s : State) (x : Nat) : (s.awaitInstant x).group = s.group := by
  unfold State.awaitInstant
  split <;> rfl

/-- A package that is no member holds the notices that it issues, and floods none. -/
theorem issueNotice_of_not_member {s : State} (hm : s.group.member = false) (k : NoticeKind) (code x : Nat) :
    (s.issueNotice k code x).queues = s.queues ∧ (s.issueNotice k code x).group =
      { s.group with notices := s.group.notices ++ [⟨k, code, x, s.drone, s.group.rank, s.group.sent⟩], sent := s.group.sent + 1 } := by
  simp [State.issueNotice, State.holdNotice, hm]

/-- The state of a package that listens on behalf of a `GJOIN`, with the fields of its block (14 R302). -/
def State.listening (s : State) (b : List Byte) (asker : QueueId × Nat) : State :=
  { s with group := { s.group with
    tag := u16 b 0, parent := byteAt b 2, alternate := byteAt b 3, deputy := u16 b 4, leadUs := u32 b 8, joining := some asker
    goodExchanges := 0, lastOffset := none, faults := [], seen := [], listen := [], asked := none } }

section
variable {q : QueueId} {s t : State} {c : QueueCfg} {p : Started}

/-! ### COMMIT-VOTE (15 R322) -/

theorem exec_commitVote (hs : s.startPacket q 8 = t) (hp : (t.queue q).inHand 8 = some (c, p)) (hfab : some c.part = t.fabric)
    (hnew : ∀ n ∈ t.nodes, n.voteOf ≠ some (q, p.seq)) {n : Node}
    (hn : t.nodes.find? (fun n => n.state == .inDoubt && n.id == pkt64 p.words 1) = some n) : exec (.commitVote q) s =
    if pkt32 p.words 3 = 1 then .next ((t.modNode n.nd (fun n => { n with voteOf := some (q, p.seq) })).beginCommit n)
    else .next ((t.abortDoubt n).completePacket q (some (plainRecord 0 p.seq 8 0)) false 4) := by
  have hvote : t.nodes.any (fun n => n.voteOf == some (q, p.seq)) = false :=
    List.any_eq_false.2 fun n hn => by simpa using hnew n hn
  show execCommitVote q s = _
  simp only [execCommitVote, hs, hp, hvote, State.fabricQueue, hfab, beq_self_eq_true, Bool.not_true, Bool.false_eq_true, if_false, hn]

/-! ### GJOIN and GLEAVE (13 R278, 14 R302) -/

theorem exec_gjoin (hs : s.startPacket q 9 = t) (hp : (t.queue q).inHand 9 = some (c, p)) (hfab : some c.part = t.fabric)
    (hj : t.group.joining = none) (hm : t.group.member = false) (ha : t.awaits (pkt64 p.words 1) = false) {b : List Byte}
    (hb : t.bytesFor c.pasid (pkt64 p.words 1) 32 = b) (hparent : byteAt b 2 < 12 ∨ byteAt b 2 = 255) (halt : byteAt b 3 < 12 ∨ byteAt b 3 = 255)
    (hres : u16 b 6 = 0) (hlo : 64 ≤ u32 b 8) (hhi : u32 b 8 ≤ 10000) (hzero : (b.drop 12).all (fun x => x == 0) = true) :
    exec (.gjoin q) s = .next (if byteAt b 2 = 0xFF
      then (t.listening b (q, p.seq)).memberNotice 0 true 0 [] (admissible t.limit) else t.listening b (q, p.seq)) := by
  have hrest : (b.drop 12).any (fun x => x != 0) = false := by
    simpa [List.any_eq_false, List.all_eq_true] using hzero
  have hport : ∀ v, v < 12 ∨ v = 255 → (decide (v < 12) || v == 0xFF) = true := fun v h => by simpa using h
  show execGjoin q s = _
  simp only [execGjoin, hs, hp, Option.none_beq_some, hj, hm, ha, State.fabricQueue, hfab, hb, hport _ hparent, hport _ halt, hres, hrest,
    Nat.not_lt.2 hlo, Nat.not_lt.2 hhi, beq_self_eq_true, Option.isSome_none, Bool.or_self, Bool.not_true, Bool.false_eq_true, ne_eq, not_true_eq_false,
    decide_false, if_false, State.listening]

/-- The bellwether's own notice to itself leaves the fields of the block as they were read. -/
theorem memberNotice_listening (hm : t.group.member = false) (b : List Byte) (asker : QueueId × Nat) (code : Nat) :
    let x := (t.listening b asker).memberNotice 0 true 0 [] code
    x.group.joining = some asker ∧ x.group.tag = u16 b 0 ∧ x.group.parent = byteAt b 2 ∧ x.group.leadUs = u32 b 8 ∧ x.queues = t.queues := by
  intro x
  obtain ⟨hqueues, hgroup⟩ := issueNotice_of_not_member (s := t.listening b asker) hm (.member 0 true 0 [])
    (max 250 (min t.pitch code)) (t.drone + 1000 * u32 b 8)
  have hx : x.group = _ := hgroup
  rw [hx]
  exact ⟨rfl, rfl, rfl, rfl, hqueues⟩

theorem gleave_completes (hs : s.startPacket q 10 = t) (hp : (t.queue q).inHand 10 = some (c, p)) (hfab : some c.part = t.fabric)
    (hl : t.group.leaving = none) (hg : t.inGroup = false) : exec (.gleave q) s =
    .next ((if t.group.member then t.groupOfOne.heed else t).completePacket q (some (plainRecord 0 p.seq 10 0)) false 1) := by
  show execGleave q s = _
  simp only [execGleave, hs, hp, hl, hg, State.fabricQueue, hfab, beq_self_eq_true, beq_iff_eq, reduceCtorEq, Bool.not_true, Bool.not_false,
    Bool.false_eq_true, if_false, if_true]

/-! ### PIN and UNPIN (03 R54 to R58) -/

theorem exec_pin (hs : s.startPacket q 11 = t) (hp : (t.queue q).inHand 11 = some (c, p)) (ha : t.awaits (pkt64 p.words 1) = false)
    (hd : t.awaits (pkt64 p.words 5) = false) {b : List Byte} (hb : t.bytesFor c.pasid (pkt64 p.words 1) (pkt64 p.words 3).toNat = b)
    {r : Nat × List Family} (hr : t.pinCheck q c.pasid (pkt64 p.words 1) (pkt64 p.words 3).toNat b = r) : exec (.pin q) s =
    if r.1 ≠ 0 then .next (t.nextFree.completePacket q (some (plainRecord 0 p.seq 11 r.1)) false 8)
    else .next (((t.nextFree.emit (.pinned t.freeHandle ((b.drop 0x20).take 16))).pinImage c.part c.pasid (b.take (u64 b 0x18))
      (pkt64 p.words 5) r.2).completePacket q (some (plainRecord (BitVec.ofNat 64 t.freeHandle) p.seq 11 0)) false 8) := by
  show execPin q s = _
  simp only [execPin, hs, hp, hb, hr, awaits_nextFree, ha, hd, Bool.or_self, Bool.false_eq_true, if_false]
  rfl

@[simp] theorem releaseSoon_images (s : State) (h : Nat) : (s.releaseSoon h).images = s.images := by
  unfold State.releaseSoon
  split <;> rfl

theorem unpin_unanswered (hnew : ∀ i ∈ t.images, (q, p.seq) ∉ i.unpins) : t.images.any (fun i => i.unpins.contains (q, p.seq)) = false :=
  List.any_eq_false.2 fun i hi => by simpa using hnew i hi

section
variable (hs : s.startPacket q 12 = t) (hp : (t.queue q).inHand 12 = some (c, p)) (hnew : ∀ i ∈ t.images, (q, p.seq) ∉ i.unpins)
include hs hp hnew

theorem unpin_retires {i : Image} (hi : i ∈ t.images) (hh : i.handle = pkt32 p.words 1 % 2 ^ 16) (hpart : i.part = c.part) :
    ∃ x, exec (.unpin q) s = .next x ∧ ∃ k ∈ x.images, k.handle = i.handle ∧ k.retiring = true ∧ (q, p.seq) ∈ k.unpins := by
  have hknown : t.images.any (fun i => i.handle == pkt32 p.words 1 % 2 ^ 16 && i.part == c.part) = true :=
    List.any_eq_true.2 ⟨i, hi, by simp [hh, hpart]⟩
  have he : exec (.unpin q) s = _ := show execUnpin q s = _ by
    simp only [execUnpin, hs, hp, unpin_unanswered hnew, hknown, Bool.false_eq_true, if_false, if_true]
    rfl
  refine ⟨_, he, { i with retiring := true, unpins := i.unpins ++ [(q, p.seq)] }, ?_, rfl, rfl, List.mem_append_right _ List.mem_cons_self⟩
  rw [releaseSoon_images]
  exact List.mem_map.2 ⟨i, hi, by simp [hh]⟩

theorem unpin_of_unknown (hnone : ∀ i ∈ t.images, i.handle = pkt32 p.words 1 % 2 ^ 16 → i.part ≠ c.part) :
    exec (.unpin q) s = .next (t.completePacket q (some (plainRecord 0 p.seq 12 0x15)) true 2) := by
  have hunknown : t.images.any (fun i => i.handle == pkt32 p.words 1 % 2 ^ 16 && i.part == c.part) = false :=
    List.any_eq_false.2 fun i hi => by simpa using hnone i hi
  show execUnpin q s = _
  simp only [execUnpin, hs, hp, unpin_unanswered hnew, hunknown, Bool.false_eq_true, if_false]

end
end
end Sys2Proof.Machine
end

section
/-! OBLIGATIONS. Packets that have started. -/

open Sys2Proof Sys2Proof.Machine Host

/-- Settles O45: each clause is the law of its packet, or of the page that it writes or sets back. -/
theorem packetForms : Obligations.PacketForms := by
  intro q s
  refine ⟨?packet, ?later, ?page, ?entry⟩
  case packet =>
    intro typ t c p hs hp rec_
    have hrec : rec_ = cRecord p := (cRecord_of_inHand hp).symm
    rw [hrec]
    refine ⟨?nop, ?mark, ?fence, ?semsig, ?semwait, ?launch, ?snap, ?roll, ?commit, ?gjoin, ?gleave, ?pin, ?unpin⟩
    case nop => rintro rfl; exact exec_nopPacket hs hp
    case mark => rintro rfl; exact exec_mark hs hp
    case fence =>
      rintro rfl
      exact ⟨fun h => (exec_fencePacket hs hp).trans (if_pos h), fun h => (exec_fencePacket hs hp).trans (if_neg h)⟩
    case semsig =>
      rintro rfl
      exact ⟨semsig_waits hs hp, fun hl hc ha hf => ⟨semsig_host hs hp hl hc ha hf, fun hw =>
        ⟨fun _ => semsig_device hs hp hl hc ha hf hw, semsig_no_frame hs hp hl hc ha hf hw⟩⟩⟩
    case semwait =>
      rintro rfl hfresh ha hf
      exact ⟨semwait_holds hfresh hs hp ha hf, semwait_polls hfresh hs hp ha hf⟩
    case launch =>
      rintro rfl hh hrun
      exact ⟨fun _ => launch_of_family hs hp hh, fun hf => launch_of_failed hs hp hh hf hrun⟩
    case snap => rintro rfl hl hc hr; exact snap_records hs hp hl hc hr
    case roll =>
      rintro rfl hl hc hr k hk
      exact ⟨fun _ => roll_completes hs hp hl hc hr hk, roll_waits hs hp hl hc hr hk⟩
    case commit =>
      rintro rfl hfab hnew n hn
      exact ⟨fun h => (exec_commitVote hs hp hfab hnew hn).trans (if_neg h), fun h => (exec_commitVote hs hp hfab hnew hn).trans (if_pos h)⟩
    case gjoin =>
      rintro rfl hfab hj hm ha b hparent halt hres hlo hhi hzero
      refine ⟨_, exec_gjoin hs hp hfab hj hm ha rfl hparent halt hres hlo hhi hzero, ?_⟩
      split
      · exact memberNotice_listening hm ..
      · exact ⟨rfl, rfl, rfl, rfl, rfl⟩
    case gleave => rintro rfl; exact gleave_completes hs hp
    case pin =>
      rintro rfl ha hd b r
      exact ⟨fun h => (exec_pin hs hp ha hd rfl rfl).trans (if_pos h), fun h => (exec_pin hs hp ha hd rfl rfl).trans (if_neg (not_not.2 h))⟩
    case unpin =>
      rintro rfl hnew
      exact ⟨fun _ => unpin_retires hs hp hnew, unpin_of_unknown hs hp hnew⟩
  case later =>
    intro c p hp
    exact ⟨fun hst ha hf hv => semaphorePoll_again hp ha hf hv hst, exec_park hp, fun hst ha hf hv => parkedPoll_again hp ha hf hv hst,
      exec_semwaitTimeout hp⟩
  case page =>
    intro part pasid off l hw
    exact ⟨fun hf hi => ownAt_of_free hw hf hi part, fun hh _ _ ht => ownAt_of_held hw hh ht⟩
  case entry =>
    intro part k va a e old
    exact ⟨fun hv hg ha hp => rollPage_of_table hv hg ha hp part, rollEntry_dev s part a e⟩

end

section
/-! SUPPORT. Rounding a value that its format holds: each encoding is the rounding of its own value (04 R61, R62, R69, R70). -/

namespace Sys2Proof.Machine

/-! ### Sign and magnitude of an encoding -/

/-- The sign and the magnitude of an encoding (04 R61). -/
def Fmt.neg (f : Fmt) (w : Nat) : Bool := w / 2 ^ (f.e + f.m) % 2 == 1
def Fmt.mag (f : Fmt) (w : Nat) : Nat := w % 2 ^ (f.e + f.m)

theorem signBit_add_mag {f : Fmt} {w : Nat} (hw : w < 2 ^ (1 + f.e + f.m)) : signBit f (f.neg w) + f.mag w = w := by
  unfold Fmt.neg Fmt.mag
  have hq : w / 2 ^ (f.e + f.m) < 2 := Nat.div_lt_of_lt_mul (by rwa [← Nat.pow_succ, Nat.succ_eq_one_add, ← Nat.add_assoc])
  have hd := Nat.div_add_mod w (2 ^ (f.e + f.m))
  obtain h | h := Nat.le_one_iff_eq_zero_or_eq_one.1 (Nat.le_of_lt_succ hq)
  all_goals rw [h] at hd ⊢; simpa [signBit] using hd

/-- The finite value that a sign and a magnitude stand for: subnormal with exponent field 0, else with the hidden bit (04 R62). -/
def Fmt.finite (f : Fmt) (neg : Bool) (mag : Nat) : FVal :=
  if mag / 2 ^ f.m = 0 then .fin neg (mag % 2 ^ f.m) (1 - f.bias - f.m)
  else .fin neg (2 ^ f.m + mag % 2 ^ f.m) (((mag / 2 ^ f.m : Nat) : Int) - f.bias - f.m)

theorem expField_eq (f : Fmt) (w : Nat) : w / 2 ^ f.m % 2 ^ f.e = f.mag w / 2 ^ f.m := by
  rw [Fmt.mag, Nat.add_comm, Nat.pow_add, Nat.mod_mul_right_div_self]

theorem manField_eq (f : Fmt) (w : Nat) : w % 2 ^ f.m = f.mag w % 2 ^ f.m :=
  (Nat.mod_mod_of_dvd _ (Nat.pow_dvd_pow 2 (Nat.le_add_left ..))).symm

theorem decodeF_of_inf {f : Fmt} {i : Nat} (hi : f.inf = some i) (w : Nat) :
    decodeF f w = if f.mag w = i then .inf (f.neg w) else if i < f.mag w then .nan else f.finite (f.neg w) (f.mag w) := by
  simp only [decodeF, hi, expField_eq, beq_iff_eq]
  rw [manField_eq f w]
  rfl

theorem decodeF_of_no_inf {f : Fmt} (hi : f.inf = none) (w : Nat) :
    decodeF f w = if f.nan ≠ 0 ∧ f.mag w = f.nan then .nan else f.finite (f.neg w) (f.mag w) := by
  simp only [decodeF, hi, expField_eq, beq_iff_eq, Bool.and_eq_true, bne_iff_ne]
  rw [manField_eq f w]
  rfl

/-- The encodings of a format are used up: above the largest finite magnitude come the infinity and NaNs, or one NaN, or nothing
(04 Table 4-1). -/
def Fmt.full (f : Fmt) : Prop :=
  f.inf = some (f.max + 1) ∨ f.inf = none ∧ f.nan = f.max + 1 ∧ 2 ^ (f.e + f.m) = f.max + 2 ∨
    f.inf = none ∧ f.nan = 0 ∧ 2 ^ (f.e + f.m) = f.max + 1

theorem full_of_mem : ∀ f ∈ [fp32, bf16, fp16, e4m3, e5m2, e2m1], f.full := by
  unfold Fmt.full; decide

/-- An encoding of a full format that is no NaN is its infinity or a finite value no larger than the largest. -/
theorem decodeF_of_full {f : Fmt} (hf : f.full) {w : Nat} (hn : decodeF f w ≠ .nan) :
    (f.inf = some (f.mag w) ∧ decodeF f w = .inf (f.neg w)) ∨ (f.mag w ≤ f.max ∧ decodeF f w = f.finite (f.neg w) (f.mag w)) := by
  have hmag : f.mag w < 2 ^ (f.e + f.m) := Nat.mod_lt _ (Nat.two_pow_pos _)
  obtain hi | ⟨hi, hnan, hlast⟩ | ⟨hi, hnan, hlast⟩ := hf
  · rw [decodeF_of_inf hi] at hn ⊢
    obtain h | h | h := Nat.lt_trichotomy (f.mag w) (f.max + 1)
    · rw [if_neg h.ne, if_neg h.not_gt]; exact .inr ⟨Nat.le_of_lt_succ h, rfl⟩
    · rw [if_pos h, h]; exact .inl ⟨hi, rfl⟩
    · rw [if_neg h.ne', if_pos h] at hn; exact absurd rfl hn
  · rw [decodeF_of_no_inf hi] at hn ⊢
    have h : ¬(f.nan ≠ 0 ∧ f.mag w = f.nan) := fun h => hn (if_pos h)
    rw [if_neg h]; exact .inr ⟨by omega, rfl⟩
  · rw [decodeF_of_no_inf hi, if_neg (fun h => h.1 hnan)]; exact .inr ⟨by omega, rfl⟩

/-! ### Rounding -/

/-- A magnitude that is already on the grid of its own exponent is kept (04 R69). -/
theorem roundMag_of_grid {f : Fmt} {m : Nat} {e : Int} (hm : m ≠ 0)
    (hq : max ((Nat.log2 m : Int) + e - f.m) (1 - f.bias - f.m) = e) :
    roundMag f m e = (e - (1 - f.bias - f.m)).toNat * 2 ^ f.m + m := by
  simp [roundMag, hm, hq]

theorem roundMag_subnormal {f : Fmt} {m : Nat} (hm : m < 2 ^ f.m) : roundMag f m (1 - f.bias - f.m) = m := by
  by_cases h0 : m = 0
  · simp [roundMag, h0]
  · have hlog : Nat.log2 m < f.m := (Nat.log2_lt h0).2 hm
    rw [roundMag_of_grid h0 (by omega)]
    simp

theorem roundMag_normal {f : Fmt} {m x : Nat} (hm : m < 2 ^ f.m) (hx : x ≠ 0) :
    roundMag f (2 ^ f.m + m) ((x : Int) - f.bias - f.m) = 2 ^ f.m * x + m := by
  have hlog : Nat.log2 (2 ^ f.m + m) = f.m := (Nat.log2_eq_iff (by positivity)).2 ⟨by omega, by rw [Nat.pow_succ]; omega⟩
  obtain ⟨y, rfl⟩ := Nat.exists_eq_succ_of_ne_zero hx
  have he : ((y.succ : Int) - f.bias - f.m - (1 - f.bias - f.m)).toNat = y := by omega
  rw [roundMag_of_grid (by positivity) (by omega), he, Nat.mul_succ, Nat.mul_comm, Nat.add_assoc]

theorem roundF_of_roundMag {f : Fmt} {m r : Nat} {e : Int} (hr : roundMag f m e = r) (hmax : r ≤ f.max) (hz : r = 0 → m = 0)
    (neg : Bool) : roundF f false (.fin neg m e) = (signBit f neg + r, 0) := by
  have hflag : (if r == 0 && m != 0 then fUF else 0) = 0 := if_neg (by simpa using hz)
  rw [roundF, hr, if_neg (Nat.not_lt.2 hmax), hflag]

/-- A finite value of a format rounds to its own magnitude, without a flag. -/
theorem roundF_finite {f : Fmt} {mag : Nat} (h : mag ≤ f.max) (neg : Bool) :
    roundF f false (f.finite neg mag) = (signBit f neg + mag, 0) := by
  have hd := Nat.div_add_mod mag (2 ^ f.m)
  have hlt : mag % 2 ^ f.m < 2 ^ f.m := Nat.mod_lt _ (Nat.two_pow_pos _)
  unfold Fmt.finite
  split
  next h0 =>
    have hmod : mag % 2 ^ f.m = mag := by rwa [h0, Nat.mul_zero, Nat.zero_add] at hd
    rw [hmod] at hlt ⊢
    exact roundF_of_roundMag (roundMag_subnormal hlt) h id neg
  next h0 =>
    exact roundF_of_roundMag ((roundMag_normal hlt h0).trans hd) h (fun hz => absurd (by rw [hz, Nat.zero_div]) h0) neg

theorem roundF_decodeF {f : Fmt} (hf : f.full) {w : Nat} (hw : w < 2 ^ (1 + f.e + f.m)) (hn : decodeF f w ≠ .nan) :
    roundF f false (decodeF f w) = (w, 0) := by
  obtain ⟨hi, hv⟩ | ⟨hle, hv⟩ := decodeF_of_full hf hn
  · rw [hv, roundF, hi]; exact congrArg (·, 0) (signBit_add_mag hw)
  · rw [hv, roundF_finite hle, signBit_add_mag hw]

/-- `SatConvert` to INT32 of an integer (04 R66, R70). -/
theorem clampI_int32 (v : Int) :
    clampI 6 v = if v < -2 ^ 31 then (2 ^ 31, 0x10) else if 2 ^ 31 - 1 < v then (2 ^ 31 - 1, 0x10) else ((BitVec.ofInt 32 v).toNat, 0) := by
  have henc : encodeI 6 v = (BitVec.ofInt 32 v).toNat := (BitVec.toNat_ofInt ..).symm
  unfold clampI
  rw [henc]
  rfl

end Sys2Proof.Machine
end

section
/-! OBLIGATIONS. Numbers. -/

open Sys2Proof Sys2Proof.Machine

/-- Settles O34: an encoding is a sign with an infinity or a finite value, each of which rounds to itself; the conversion by the bounds of INT32. -/
theorem numbersRoundTrip : Obligations.NumbersRoundTrip :=
  ⟨fun f hf _ hw hn => roundF_decodeF (full_of_mem f hf) hw hn, clampI_int32⟩

end

section
/-! SUPPORT. Landings in accumulators: what MCLR, ACCIN and the matrix engine leave (04 R75, 10 R195, R196, R198, R201, R202). -/

namespace Sys2Proof.Machine
open Host

/-! ### What lands, and what it leaves alone -/

/-- A core whose accumulator `c` has become `a`; the uncorrectable words and the record of the first replaced element may change with it. -/
def Core.withAcc (k : Core) (c : BitVec 2) (a : Acc) (bad : List (Nat × Nat)) (mxerr : Option (Nat × Nat)) : Core :=
  { k with accs := k.accs.set c.toNat a c.isLt, bad := bad, mxerr := mxerr }

theorem acc_withAcc (k : Core) (c : BitVec 2) (a : Acc) (bad : List (Nat × Nat)) (mxerr : Option (Nat × Nat)) :
    (k.withAcc c a bad mxerr).accs.get c.toFin = a :=
  (vector_get_set _ _ c.isLt a c.toFin).trans (if_pos rfl)

theorem acc_withAcc_of_ne {k : Core} {c : BitVec 2} {a : Acc} {bad : List (Nat × Nat)} {mxerr : Option (Nat × Nat)} {d : Fin (2 ^ 2)}
    (hd : d ≠ c.toFin) : (k.withAcc c a bad mxerr).accs.get d = k.accs.get d :=
  vector_get_set_of_ne _ _ c.isLt _ (val_ne_toNat hd)

theorem seq_withAcc (k : Core) (c : BitVec 2) (a : Acc) (bad : List (Nat × Nat)) (mxerr : Option (Nat × Nat)) :
    (k.withAcc c a bad mxerr).seq = k.seq := by
  funext q; cases q <;> rfl

/-- The state when unit `u` has become `k`, with these operations in flight. -/
def State.landedIn (s : State) (u : UnitId) (k : Core) (effs : List Eff) : State := { s.setCore u k with effs := effs }

theorem core_landedIn (s : State) (u : UnitId) (k : Core) (effs : List Eff) : (s.landedIn u k effs).core u = k := core_setCore_same s u k

theorem core_landedIn_other (s : State) {u v : UnitId} (k : Core) (effs : List Eff) (hv : v ≠ u) :
    (s.landedIn u k effs).core v = s.core v :=
  core_setCore_other s u v k hv

/-- The operations that write accumulator `c` of unit `u` (10 R198, R201, R202). -/
def EffOp.writesAcc (op : EffOp) (u : UnitId) (c : BitVec 2) : Prop :=
  op = .clearAcc u c ∨ (∃ cells kind, op = .setAcc u c cells kind) ∨
    ∃ id fa fb p kb zero sparse pb pm scales blocks, op = .matrix u id c fa fb p kb zero sparse pb pm scales blocks

theorem landOne_clearAcc {now : List Eff} {s : State} {e : Eff} {u : UnitId} {c : BitVec 2} (he : e.op = .clearAcc u c) :
    State.landOne now s e = s.setCore u ((s.core u).zeroAcc c) := by
  cases e; cases he; rfl

theorem landOne_setAcc {now : List Eff} {s : State} {e : Eff} {u : UnitId} {c : BitVec 2} {cells : List (Nat × Word)}
    {kind : Option AccKind} (he : e.op = .setAcc u c cells kind) :
    State.landOne now s e = s.setCore u ((s.core u).landAcc c cells kind) := by
  cases e; cases he; rfl

theorem landOne_matrix {now : List Eff} {s : State} {e : Eff} {u : UnitId} {id : Nat} {c : BitVec 2} {fa fb : BitVec 4} {p kb : Nat}
    {zero sparse : Bool} {pb pm : Nat} {scales : List (List Byte × List Nat)} {blocks : List KBlock}
    (he : e.op = .matrix u id c fa fb p kb zero sparse pb pm scales blocks) :
    State.landOne now s e = s.matrixLands e u c fa fb p zero sparse scales blocks := by
  cases e; cases he; rfl

/-! ### A window of an accumulator is written (10 R202) -/

theorem getElem?_foldl_set_of_mem {cells : List (Nat × Word)} (hn : (cells.map (·.1)).Nodup) {i : Nat} {v : Word} (hv : (i, v) ∈ cells)
    {old : List Word} (hi : i < old.length) : (cells.foldl (fun (m : List Word) x => m.set x.1 x.2) old)[i]? = some v := by
  induction cells generalizing old with
  | nil => cases hv
  | cons x cells ih =>
    rw [List.map_cons, List.nodup_cons] at hn
    obtain ⟨hx, hn⟩ := hn
    rw [List.foldl_cons]
    obtain rfl | hv := List.mem_cons.1 hv
    · rw [getElem?_foldl_set (fun y hy h => hx (List.mem_map.2 ⟨y, hy, h⟩)), List.getElem?_set_self hi]
    · exact ih hn hv (by rwa [List.length_set])

theorem landAcc_eq (k : Core) (c : BitVec 2) (cells : List (Nat × Word)) (kind : Option AccKind) : ∃ bad, k.landAcc c cells kind =
    k.withAcc c ⟨cells.foldl (fun (m : List Word) x => m.set x.1 x.2) (k.accs.get c.toFin).cells, kind.getD (k.accs.get c.toFin).kind⟩
      bad k.mxerr := ⟨_, rfl⟩

theorem zeroAcc_eq (k : Core) (c : BitVec 2) :
    ∃ bad, k.zeroAcc c = k.withAcc c ⟨List.replicate 24576 0, (k.accs.get c.toFin).kind⟩ bad k.mxerr := ⟨_, rfl⟩

/-! ### The matrix engine lands (10 R195, R196, R198) -/

/-- The K-blocks of an instruction, decoded, in the order of their reads. -/
def decodeBlocks (sh : Shape) (scales : List (List Byte × List Nat)) (blocks : List KBlock) : List Decoded :=
  blocks.zipIdx.map (fun b => decodeBlock sh b.2 b.1 (scales.getD b.2 ([], [])))

/-- The word of an accumulator element has an uncorrectable error (10 R196). -/
def Core.cellBad (k : Core) (c : BitVec 2) (i : Nat) : Bool :=
  k.bad.any (fun w => w.1 == 3 && w.2 / 24576 == c.toNat && w.2 % 24576 / 2 == i / 2)

/-- What an accumulator element holds before the first K-block (10 R196, R198). -/
def Core.oldCell (k : Core) (c : BitVec 2) (zero : Bool) (i : Nat) : Word :=
  if zero || k.cellBad c i then 0 else (k.accs.get c.toFin).cells.getD i 0

/-- What an instruction leaves in element (i, m), with its flags. -/
def Core.newCell (k : Core) (c : BitVec 2) (zero : Bool) (ds : List Decoded) (i m : Nat) : Word × Flags :=
  ds.foldl (fun a d => addBlock d i m a) (k.oldCell c zero (192 * i + m), 0)

/-- The flags of an instruction: those of every element, and `MXERR` where an operand or an old element was replaced (10 R195, R196). -/
def Core.matrixFlags (k : Core) (c : BitVec 2) (zero : Bool) (ds : List Decoded) (u : UnitId) : Flags :=
  laneFlags (accumulate ds (k.oldCells c zero)) |||
    (if (firstReplaced ds c.toNat u.val).isSome || !zero && !(k.badCells c.toNat).isEmpty then fMXERR else 0)

/-- The record of the first replaced element is written once (10 R196). -/
def Core.mxerrAfter (k : Core) (cyc : Nat) (first : Option Nat) : Option (Nat × Nat) :=
  match k.mxerr with
  | some m => some m
  | none => first.map (fun r => (cyc, r))

theorem mxerrAfter_some (k : Core) (cyc r : Nat) : k.mxerrAfter cyc (some r) = some (k.mxerr.getD (cyc, r)) := by
  unfold Core.mxerrAfter; cases k.mxerr <;> rfl

theorem mxerrAfter_none (k : Core) (cyc : Nat) : k.mxerrAfter cyc none = k.mxerr := by
  unfold Core.mxerrAfter; cases k.mxerr <;> rfl

theorem badCells_any (k : Core) (c : BitVec 2) (i : Nat) : (k.badCells c.toNat).any (fun b => b / 2 == i / 2) = k.cellBad c i := by
  simp only [Core.badCells, Core.cellBad, List.any_map, List.any_filter]; rfl

theorem getElem?_oldCells {k : Core} {c : BitVec 2} (hl : (k.accs.get c.toFin).cells.length = 24576) (zero : Bool) {i : Nat} (hi : i < 24576) :
    (k.oldCells c zero)[i]? = some (k.oldCell c zero i) := by
  have hcell : (k.accs.get c.toFin).cells[i]? = some ((k.accs.get c.toFin).cells.getD i 0) := by
    rw [List.getD_eq_getElem?_getD, List.getElem?_eq_getElem (hl ▸ hi), Option.getD_some]
  unfold Core.oldCells Core.oldCell
  cases zero with
  | true => exact (List.getElem?_replicate_of_lt hi)
  | false =>
    simp only [if_neg Bool.false_ne_true, Bool.false_or, ← badCells_any]
    by_cases hb : (k.badCells c.toNat).isEmpty
    · rw [if_pos hb, List.isEmpty_iff.1 hb]; exact hcell
    · rw [if_neg hb, List.getElem?_map, List.getElem?_zipIdx, hcell]; simp

theorem getElem?_accumulate {old : List Word} {i : Nat} {w : Word} (h : old[i]? = some w) (ds : List Decoded) :
    (accumulate ds old)[i]? = some (ds.foldl (fun a d => addBlock d (i / 192) (i % 192) a) (w, 0)) := by
  obtain ⟨hi, rfl⟩ := List.getElem?_eq_some_iff.1 h
  simp [accumulate, hi]

theorem getElem?_accumulate_oldCells {k : Core} {c : BitVec 2} (hl : (k.accs.get c.toFin).cells.length = 24576) (zero : Bool)
    (ds : List Decoded) {i m : Nat} (hi : i < 128) (hm : m < 192) :
    (accumulate ds (k.oldCells c zero))[192 * i + m]? = some (k.newCell c zero ds i m) := by
  have hdiv : (192 * i + m) / 192 = i := by omega
  have hmod : (192 * i + m) % 192 = m := by omega
  rw [getElem?_accumulate (getElem?_oldCells hl zero (by omega)), hdiv, hmod]
  rfl

theorem or_and_of_and {x g : Flags} (h : x &&& g = g) (y : Flags) : (x ||| y) &&& g = g := by
  rw [BitVec.and_or_distrib_right, h]
  ext i; simp

/-- Every flag of a lane is among the flags of all lanes. -/
theorem laneFlags_and {l : List (Word × Flags)} {r : Word × Flags} (hr : r ∈ l) : laneFlags l &&& r.2 = r.2 := by
  have fold : ∀ (l : List (Word × Flags)) (f : Flags), f &&& r.2 = r.2 ∨ r ∈ l → l.foldl (fun f r => f ||| r.2) f &&& r.2 = r.2 := by
    intro l
    induction l with
    | nil => simp
    | cons x l ih =>
      intro f hf
      refine ih _ ?_
      obtain hf | hr := hf
      · exact .inl (or_and_of_and hf _)
      · obtain rfl | hr := List.mem_cons.1 hr
        · exact .inl (by simp only [BitVec.or_comm f]; exact or_and_of_and BitVec.and_self f)
        · exact .inr hr
  exact fold l 0 (.inr hr)

theorem matrixFlags_and_MXERR {k : Core} {c : BitVec 2} {zero : Bool} {ds : List Decoded} {u : UnitId} {r : Nat}
    (hr : firstReplaced ds c.toNat u.val = some r) : k.matrixFlags c zero ds u &&& fMXERR = fMXERR := by
  rw [Core.matrixFlags, hr, Option.isSome_some, Bool.true_or, if_pos rfl, BitVec.or_comm]
  exact or_and_of_and BitVec.and_self _

/-- The flags that a result of this cycle leaves for the next (04 R74). -/
def flagEffs (e : Eff) (cyc : Nat) (u : UnitId) (f : Flags) : List Eff :=
  if f = 0 then [] else [{ e with at_ := cyc + 1, commit := cyc + 1, op := .setFlags u f }]

theorem mem_flagEffs {f g : Flags} (hg : g ≠ 0) (h : f &&& g = g) (e : Eff) (cyc : Nat) (u : UnitId) :
    ∃ x ∈ flagEffs e cyc u f, ∃ v, x.at_ = cyc + 1 ∧ x.op = .setFlags u v ∧ v &&& g = g := by
  have hf : f ≠ 0 := by rintro rfl; exact hg (h.symm.trans BitVec.zero_and)
  rw [flagEffs, if_neg hf]
  exact ⟨_, List.mem_singleton_self _, f, rfl, rfl, h⟩

section

variable (s : State) (e : Eff) (u : UnitId) (c : BitVec 2) (fa fb : BitVec 4) (p : Nat) (zero sparse : Bool)
  (scales : List (List Byte × List Nat)) (blocks : List KBlock)

/-- A landing `MMA` or `MMAS`: the accumulator with its kind, the record of the first replaced element, kept if there was one (10 R196). -/
theorem matrixLands_eq :
    let k := s.core u
    let ds := decodeBlocks ⟨fa, fb, p, sparse⟩ scales blocks
    ∃ bad, s.matrixLands e u c fa fb p zero sparse scales blocks =
      s.landedIn u (k.withAcc c ⟨(accumulate ds (k.oldCells c zero)).map (·.1), if matrixInt fa then .int32 else .fp32⟩ bad
          (k.mxerrAfter s.cyc (firstReplaced ds c.toNat u.val)))
        (s.effs ++ flagEffs e s.cyc u (k.matrixFlags c zero ds u)) := by
  intro k ds
  refine ⟨k.bad.filter (fun b => !(b.1 == 3 && b.2 / 24576 == c.toNat)), ?_⟩
  by_cases hf : k.matrixFlags c zero ds u = 0
  · rw [flagEffs, if_pos hf, List.append_nil]
    exact if_pos (t := s.landedIn u _ _) hf
  · rw [flagEffs, if_neg hf]
    exact if_neg (e := s.landedIn u _ _) hf

theorem matrixLands_acc : ((s.matrixLands e u c fa fb p zero sparse scales blocks).core u).accs.get c.toFin =
    ⟨(accumulate (decodeBlocks ⟨fa, fb, p, sparse⟩ scales blocks) ((s.core u).oldCells c zero)).map (·.1),
      if matrixInt fa then .int32 else .fp32⟩ := by
  obtain ⟨bad, h⟩ := matrixLands_eq s e u c fa fb p zero sparse scales blocks
  rw [h, core_landedIn, acc_withAcc]

theorem matrixLands_mxerr : ((s.matrixLands e u c fa fb p zero sparse scales blocks).core u).mxerr =
    (s.core u).mxerrAfter s.cyc (firstReplaced (decodeBlocks ⟨fa, fb, p, sparse⟩ scales blocks) c.toNat u.val) := by
  obtain ⟨bad, h⟩ := matrixLands_eq s e u c fa fb p zero sparse scales blocks
  rw [h, core_landedIn]; rfl

/-- Any of the flags of the instruction are due on the next cycle (04 R74, 10 R195). -/
theorem matrixLands_flags {g : Flags} (hg : g ≠ 0)
    (h : (s.core u).matrixFlags c zero (decodeBlocks ⟨fa, fb, p, sparse⟩ scales blocks) u &&& g = g) :
    ∃ f ∈ (s.matrixLands e u c fa fb p zero sparse scales blocks).effs, ∃ v, f.at_ = s.cyc + 1 ∧ f.op = .setFlags u v ∧ v &&& g = g := by
  obtain ⟨f, hf, hdue⟩ := mem_flagEffs hg h e s.cyc u
  obtain ⟨bad, h⟩ := matrixLands_eq s e u c fa fb p zero sparse scales blocks
  exact ⟨f, by rw [h]; exact List.mem_append_right _ hf, hdue⟩

variable {s u c}

theorem matrixLands_cell (hl : ((s.core u).accs.get c.toFin).cells.length = 24576) {i m : Nat} (hi : i < 128) (hm : m < 192) :
    (((s.matrixLands e u c fa fb p zero sparse scales blocks).core u).accs.get c.toFin).cells[192 * i + m]? =
      some ((s.core u).newCell c zero (decodeBlocks ⟨fa, fb, p, sparse⟩ scales blocks) i m).1 := by
  rw [matrixLands_acc, List.getElem?_map, getElem?_accumulate_oldCells hl zero _ hi hm, Option.map_some]

theorem matrixLands_cell_flags (hl : ((s.core u).accs.get c.toFin).cells.length = 24576) {i m : Nat} (hi : i < 128) (hm : m < 192)
    (hg : ((s.core u).newCell c zero (decodeBlocks ⟨fa, fb, p, sparse⟩ scales blocks) i m).2 ≠ 0) :
    ∃ f ∈ (s.matrixLands e u c fa fb p zero sparse scales blocks).effs, ∃ v, f.at_ = s.cyc + 1 ∧ f.op = .setFlags u v ∧
      v &&& ((s.core u).newCell c zero (decodeBlocks ⟨fa, fb, p, sparse⟩ scales blocks) i m).2 =
        ((s.core u).newCell c zero (decodeBlocks ⟨fa, fb, p, sparse⟩ scales blocks) i m).2 :=
  matrixLands_flags s e u c fa fb p zero sparse scales blocks hg
    (or_and_of_and (laneFlags_and (List.mem_of_getElem? (getElem?_accumulate_oldCells hl zero _ hi hm))) _)

end

/-! ### The frame -/

theorem landOne_writesAcc {now : List Eff} {s : State} {e : Eff} {u : UnitId} {c : BitVec 2} (he : e.op.writesAcc u c) :
    ∃ a bad mxerr effs, State.landOne now s e = s.landedIn u ((s.core u).withAcc c a bad mxerr) effs := by
  obtain he | ⟨cells, kind, he⟩ | ⟨id, fa, fb, p, kb, zero, sparse, pb, pm, scales, blocks, he⟩ := he
  · exact ⟨_, _, _, s.effs, landOne_clearAcc he⟩
  · exact ⟨_, _, _, s.effs, landOne_setAcc he⟩
  · obtain ⟨bad, h⟩ := matrixLands_eq s e u c fa fb p zero sparse scales blocks
    exact ⟨_, bad, _, _, (landOne_matrix he).trans h⟩

theorem seq_landedIn_withAcc (s : State) (u : UnitId) (c : BitVec 2) (a : Acc) (bad : List (Nat × Nat)) (mxerr : Option (Nat × Nat))
    (effs : List Eff) (q : SeqId) : (s.landedIn u ((s.core u).withAcc c a bad mxerr) effs).seq q = s.seq q := by
  unfold State.seq
  by_cases hq : q.unit = u
  · rw [hq, core_landedIn, seq_withAcc]
  · rw [core_landedIn_other _ _ _ hq]

end Sys2Proof.Machine
end

section
/-! OBLIGATIONS. Landings in accumulators. -/

open Sys2Proof Sys2Proof.Machine Host

/-- Settles O58: each landing replaces one accumulator of one core; the elements of an `MMA` are read off element by element. -/
theorem accumulatorsLand : Obligations.AccumulatorsLand := by
  intro now s e t
  refine ⟨?clear, ?set, ?matrix, ?frame⟩
  case clear =>
    intro u c he
    obtain ⟨bad, hk⟩ := zeroAcc_eq (s.core u) c
    rw [show t = _ from landOne_clearAcc he, core_setCore_same, hk, acc_withAcc]
    exact ⟨rfl, rfl⟩
  case set =>
    intro u c cells kind he hn
    obtain ⟨bad, hk⟩ := landAcc_eq (s.core u) c cells kind
    rw [show t = _ from landOne_setAcc he, core_setCore_same, hk, acc_withAcc]
    exact ⟨fun i v hv hi => getElem?_foldl_set_of_mem hn hv hi, fun i hi => getElem?_foldl_set hi _, rfl⟩
  case matrix =>
    intro u id c fa fb p kb zero sparse pb pm scales blocks he hl sh ds bad old out
    rw [show t = s.matrixLands e u c fa fb p zero sparse scales blocks from landOne_matrix he, matrixLands_mxerr]
    refine ⟨fun i m => matrixLands_cell e fa fb p zero sparse scales blocks hl, ?_,
      fun i m => matrixLands_cell_flags e fa fb p zero sparse scales blocks hl, fun r hr => ⟨?_, ?_⟩, fun hr => ?_⟩
    · rw [matrixLands_acc]
    · exact matrixLands_flags s e u c fa fb p zero sparse scales blocks (by decide) (matrixFlags_and_MXERR hr)
    · exact (congrArg _ hr).trans (mxerrAfter_some ..)
    · exact (congrArg _ hr).trans (mxerrAfter_none ..)
  case frame =>
    intro u c he
    obtain ⟨a, bad, mxerr, effs, h⟩ := landOne_writesAcc (now := now) (s := s) he
    have ht : t = s.landedIn u ((s.core u).withAcc c a bad mxerr) effs := h
    rw [ht, core_landedIn]
    exact ⟨fun d hd => acc_withAcc_of_ne hd, rfl, rfl, rfl, fun q => seq_landedIn_withAcc .., rfl, fun v hv => core_landedIn_other _ _ _ hv, rfl⟩

end

section
/-! SUPPORT. Scalar loads and stores: the checks in their order, and the access that passes them (06 R124, R125, Tables 6-4, 6-5, 07 Table 7-3). -/

namespace Sys2Proof.Machine
open Host

/-- The address checks answer no other codes than these two (06 Table 6-4, 07 Table 7-6). -/
theorem reach_bad_code {s : State} {a : Dword} {n : Nat} {c : Code} (hb : s.reach a n = .bad c) : c = .window ∨ c = .protection := by
  unfold State.reach at hb
  dsimp only at hb
  split at hb
  case h_1 =>
    split_ifs at hb
    simp_all
  case h_2 => split_ifs at hb <;> simp_all
  all_goals simp_all

theorem addrFault_of_reach {s : State} {a : Dword} {n : Nat} {c : Code} (hb : s.reach a n = .bad c) :
    addrFault c a = .fault { code := c, addr := a.toNat } := by
  obtain rfl | rfl := reach_bad_code hb <;> rfl

theorem exec_sld (h : Hdr) (xd xa : XReg) (oc : BitVec 4) (ord : BitVec 3) (size : BitVec 2) (sx : BitVec 1) (s : State) :
    exec (.sld h xd xa oc ord size sx) s = issue h 1 { reads := [.x s.cur xa], writes := [.x s.cur xd] }
      (fun s => s.scalarLoad h xd (s.xr xa) oc ord (2 ^ size.toNat) (sx == 1)) s := rfl

theorem exec_sldDisp (h : Hdr) (xd xa : XReg) (oc : BitVec 4) (ord : BitVec 3) (size : BitVec 2) (sx : BitVec 1) (disp : BitVec 32)
    (s : State) : exec (.sldDisp h xd xa oc ord size sx disp) s = issue h 2 { reads := [.x s.cur xa], writes := [.x s.cur xd] }
      (fun s => s.scalarLoad h xd (s.xr xa + disp.signExtend 64) oc ord (2 ^ size.toNat) (sx == 1)) s := rfl

theorem exec_sst (h : Hdr) (xd xa : XReg) (oc : BitVec 4) (ord : BitVec 3) (size : BitVec 2) (sx : BitVec 1) (s : State) :
    exec (.sst h xd xa oc ord size sx) s = issue h 1 { reads := [.x s.cur xa, .x s.cur xd] }
      (fun s => s.scalarStore h (s.xr xd) (s.xr xa) oc ord (2 ^ size.toNat)) s := rfl

theorem exec_sstDisp (h : Hdr) (xd xa : XReg) (oc : BitVec 4) (ord : BitVec 3) (size : BitVec 2) (sx : BitVec 1) (disp : BitVec 32)
    (s : State) : exec (.sstDisp h xd xa oc ord size sx disp) s = issue h 2 { reads := [.x s.cur xa, .x s.cur xd] }
      (fun s => s.scalarStore h (s.xr xd) (s.xr xa + disp.signExtend 64) oc ord (2 ^ size.toNat)) s := rfl

/-- 07 Table 7-3: the array cycle and the landing of a scalar load after its issue, by its path. -/
theorem load_times : ∀ p ∈ [(0, 4, 14), (1, 20, 40), (2, 48, 96)], arrayOff p.1 = p.2.1 ∧ scalarLand p.1 = p.2.2 := by decide

theorem store_times : ∀ p ∈ [(0, 4), (1, 20), (2, 48)], arrayOff p.1 = p.2 := by decide

theorem length_leBytes (n v : Nat) : (leBytes n v).length = n := by
  induction n generalizing v with
  | zero => rfl
  | succ n ih => exact congrArg (· + 1) (ih _)

section
variable {s : State} {h : Hdr} {xd : XReg} {v a : Dword} {oc : BitVec 4} {ord : BitVec 3} {n off : Nat} {sx : Bool} {c : Code}

theorem scalarLoad_misaligned (ha : a.toNat % n ≠ 0) :
    s.scalarLoad h xd a oc ord n sx = .fault { code := .alignment, addr := a.toNat } := if_pos ha

theorem scalarStore_misaligned (ha : a.toNat % n ≠ 0) :
    s.scalarStore h v a oc ord n = .fault { code := .alignment, addr := a.toNat } := if_pos ha

/-- An access outside claimed lines and in order is not held back (07 R135, R139): a claim counts on the own scratchpad alone. -/
theorem mayAct_of {s : State} {off n t : Nat} {oc : BitVec 4} {rel : Bool} (hc : s.path off = 0 → s.claimed off n = false)
    (ho : s.inOrder oc rel t = true) : ((s.path off == 0 && s.claimed off n) || !s.inOrder oc rel t) = false := by
  by_cases hp : s.path off = 0 <;> simp [ho, hp, hc]

variable (ha : a.toNat % n = 0)
include ha

theorem scalarLoad_bad (hb : s.reach a n = .bad c) : s.scalarLoad h xd a oc ord n sx = .fault { code := c, addr := a.toNat } := by
  simp [State.scalarLoad, ha, hb, addrFault_of_reach hb]

theorem scalarStore_bad (hb : s.reach a n = .bad c) : s.scalarStore h v a oc ord n = .fault { code := c, addr := a.toNat } := by
  simp [State.scalarStore, ha, hb, addrFault_of_reach hb]

theorem scalarLoad_far (hf : s.reach a n = .far) : s.scalarLoad h xd a oc ord n sx =
    if s.me.aligned then .fault { code := .timing } else .ok (s.request h (.load xd n sx) a oc ord) := by
  simp [State.scalarLoad, ha, hf]

theorem scalarStore_far (hf : s.reach a n = .far) : s.scalarStore h v a oc ord n =
    if s.me.aligned then .fault { code := .timing } else .ok (s.request h (.store (leBytes n v.toNat)) a oc ord) := by
  simp [State.scalarStore, ha, hf]

theorem scalarLoad_spad (hr : s.reach a n = .spad off) (hc : s.path off = 0 → s.claimed off n = false)
    (ho : s.inOrder oc false (s.cyc + arrayOff (s.path off)) = true) : s.scalarLoad h xd a oc ord n sx =
      .ok (s.access h a oc ord (s.cyc + arrayOff (s.path off)) (s.cyc + scalarLand (s.path off)) (s.fixedLoad a)
        (.load (span off n) [] (.x xd sx) (s.cyc + scalarLand (s.path off)) (s.cyc + arrayOff (s.path off)))).takeScalar := by
  simp [State.scalarLoad, ha, hr, mayAct_of hc ho]

theorem scalarStore_spad (hr : s.reach a n = .spad off) (hc : s.path off = 0 → s.claimed off n = false)
    (ho : s.inOrder oc (isAcq ord) (s.cyc + arrayOff (s.path off)) = true) : s.scalarStore h v a oc ord n =
      .ok (s.access h a oc ord (s.cyc + arrayOff (s.path off)) s.commitCycle true (.store (s.portRank off .scalar)
        ((List.range' off n).zip (leBytes n v.toNat)) (s.cyc + arrayOff (s.path off)))).takeScalar := by
  simp [State.scalarStore, ha, hr, mayAct_of hc ho, cellsAt, span, length_leBytes]

end

end Sys2Proof.Machine
end

section
/-! OBLIGATIONS. Scalar loads and stores. -/

open Sys2Proof Sys2Proof.Machine Host

/-- Settles O23: both forms of a load are one `scalarLoad`, both forms of a store one `scalarStore`; each clause is one branch of it. -/
theorem scalarAccess : Obligations.ScalarAccess := by
  intro h xd xa oc ord size sx disp s n
  refine ⟨?load, ?store⟩
  case load =>
    intro hi k hk a
    obtain ⟨body, he, hb⟩ : ∃ body, exec k.1 s = issue h k.2.2 { reads := [.x s.cur xa], writes := [.x s.cur xd] } body s ∧
        body s = s.scalarLoad h xd a oc ord n (sx == 1) := by
      obtain rfl | rfl : k = _ ∨ k = _ := by simpa using hk
      · exact ⟨_, exec_sld .., rfl⟩
      · exact ⟨_, exec_sldDisp .., rfl⟩
    rw [he]
    refine ⟨fun ha => issue_fault hi (hb.trans (scalarLoad_misaligned ha)), fun ha => ⟨fun c hc => issue_fault hi (hb.trans (scalarLoad_bad ha hc)),
      fun hf => ⟨fun hal => issue_fault hi ?_, fun hal => issue_ok hi ?_⟩, fun off hr p hp hpath hc ho => issue_ok hi ?_⟩⟩
    · rw [hb, scalarLoad_far ha hf, if_pos hal]
    · rw [hb, scalarLoad_far ha hf, if_neg (by simp [hal])]
    · obtain ⟨hat, hland⟩ : arrayOff (s.path off) = p.2.1 ∧ scalarLand (s.path off) = p.2.2 := hpath ▸ load_times p hp
      rw [hb, ← hat, ← hland]
      exact scalarLoad_spad ha hr hc (hat ▸ ho)
  case store =>
    intro hi k hk a
    obtain ⟨body, he, hb⟩ : ∃ body, exec k.1 s = issue h k.2.2 { reads := [.x s.cur xa, .x s.cur xd] } body s ∧
        body s = s.scalarStore h (s.xr xd) a oc ord n := by
      obtain rfl | rfl : k = _ ∨ k = _ := by simpa using hk
      · exact ⟨_, exec_sst .., rfl⟩
      · exact ⟨_, exec_sstDisp .., rfl⟩
    rw [he]
    refine ⟨fun ha => issue_fault hi (hb.trans (scalarStore_misaligned ha)), fun ha => ⟨fun c hc => issue_fault hi (hb.trans (scalarStore_bad ha hc)),
      fun hf => ⟨fun hal => issue_fault hi ?_, fun hal => issue_ok hi ?_⟩, fun off hr p hp hpath hc ho => issue_ok hi ?_⟩⟩
    · rw [hb, scalarStore_far ha hf, if_pos hal]
    · rw [hb, scalarStore_far ha hf, if_neg (by simp [hal])]
    · have hat : arrayOff (s.path off) = p.2 := hpath ▸ store_times p hp
      rw [hb, ← hat]
      exact scalarStore_spad ha hr hc (hat ▸ ho)

end

section
/-! SUPPORT. Multiply, divide, compare and bit forms: the values that they write (05 R108, R109, 06 R115, R116, Table 6-2). -/

namespace Sys2Proof.Machine
open Host

/-! ### A guarded form whose guard is true -/

/-- A guarded form whose guard is true, and that issues with its own effect, does what its body answers (02 R28). -/
theorem guarded_ok {h : Hdr} {len : Nat} {pg : PReg} {a : Ask} {body : State → Verdict} {s t : State} (hi : s.issuesIf h pg a)
    (hb : body s = .ok t) : guarded h len pg a body s = .next (t.retire len 0) :=
  (guarded_true hi.1).trans (issue_ok hi.2 hb)

/-- An instruction that is an operation of two index registers writes the value `v` of its function (05 R106, 06 R115). -/
theorem exec_of_indexOp {i : Instr} {h : Hdr} {xd xa xb : XReg} {pg : PReg} {lat : Nat} {f : Dword → Dword → Dword} {s : State} {v : Dword}
    (he : exec i s = indexOp h xd xa xb pg lat f s)
    (hi : s.issuesIf h pg { reads := [.x s.cur xa, .x s.cur xb], writes := [.x s.cur xd] }) (hv : f (s.xr xa) (s.xr xb) = v) :
    exec i s = .next ((s.laterX h xd lat v).retire 1 0) :=
  he.trans (guarded_ok hi (by rw [hv]))

/-- An instruction that is an operation of one index register writes the value `v` of its function (06 R116). -/
theorem exec_of_bitOp {i : Instr} {h : Hdr} {xd xa : XReg} {pg : PReg} {f : Dword → Dword} {s : State} {v : Dword}
    (he : exec i s = bitOp h xd xa pg f s)
    (hi : s.issuesIf h pg { reads := [.x s.cur xa], writes := [.x s.cur xd] }) (hv : f (s.xr xa) = v) :
    exec i s = .next ((s.laterX h xd 1 v).retire 1 0) :=
  he.trans (guarded_ok hi (by rw [hv]))

/-- An instruction that is an operation of two predicates combines them (05 R109). -/
theorem exec_of_predOp {i : Instr} {h : Hdr} {pd pa pb : PReg} {f : Bool → Bool → Bool} {s : State}
    (he : exec i s = predOp h pd pa pb f s) (hi : s.issues h { reads := [.p s.cur pa, .p s.cur pb], writes := [.p s.cur pd] }) :
    exec i s = .next ((s.laterP h pd 1 (f (s.pr pa) (s.pr pb))).retire 1 0) :=
  he.trans (issue_ok hi rfl)

/-! ### The operation that each form is -/

section
variable (h : Hdr) (pd pa pb : PReg) (xd xa xb : XReg) (pg : PReg) (s : State)

theorem exec_mul : exec (.mul h xd xa xb pg) s = indexOp h xd xa xb pg 4 (fun a b => a * b) s := rfl

theorem exec_mulhs : exec (.mulhs h xd xa xb pg) s = indexOp h xd xa xb pg 4 (fun a b => BitVec.ofInt 64 (a.toInt * b.toInt / 2 ^ 64)) s := rfl

theorem exec_mulhu : exec (.mulhu h xd xa xb pg) s = indexOp h xd xa xb pg 4 (fun a b => BitVec.ofNat 64 (a.toNat * b.toNat / 2 ^ 64)) s := rfl

theorem exec_idiv : exec (.idiv h xd xa xb pg) s =
    indexOp h xd xa xb pg 24 (fun a b => if b = 0 then BitVec.allOnes 64 else BitVec.ofInt 64 (a.toInt.tdiv b.toInt)) s := rfl

theorem exec_idivu : exec (.idivu h xd xa xb pg) s =
    indexOp h xd xa xb pg 24 (fun a b => if b = 0 then BitVec.allOnes 64 else BitVec.ofNat 64 (a.toNat / b.toNat)) s := rfl

theorem exec_irem : exec (.irem h xd xa xb pg) s =
    indexOp h xd xa xb pg 24 (fun a b => if b = 0 then a else BitVec.ofInt 64 (a.toInt.tmod b.toInt)) s := rfl

theorem exec_iremu : exec (.iremu h xd xa xb pg) s =
    indexOp h xd xa xb pg 24 (fun a b => if b = 0 then a else BitVec.ofNat 64 (a.toNat % b.toNat)) s := rfl

theorem exec_clz : exec (.clz h xd xa pg) s = bitOp h xd xa pg (fun a => BitVec.ofNat 64 (leadingZeros (bitList a).reverse)) s := rfl

theorem exec_ctz : exec (.ctz h xd xa pg) s = bitOp h xd xa pg (fun a => BitVec.ofNat 64 (leadingZeros (bitList a))) s := rfl

theorem exec_popc : exec (.popc h xd xa pg) s = bitOp h xd xa pg (fun a => BitVec.ofNat 64 ((bitList a).filter id).length) s := rfl

theorem exec_brev : exec (.brev h xd xa pg) s = bitOp h xd xa pg (fun a => a.reverse) s := rfl

theorem exec_bswap : exec (.bswap h xd xa pg) s = bitOp h xd xa pg (fun a => byteSwap a) s := rfl

theorem exec_pand : exec (.pand h pd pa pb) s = predOp h pd pa pb (fun a b => a && b) s := rfl

theorem exec_por : exec (.por h pd pa pb) s = predOp h pd pa pb (fun a b => a || b) s := rfl

theorem exec_pxor : exec (.pxor h pd pa pb) s = predOp h pd pa pb (fun a b => a != b) s := rfl

theorem exec_pandn : exec (.pandn h pd pa pb) s = predOp h pd pa pb (fun a b => a && !b) s := rfl

theorem exec_pcmp (cond : BitVec 3) : exec (.pcmp h pd xa xb cond) s =
    issue h 1 { reads := [.x s.cur xa, .x s.cur xb], writes := [.p s.cur pd] }
      (fun s => .ok (s.laterP h pd 1 (condHolds cond (s.xr xa) (s.xr xb)))) s := rfl

theorem exec_pcmpi (cond : BitVec 3) (imm : BitVec 10) : exec (.pcmpi h pd xa cond imm) s =
    issue h 1 { reads := [.x s.cur xa], writes := [.p s.cur pd] }
      (fun s => .ok (s.laterP h pd 1 (condHolds cond (s.xr xa) (imm.signExtend 64)))) s := rfl

end

/-! ### Values -/

/-- 02 Table 2-3: the six conditions. -/
theorem condHolds_table (a b : Dword) :
    ∀ k ∈ [((0 : BitVec 3), decide (a = b)), (1, decide (a ≠ b)), (2, decide (a.toInt < b.toInt)), (3, decide (b.toInt ≤ a.toInt)),
      (4, decide (a.toNat < b.toNat)), (5, decide (b.toNat ≤ a.toNat))], condHolds k.1 a b = k.2 := by
  have hs : (!a.slt b) = decide (b.toInt ≤ a.toInt) := by rw [BitVec.slt_eq_decide, ← decide_not, decide_eq_decide, not_lt]
  have hu : (!a.ult b) = decide (b.toNat ≤ a.toNat) := by rw [BitVec.ult_eq_decide, ← decide_not, decide_eq_decide, not_lt]
  have he : (a != b) = decide (a ≠ b) := by rw [decide_not, ← Bool.beq_eq_decide_eq]; rfl
  simp only [List.forall_mem_cons]
  exact ⟨Bool.beq_eq_decide_eq a b, he, BitVec.slt_eq_decide, hs, BitVec.ult_eq_decide, hu, List.forall_mem_nil _⟩

/-- Signed division overflows for -2^63 by -1 alone, and the quotient then wraps to -2^63 (06 R115). -/
theorem ofInt_tdiv (a b : Dword) : BitVec.ofInt 64 (a.toInt.tdiv b.toInt) =
    if a = 0x8000000000000000#64 ∧ b = 0xFFFFFFFFFFFFFFFF#64 then 0x8000000000000000#64 else BitVec.ofInt 64 (a.toInt.tdiv b.toInt) := by
  split
  · next h => rw [h.1, h.2]; decide
  · rfl

theorem ofInt_tmod (a b : Dword) : BitVec.ofInt 64 (a.toInt.tmod b.toInt) =
    if a = 0x8000000000000000#64 ∧ b = 0xFFFFFFFFFFFFFFFF#64 then 0 else BitVec.ofInt 64 (a.toInt.tmod b.toInt) := by
  split
  · next h => rw [h.1, h.2]; decide
  · rfl

theorem leadingZeros_eq_findIdx (bits : List Bool) : leadingZeros bits = bits.findIdx id := by
  simp [leadingZeros, List.takeWhile_eq_take_findIdx_not, List.findIdx_le_length]
  rfl

/-- How many bits come before the first that is set: each of them is clear, and the next, if there is one, is set. -/
theorem leadingZeros_map_range (f : Nat → Bool) (m : Nat) :
    leadingZeros ((List.range m).map f) ≤ m ∧ (∀ k, k < leadingZeros ((List.range m).map f) → f k = false) ∧
      (leadingZeros ((List.range m).map f) < m → f (leadingZeros ((List.range m).map f)) = true) := by
  rw [leadingZeros_eq_findIdx]
  refine ⟨?_, fun k hk => ?_, fun hm => ?_⟩
  · simpa using List.findIdx_le_length (p := id) (xs := (List.range m).map f)
  · simpa using List.not_of_lt_findIdx hk
  · simpa using List.findIdx_getElem (p := id) (xs := (List.range m).map f) (w := by simpa using hm)

theorem reverse_bitList (a : Dword) : (bitList a).reverse = (List.range 64).map (fun k => a.getLsbD (63 - k)) := rfl

/-- Bit `k` of byte `j` of a number of bytes stands at place `8 k + j` (00 R3). -/
theorem testBit_leNat (bs : List Byte) (k : Nat) {j : Nat} (hj : j < 8) : (leNat bs).testBit (8 * k + j) = (bs.getD k 0).getLsbD j := by
  induction bs generalizing k with
  | nil => simp [leNat]
  | cons b bs ih =>
    have hb : b.toNat < 2 ^ 8 := b.isLt
    rw [leNat, Nat.add_comm, show 256 = 2 ^ 8 from rfl, Nat.testBit_two_pow_mul_add _ hb]
    cases k with
    | zero => simp [hj, BitVec.getLsbD]
    | succ k =>
      rw [if_neg (by omega), show 8 * (k + 1) + j - 8 = 8 * k + j by omega, ih, List.getD_cons_succ]

theorem getLsbD_leBytes {n k j : Nat} (v : Nat) (hk : k < n) (hj : j < 8) : ((leBytes n v).getD k 0).getLsbD j = v.testBit (8 * k + j) := by
  induction n generalizing k v with
  | zero => omega
  | succ n ih =>
    cases k with
    | zero => simp [leBytes, hj, BitVec.getLsbD_ofNat, -BitVec.getLsbD_eq_getElem]
    | succ k =>
      rw [leBytes, List.getD_cons_succ, ih _ (by omega), show 256 = 2 ^ 8 from rfl, Nat.testBit_div_two_pow]
      congr 1
      omega

/-- The value with its bytes in the opposite order has as byte `k` byte `7 - k` (06 Table 6-2). -/
theorem getLsbD_byteSwap (a : Dword) {k j : Nat} (hk : k < 8) (hj : j < 8) :
    (byteSwap a).getLsbD (8 * k + j) = a.getLsbD (8 * (7 - k) + j) := by
  have hr : (leBytes 8 a.toNat).reverse.getD k 0 = (leBytes 8 a.toNat).getD (7 - k) 0 := by
    rw [List.getD_eq_getElem?_getD, List.getD_eq_getElem?_getD, List.getElem?_reverse (by simpa [length_leBytes] using hk), length_leBytes]
  rw [byteSwap, BitVec.getLsbD_ofNat, testBit_leNat _ _ hj, hr, getLsbD_leBytes _ (by omega) hj, decide_eq_true (by omega), Bool.true_and]
  rfl

end Sys2Proof.Machine
end

section
/-! OBLIGATIONS. Multiply, divide, compare and bit forms. -/

open Sys2Proof Sys2Proof.Machine Host

/-- Settles O12: each form is one of the shared operations, with the value of its table row. -/
theorem arithmeticAndBitForms : Obligations.ArithmeticAndBitForms := by
  refine ⟨?arith, fun h pd xa xb pa pb imm s => ?compare, fun h xd xa pg s hi => ?bits⟩
  case arith =>
    intro h xd xa xb pg s hi a b
    refine ⟨exec_of_indexOp (exec_mul ..) hi ?mul, exec_of_indexOp (exec_mulhs ..) hi rfl, exec_of_indexOp (exec_mulhu ..) hi rfl,
      fun hb => ?zero, fun hb => ?nonzero⟩
    case mul => rw [BitVec.ofInt_mul, BitVec.ofInt_toInt, BitVec.ofInt_toInt]
    case zero =>
      exact ⟨exec_of_indexOp (exec_idiv ..) hi (if_pos hb), exec_of_indexOp (exec_idivu ..) hi (if_pos hb),
        exec_of_indexOp (exec_irem ..) hi (if_pos hb), exec_of_indexOp (exec_iremu ..) hi (if_pos hb)⟩
    case nonzero =>
      exact ⟨exec_of_indexOp (exec_idiv ..) hi ((if_neg hb).trans (ofInt_tdiv a b)),
        exec_of_indexOp (exec_irem ..) hi ((if_neg hb).trans (ofInt_tmod a b)),
        exec_of_indexOp (exec_idivu ..) hi (if_neg hb), exec_of_indexOp (exec_iremu ..) hi (if_neg hb)⟩
  case compare =>
    refine ⟨?pcmp, ?pcmpi, fun hi => ?logic⟩
    case pcmp =>
      intro hi a b k hk
      exact exec_of_issue (exec_pcmp h pd xa xb s k.1) hi (by rw [condHolds_table _ _ k hk])
    case pcmpi =>
      intro hi a b k hk
      exact exec_of_issue (exec_pcmpi h pd xa s k.1 imm) hi (by rw [condHolds_table _ _ k hk])
    case logic =>
      exact ⟨exec_of_predOp (exec_pand ..) hi, exec_of_predOp (exec_por ..) hi, exec_of_predOp (exec_pxor ..) hi,
        exec_of_predOp (exec_pandn ..) hi⟩
  case bits =>
    refine ⟨?clz, ?ctz, exec_of_bitOp (exec_popc ..) hi ?popc, ⟨_, fun k hk => ?brev, exec_of_bitOp (exec_brev ..) hi rfl⟩,
      _, fun k j hk hj => getLsbD_byteSwap _ hk hj, exec_of_bitOp (exec_bswap ..) hi rfl⟩
    case clz =>
      obtain ⟨hle, hclear, hset⟩ := leadingZeros_map_range (fun k => (s.xr xa).getLsbD (63 - k)) 64
      refine ⟨_, hle, fun k hk => ?_, hset, exec_of_bitOp (exec_clz ..) hi (by rw [reverse_bitList])⟩
      rcases Nat.lt_or_ge k 64 with hk64 | hk64
      · have := hclear (63 - k) (by omega)
        rwa [show 63 - (63 - k) = k by omega] at this
      · exact BitVec.getLsbD_of_ge _ _ hk64
    case ctz =>
      obtain ⟨hle, hclear, hset⟩ := leadingZeros_map_range (s.xr xa).getLsbD 64
      exact ⟨_, hle, hclear, hset, exec_of_bitOp (exec_ctz ..) hi rfl⟩
    case popc => rw [bitList, ← List.countP_eq_length_filter, List.countP_map]; rfl
    case brev => rw [BitVec.getLsbD_reverse, BitVec.getMsbD_eq_getLsbD, decide_eq_true hk, Bool.true_and]

end

section
/-! SUPPORT. Conditional branches: what issues, what their resolution leaves and what a taken one kills (06 R118, R119). -/

namespace Sys2Proof.Machine
open Host

/-! ### Issue (06 R118) -/

/-- The branches of a sequencer take no part in its end check (05 R97). -/
theorem endCheck_branches (ls : List (Fin 4)) (q : Seq) (n : Dword) (bs : List Branch) :
    (endCheck ls { q with branches := bs } n).2 = (endCheck ls q n).2 := by
  induction ls generalizing q with
  | nil => rfl
  | cons l ls ih =>
    unfold endCheck
    dsimp only
    split
    · rfl
    · exact ih { q with loops := q.loops.set l.val { q.loops.get l with active := false } l.isLt }

theorem advance_pc_branches (q : Seq) (len n c : Nat) (bs : List Branch) :
    ({ q with branches := bs }.advance len n c).pc = (q.advance len n c).pc := by
  rw [advance_eq, advance_eq]
  exact congrArg q.after.getD (endCheck_branches (endingLevels q len) q _ bs)

theorem advance_branches (q : Seq) (len n c : Nat) : (q.advance len n c).branches = q.branches := by rw [advance_eq]

theorem retire_me (s : State) (len n : Nat) : (s.retire len n).me = s.me.advance len n s.cyc := me_setMe ..

/-- The branch that `State.branch` adds (06 R118). -/
def State.newBranch (s : State) (h : Hdr) (taken : Bool) (target : Dword) : Branch :=
  { id := s.serial, at_ := s.cyc + 3, taken := taken, target := target, sq := h.sq }

section
variable (s : State) (h : Hdr) (taken : Bool) (target : Dword)

theorem branch_me : (s.branch h taken target).me = { s.me with branches := s.me.branches ++ [s.newBranch h taken target] } := me_setMe ..

/-- A branch that has issued goes on after its word, unresolved until its resolution three cycles later (06 R118). -/
theorem retire_branch : ∃ t, Outcome.next ((s.branch h taken target).retire 1 0) = (.next t : Res) ∧
    t.me.pc = (s.me.advance 1 0 s.cyc).pc ∧ t.me.branches = s.me.branches ++ [s.newBranch h taken target] ∧
    (∃ e ∈ t.agenda, e.due = .cyc (s.cyc + 3) ∧ e.ev = .branchResolve s.cur.unit s.serial) ∧ t.effs = s.effs := by
  refine ⟨_, rfl, ?_, ?_, ⟨_, List.mem_append_right _ (List.mem_singleton_self _), rfl, rfl⟩, rfl⟩
  · rw [retire_me, branch_me]
    exact advance_pc_branches ..
  · rw [retire_me, branch_me, advance_branches]

end

theorem exec_br (h : Hdr) (p : PReg) (neg : BitVec 1) (off : BitVec 17) (s : State) : exec (.br h p neg off) s =
    issue h 1 { reads := [.p s.cur p] } (fun s => .ok (s.branch h (s.pr p != (neg == 1)) (s.me.pc + 4 * off.signExtend 64))) s := rfl

theorem exec_beqz (h : Hdr) (xa : XReg) (off : BitVec 14) (s : State) : exec (.beqz h xa off) s =
    zeroBranch h xa off (fun v => v == 0) s := rfl

theorem exec_bnez (h : Hdr) (xa : XReg) (off : BitVec 14) (s : State) : exec (.bnez h xa off) s =
    zeroBranch h xa off (fun v => v != 0) s := rfl

theorem exec_bltz (h : Hdr) (xa : XReg) (off : BitVec 14) (s : State) : exec (.bltz h xa off) s =
    zeroBranch h xa off (fun v => decide (v < 0)) s := rfl

theorem exec_bgez (h : Hdr) (xa : XReg) (off : BitVec 14) (s : State) : exec (.bgez h xa off) s =
    zeroBranch h xa off (fun v => decide (0 ≤ v)) s := rfl

/-- An instruction that branches on the sign of a register issues a branch of that condition (06 R118). -/
theorem exec_of_zeroBranch {i : Instr} {h : Hdr} {xa : XReg} {off : BitVec 14} {f : Int → Bool} {s : State} {taken : Bool}
    (he : exec i s = zeroBranch h xa off f s) (hi : s.issues h { reads := [.x s.cur xa] }) (hf : f (s.xr xa).toInt = taken) :
    exec i s = .next ((s.branch h taken (s.me.pc + 4 * off.signExtend 64)).retire 1 0) :=
  he.trans (issue_ok hi (by rw [hf]; rfl))

/-! ### What a taken branch kills (06 R119) -/

theorem core_congr {s t : State} (h : t.cores = s.cores) (u : UnitId) : t.core u = s.core u := congrArg (Vector.get · u) h

/-- A sequencer after a kill on cycle `cyc`: without its squashable orders that have not committed, and without a squashable wait. -/
def Seq.withoutShadow (q : Seq) (cyc : Nat) : Seq :=
  { q with
    marks := q.marks.filter (fun m => !(m.sq && decide (cyc ≤ m.commit)))
    wait := match q.wait with | some w => if w.sq then none else some w | none => none }

section
variable (s : State) (u : UnitId) (cyc : Nat)

theorem killSquashed_cores : ∃ f : Core → Core, (s.killSquashed u cyc).cores = (s.modCore u f).cores ∧
    ∀ c, (f c).scl = c.scl.withoutShadow cyc := by
  unfold State.killSquashed
  dsimp only
  exact ⟨_, rfl, fun _ => rfl⟩

theorem scl_killSquashed : ((s.killSquashed u cyc).core u).scl = (s.core u).scl.withoutShadow cyc := by
  obtain ⟨f, hc, hf⟩ := killSquashed_cores s u cyc
  rw [core_congr hc, core_modCore_same, hf]

theorem core_killSquashed_other {v : UnitId} (hv : v ≠ u) : (s.killSquashed u cyc).core v = s.core v := by
  obtain ⟨f, hc, -⟩ := killSquashed_cores s u cyc
  rw [core_congr hc, core_modCore_other _ _ _ _ hv]

theorem mem_effs_killSquashed (e : Eff) :
    e ∈ (s.killSquashed u cyc).effs ↔ e ∈ s.effs ∧ ¬ (e.by_ = ⟨u, .scl⟩ ∧ e.sq = true ∧ cyc ≤ e.commit) := by
  simp only [State.killSquashed, modCore_effs, List.mem_filter, Bool.not_eq_true', ← Bool.not_eq_true, Bool.and_eq_true,
    beq_iff_eq, decide_eq_true_eq, and_assoc]

end

theorem mem_marks_withoutShadow (q : Seq) (cyc : Nat) (m : Mark) :
    m ∈ (q.withoutShadow cyc).marks ↔ m ∈ q.marks ∧ ¬ (m.sq = true ∧ cyc ≤ m.commit) := by
  simp only [Seq.withoutShadow, List.mem_filter, Bool.not_eq_true', ← Bool.not_eq_true, Bool.and_eq_true, decide_eq_true_eq]

theorem wait_withoutShadow {q : Seq} {w : Wait} (hw : q.wait = some w) (cyc : Nat) :
    (q.withoutShadow cyc).wait = if w.sq then none else some w := by
  simp [Seq.withoutShadow, hw]

/-! ### Resolution (06 R118, R119) -/

/-- A sequencer whose branch `b`, of number `id`, resolves on cycle `cyc`. -/
def Seq.resolve (q : Seq) (id : Nat) (b : Branch) (cyc : Nat) : Seq :=
  { q with
    branches := q.branches.filter (fun x => x.id != id && !(b.taken && x.sq))
    resolved := some cyc
    redirect := if b.taken then some b.target else q.redirect }

section
variable {s : State} {u : UnitId} {id : Nat}

theorem exec_branchResolve_killed (hf : (s.core u).scl.branches.find? (fun b => b.id == id) = none) :
    exec (.branchResolve u id) s = .next s := by
  change execBranchResolve u id s = _
  unfold execBranchResolve
  simp only [hf]

/-- The resolution of a branch of a core whose node is not halted: the kill, where it is taken, and then the branch goes. -/
theorem exec_branchResolve {b : Branch} (hf : (s.core u).scl.branches.find? (fun b => b.id == id) = some b)
    (hn : ∀ nd n, (s.core u).node = some nd → s.node? nd = some n → n.state ≠ .halted) :
    exec (.branchResolve u id) s = .next ((if b.taken then s.killSquashed u s.cyc else s).modCore u
      (fun c => { c with scl := c.scl.resolve id b s.cyc })) := by
  change execBranchResolve u id s = _
  unfold execBranchResolve
  simp only [hf]
  have hc : (if b.taken then s.killSquashed u s.cyc else s).cyc = s.cyc := by split <;> rfl
  rw [if_neg, hc]
  · rfl
  · split
    · next n hb =>
      obtain ⟨nd, hnd, hnode⟩ := Option.bind_eq_some_iff.1 hb
      simp [hn nd n hnd hnode]
    · exact Bool.false_ne_true

end

end Sys2Proof.Machine
end

section
/-! OBLIGATIONS. Conditional branches. -/

open Sys2Proof Sys2Proof.Machine Host

/-- Settles O18: a branch is issued by `State.branch`; its resolution is the kill of its shadow, where it is taken, and then `Seq.resolve`. -/
theorem branchForms : Obligations.BranchForms := by
  refine ⟨fun h s => ⟨fun p neg off hi => ?br, ?zero⟩, fun u id s => ⟨exec_branchResolve_killed, fun b hf hn => ?resolve⟩⟩
  case br => exact exec_of_issue (exec_br h p neg off s) hi rfl ▸ retire_branch ..
  case zero =>
    intro xa off hi v
    have he : ∀ k ∈ [(Instr.beqz h xa off, decide (v = 0)), (.bnez h xa off, decide (v ≠ 0)), (.bltz h xa off, decide (v < 0)),
        (.bgez h xa off, decide (0 ≤ v))], exec k.1 s = .next ((s.branch h k.2 (s.me.pc + 4 * off.signExtend 64)).retire 1 0) := by
      simp only [List.forall_mem_cons]
      exact ⟨exec_of_zeroBranch (exec_beqz ..) hi (Bool.beq_eq_decide_eq _ _), exec_of_zeroBranch (exec_bnez ..) hi (Bool.eq_iff_iff.2 (by simp [v])),
        exec_of_zeroBranch (exec_bltz ..) hi rfl, exec_of_zeroBranch (exec_bgez ..) hi rfl, List.forall_mem_nil _⟩
    intro k hk
    rw [he k hk]
    exact retire_branch ..
  case resolve =>
    refine ⟨_, exec_branchResolve hf hn, ?_⟩
    rw [core_modCore_same]
    refine ⟨rfl, fun ht => ?taken, ?branches, fun ht => ?untaken, fun v hv => ?other⟩
    case taken =>
      rw [if_pos ht]
      refine ⟨if_pos ht, mem_effs_killSquashed s u s.cyc, fun m => ?_, fun w hw => ?_⟩
      · rw [← mem_marks_withoutShadow, ← scl_killSquashed]; rfl
      · rw [← wait_withoutShadow hw, ← scl_killSquashed]; rfl
    case branches =>
      have hb : ((if b.taken then s.killSquashed u s.cyc else s).core u).scl.branches = (s.core u).scl.branches := by
        split
        · rw [scl_killSquashed]; rfl
        · rfl
      exact congrArg (List.filter _) hb
    case untaken => simp [ht, Seq.resolve]
    case other =>
      rw [core_modCore_other _ _ _ _ hv]
      split
      · exact core_killSquashed_other s u s.cyc hv
      · rfl

end

section
/-! SUPPORT. The line path and the banked path: their checks in order, and the access that passes them (07 R129, R130, R138, R141, R142, Table 7-3). -/

namespace Sys2Proof.Machine
open Host

/-! ### Units in use -/

section
variable {i : Instr} {h : Hdr} {len till : Nat} {a : Ask} {body : State → Verdict} {s : State}

theorem busy_of_aligned (hal : s.me.aligned = true) (till : Nat) : s.busy till = .fault { code := .timing } := if_pos hal

theorem busy_of_free (hal : s.me.aligned = false) (till : Nat) : s.busy till = .stall till := if_neg (by simp [hal])

theorem busy_ne_ok (s : State) (till : Nat) (t : State) : s.busy till ≠ .ok t := by
  unfold State.busy
  split <;> exact Verdict.noConfusion

theorem fault_ne_ok (r : Raise) (t : State) : Verdict.fault r ≠ .ok t := Verdict.noConfusion

/-- An instruction that finds a unit in use waits for it, or raises TIMING (07 R129). -/
theorem waitsFor_of_busy (he : exec i s = issue h len a body s) (hi : s.issues h a) (hb : body s = s.busy till) : s.waitsFor h len till i :=
  ⟨fun hal => he.trans (issue_fault hi (hb.trans (busy_of_aligned hal till))),
   fun hal => by rw [he, issue_go hi, hb, busy_of_free hal]⟩

/-- An instruction that is illegal as it stands (02 R39). -/
theorem issue_illegal (ha : a.illegal = true) (hs : a.serial = false) (hsq : h.sq = false) :
    issue h len a body s = .next (s.raise h len { code := .illegal }) := by
  have hg : s.gate h a = .fault { code := .illegal } := by simp [State.gate, ha, hs]
  simp [issue, hg, hsq]

end

/-! ### The issuing core with another port cycle -/

section
variable {s : State} {f : Core → Core}

@[simp] theorem here_modHere (s : State) (f : Core → Core) : (s.modHere f).here = f s.here := core_modCore_same ..

/-- A change of the issuing core that leaves its sequencers leaves the one that issues. -/
theorem me_modHere (hf : (f s.here).seq s.cur.q = s.here.seq s.cur.q) : (s.modHere f).me = s.me := by
  show (s.modHere f).here.seq s.cur.q = s.here.seq s.cur.q
  rw [here_modHere, hf]

theorem fixedLoad_modHere (hf : (f s.here).seq s.cur.q = s.here.seq s.cur.q) (a : Dword) : (s.modHere f).fixedLoad a = s.fixedLoad a := by
  unfold State.fixedLoad
  rw [me_modHere hf]

theorem commitCycle_modHere (hf : (f s.here).scl = s.here.scl) : (s.modHere f).commitCycle = s.commitCycle := by
  simp [State.commitCycle, State.unresolved, Core.lastBranch, hf]

end

/-! ### The line path (07 R138, R141) -/

/-- 07 Table 7-3: the array cycle and the landing of a line load after its issue, by its path, before its beats. -/
theorem line_times : ∀ p ∈ [(0, 4, 11), (1, 20, 39), (2, 48, 95)], arrayOff p.1 = p.2.1 ∧ lineLand p.1 = p.2.2 := by decide

/-- 07 Table 7-3: as `line_times`, for a tile, which takes one beat. -/
theorem tile_times : ∀ p ∈ [(0, 4, 12), (1, 20, 40), (2, 48, 96)], arrayOff p.1 = p.2.1 ∧ lineLand p.1 + beats 1024 = p.2.2 := by decide

/-- 07 Table 7-3: the array cycle and the landing of a banked load after its issue, by its path, before its passes. -/
theorem bank_times : ∀ p ∈ [(0, 4, 13), (1, 20, 41), (2, 48, 97)], arrayOff p.1 = p.2.1 ∧ bankLand p.1 = p.2.2 := by decide

section
variable {s : State} {h : Hdr} {a : Dword} {oc : BitVec 4} {ord : BitVec 3} {n off : Nat} {wait : Option Nat} {dest : LoadTo} {v : Tile} {c : Code}

theorem lineLoad_misaligned (ha : a.toNat % 256 ≠ 0) :
    s.lineLoad h a oc ord n wait dest = .fault { code := .alignment, addr := a.toNat } := if_pos ha

theorem lineStore_misaligned (ha : a.toNat % 256 ≠ 0) : s.lineStore h v a oc ord = .fault { code := .alignment, addr := a.toNat } := if_pos ha

variable (ha : a.toNat % 256 = 0)
include ha

theorem lineLoad_bad (hb : s.reach a n = .bad c) : s.lineLoad h a oc ord n wait dest = .fault { code := c, addr := a.toNat } := by
  simp [State.lineLoad, ha, hb, addrFault_of_reach hb]

theorem lineStore_bad (hb : s.reach a 1024 = .bad c) : s.lineStore h v a oc ord = .fault { code := c, addr := a.toNat } := by
  simp [State.lineStore, ha, hb, addrFault_of_reach hb]

theorem lineLoad_far (hf : s.reach a n = .far) : s.lineLoad h a oc ord n wait dest = .fault { code := .protection, addr := a.toNat } := by
  simp [State.lineLoad, ha, hf, addrFault]

theorem lineStore_far (hf : s.reach a 1024 = .far) : s.lineStore h v a oc ord = .fault { code := .protection, addr := a.toNat } := by
  simp [State.lineStore, ha, hf, addrFault]

theorem lineLoad_busy (hr : s.reach a n = .spad off) (hp : s.cyc < s.here.lineRead) :
    s.lineLoad h a oc ord n wait dest = s.busy s.here.lineRead := by
  simp [State.lineLoad, ha, hr, hp]

theorem lineStore_busy (hr : s.reach a 1024 = .spad off) (hp : s.cyc < s.here.lineWrite) : s.lineStore h v a oc ord = s.busy s.here.lineWrite := by
  simp [State.lineStore, ha, hr, hp]

/-- A line load that nothing stops: the access, and its port taken for a cycle each beat (07 R129, R141). -/
theorem lineLoad_spad (hr : s.reach a n = .spad off) (hp : s.here.lineRead ≤ s.cyc) (hc : s.path off = 0 → s.claimed off n = false)
    (ho : s.inOrder oc false (s.cyc + arrayOff (s.path off)) = true) : s.lineLoad h a oc ord n none dest =
      .ok ((s.access h a oc ord (s.cyc + arrayOff (s.path off)) (s.cyc + lineLand (s.path off) + beats n) (s.fixedLoad a)
        (.load (span off n) [] dest (s.cyc + lineLand (s.path off) + beats n) (s.cyc + arrayOff (s.path off)))).modHere
          (fun c => { c with lineRead := s.cyc + beats n })) := by
  simp only [State.lineLoad, ha, hr, mayAct_of hc ho, Nat.not_lt.2 hp, ne_eq, not_true_eq_false, if_false, Bool.false_eq_true]
  rfl

theorem lineStore_spad (hr : s.reach a 1024 = .spad off) (hp : s.here.lineWrite ≤ s.cyc) (hc : s.path off = 0 → s.claimed off 1024 = false)
    (ho : s.inOrder oc (isAcq ord) (s.cyc + arrayOff (s.path off)) = true) : s.lineStore h v a oc ord =
      .ok ((s.access h a oc ord (s.cyc + arrayOff (s.path off)) s.commitCycle true
        (.store (s.portRank off .line) (cellsAt off (wordBytes v)) (s.cyc + arrayOff (s.path off)))).modHere
          (fun c => { c with lineWrite := s.cyc + 1 })) := by
  simp only [State.lineStore, ha, hr, mayAct_of hc ho, Nat.not_lt.2 hp, ne_eq, not_true_eq_false, if_false, Bool.false_eq_true]
  rfl

end

theorem exec_ld (h : Hdr) (vt : TileCode) (xa : XReg) (oc : BitVec 4) (ord : BitVec 3) (s : State) : exec (.ld h vt xa oc ord) s =
    issue h 1 { reads := [.x s.cur xa], writes := s.tileDest vt } (fun s => s.lineLoad h (s.xr xa) oc ord 1024 none (.tile vt.toNat)) s := rfl

theorem exec_ldDisp (h : Hdr) (vt : TileCode) (xa : XReg) (oc : BitVec 4) (ord : BitVec 3) (disp : BitVec 32) (s : State) :
    exec (.ldDisp h vt xa oc ord disp) s = issue h 2 { reads := [.x s.cur xa], writes := s.tileDest vt }
      (fun s => s.lineLoad h (s.xr xa + disp.signExtend 64) oc ord 1024 none (.tile vt.toNat)) s := rfl

theorem exec_st (h : Hdr) (vt : TileCode) (xa : XReg) (oc : BitVec 4) (ord : BitVec 3) (s : State) : exec (.st h vt xa oc ord) s =
    issue h 1 { reads := .x s.cur xa :: s.tileDest vt } (fun s => s.lineStore h (s.tile vt) (s.xr xa) oc ord) s := rfl

theorem exec_stDisp (h : Hdr) (vt : TileCode) (xa : XReg) (oc : BitVec 4) (ord : BitVec 3) (disp : BitVec 32) (s : State) :
    exec (.stDisp h vt xa oc ord disp) s = issue h 2 { reads := .x s.cur xa :: s.tileDest vt }
      (fun s => s.lineStore h (s.tile vt) (s.xr xa + disp.signExtend 64) oc ord) s := rfl

/-! ### The banked path (07 R130, R138, R142) -/

/-- The elements' checks answer no other codes than these (07 Table 7-6). -/
theorem bankedCheck_code {s : State} {base : Dword} {addrs : List Dword} {n : Nat} {c : Code} {a : Dword}
    (hb : s.bankedCheck base addrs n = some (c, a)) : c ≠ .timing := by
  unfold State.bankedCheck at hb
  dsimp only at hb
  split at hb
  · obtain ⟨rfl, -⟩ := Prod.mk.inj (Option.some.inj hb); nofun
  · obtain ⟨rfl, -⟩ := Prod.mk.inj (Option.some.inj hb); nofun
  · obtain ⟨_, -, hca⟩ := Option.map_eq_some_iff.1 hb
    obtain ⟨rfl, -⟩ := Prod.mk.inj hca
    nofun

section
variable {s : State} {base : Dword} {addrs : List Dword} {n : Nat} {budget : BitVec 9} {oc : BitVec 4} {rel : Bool}
  {act : State → Nat → Nat → Nat → Verdict}

theorem banked_bad {c : Code} {a : Dword} (hb : s.bankedCheck base addrs n = some (c, a)) :
    s.banked base addrs n budget oc rel act = .fault { code := c, addr := a.toNat } := by
  simp [State.banked, hb, addrFault, bankedCheck_code hb]

variable (hb : s.bankedCheck base addrs n = none)
include hb

theorem banked_busy (hp : s.cyc < s.here.banked) : s.banked base addrs n budget oc rel act = s.busy s.here.banked := by
  simp [State.banked, hb, hp]

/-- A banked access of elements of `w` words that nothing stops takes its port for its passes, or in aligned mode for its budget (07 R129 to
R131). -/
theorem banked_ok {w : Nat} (hn : n = 4 * w) (hp : s.here.banked ≤ s.cyc) (hk : s.me.aligned = true → passesOf w addrs ≤ budget.toNat)
    (hc : s.path (s.bankedOff addrs) = 0 → ∀ a ∈ addrs, s.claimed (s.elementOff a) n = false)
    (ho : s.inOrder oc rel (s.cyc + arrayOff (s.path (s.bankedOff addrs))) = true) :
    s.banked base addrs n budget oc rel act =
      act (s.modHere (fun c => { c with banked := s.cyc + if s.me.aligned then budget.toNat else passesOf w addrs })) (s.bankedOff addrs)
        (if s.me.aligned then budget.toNat else passesOf w addrs) (s.cyc + arrayOff (s.path (s.bankedOff addrs))) := by
  have hw : n / 4 = w := by rw [hn, Nat.mul_div_cancel_left _ (by decide)]
  have hshort : (s.me.aligned && decide (budget.toNat < passesOf w addrs)) = false := by
    cases hal : s.me.aligned
    · rfl
    · simpa using hk hal
  have hheld : ((s.path (s.bankedOff addrs) == 0 && addrs.any (fun a => s.claimed (s.elementOff a) n)) ||
      !s.inOrder oc rel (s.cyc + arrayOff (s.path (s.bankedOff addrs)))) = false := by
    by_cases hp : s.path (s.bankedOff addrs) = 0
    · simpa [ho] using fun _ => hc hp
    · simp [ho, hp]
  simp only [State.banked, hb, hw, Nat.not_lt.2 hp, hshort, hheld, if_false, Bool.false_eq_true]

end

/-- The data of the elements of a banked store, with their package offsets: those of the element of highest index come last (07 R142). -/
def State.elementCells (s : State) (v : Tile) (addrs : List Dword) (n : Nat) : List (Nat × Byte) :=
  (addrs.zip (List.range addrs.length)).flatMap (fun e => cellsAt (s.elementOff e.1) (((wordBytes v).drop (n * e.2)).take n))

section
variable (h : Hdr) (vt vi : TileCode) (xa : XReg) (oc : BitVec 4) (budget : BitVec 9) (size : BitVec 2) (ord : BitVec 3) (s : State)

/-- The operands of a banked form, by the words of its elements (07 R142). -/
def State.bankedAsk (reads writes : List Dest) (skip : List (Nat × Nat)) (w : Nat) : Ask :=
  { reads := reads, writes := writes, illegal := s.zeroBudget budget, lanes := w * (lanesOf s.here.shp / w), skip := skip }

theorem elementBytes_div (size : BitVec 2) : elementBytes size / 4 = 2 ^ size.toNat := Nat.mul_div_cancel_left _ (by decide)

theorem exec_ldb : exec (.ldb h vt vi xa oc budget size ord) s =
    issue h 2 (s.bankedAsk budget (.x s.cur xa :: s.tileDest vi) (s.tileDest vt) (idleOffsets vi (2 ^ size.toNat)) (2 ^ size.toNat)) (fun s =>
      let addrs := elementAddrs (s.xr xa) (s.tile vi) (2 ^ size.toNat) (lanesOf s.here.shp)
      s.banked (s.xr xa) addrs (elementBytes size) budget oc false (fun s off k t =>
        let land := s.cyc + bankLand (s.path off) + k
        if addrs.isEmpty then .ok (s.later h land true true (.load [] [] (.lanes vt.toNat) land t))
        else .ok (s.access h (addrs.headD 0) oc ord t land (s.fixedLoad (addrs.headD 0))
          (.load (addrs.flatMap (fun a => span (s.elementOff a) (elementBytes size))) [] (.lanes vt.toNat) land t) (elementBytes size)))) s := by
  rw [← elementBytes_div]; rfl

theorem exec_stb : exec (.stb h vt vi xa oc budget size ord) s =
    issue h 2 (s.bankedAsk budget (.x s.cur xa :: (s.tileDest vi ++ s.tileDest vt)) []
        (if vt = vi then [] else idleOffsets vi (2 ^ size.toNat)) (2 ^ size.toNat)) (fun s =>
      let addrs := elementAddrs (s.xr xa) (s.tile vi) (2 ^ size.toNat) (lanesOf s.here.shp)
      let v := s.tile vt
      s.banked (s.xr xa) addrs (elementBytes size) budget oc (isAcq ord) (fun s off _ t =>
        .ok (s.access h (addrs.headD 0) oc ord t s.commitCycle true
          (.store (s.portRank off .banked) (s.elementCells v addrs (elementBytes size)) t)))) s := by
  rw [← elementBytes_div]; rfl

end

end Sys2Proof.Machine
end

section
/-! OBLIGATIONS. The line path and the banked path. -/

open Sys2Proof Sys2Proof.Machine Host

/-- Settles O26: each clause is one branch of `lineLoad`, of `lineStore`, or of `banked`. -/
theorem lineAndBankedForms : Obligations.LineAndBankedForms := by
  intro h vt vi xa oc ord disp budget size s
  refine ⟨?ld, ?st, ?banked⟩
  case ld =>
    intro hi k hk
    obtain ⟨body, he, hb⟩ : ∃ body, exec k.1 s = issue h k.2.2 { reads := [.x s.cur xa], writes := s.tileDest vt } body s ∧
        body s = s.lineLoad h k.2.1 oc ord 1024 none (.tile vt.toNat) := by
      obtain rfl | rfl : k = _ ∨ k = _ := by simpa using hk
      · exact ⟨_, exec_ld .., rfl⟩
      · exact ⟨_, exec_ldDisp .., rfl⟩
    refine ⟨fun ha => ?_, fun ha hf => ?_, fun ha c hc => ?_, fun ha off hr hp => waitsFor_of_busy he hi (hb.trans (lineLoad_busy ha hr hp)),
      fun ha off hr p hp hpath hport hc ho => ?_⟩
    · exact he.trans (issue_fault hi (hb.trans (lineLoad_misaligned ha)))
    · exact he.trans (issue_fault hi (hb.trans (lineLoad_far ha hf)))
    · exact he.trans (issue_fault hi (hb.trans (lineLoad_bad ha hc)))
    · obtain ⟨hat, hland⟩ : arrayOff (s.path off) = p.2.1 ∧ lineLand (s.path off) + beats 1024 = p.2.2 := hpath ▸ tile_times p hp
      rw [← hat, ← hland, ← Nat.add_assoc]
      exact exec_of_issue he hi (hb.trans (lineLoad_spad ha hr hport hc (hat ▸ ho)))
  case st =>
    intro hi k hk
    obtain ⟨body, he, hb⟩ : ∃ body, exec k.1 s = issue h k.2.2 { reads := .x s.cur xa :: s.tileDest vt } body s ∧
        body s = s.lineStore h (s.tile vt) k.2.1 oc ord := by
      obtain rfl | rfl : k = _ ∨ k = _ := by simpa using hk
      · exact ⟨_, exec_st .., rfl⟩
      · exact ⟨_, exec_stDisp .., rfl⟩
    refine ⟨fun ha => ?_, fun ha hf => ?_, fun ha c hc => ?_, fun ha off hr hp => waitsFor_of_busy he hi (hb.trans (lineStore_busy ha hr hp)),
      fun ha off hr p hp hpath hport hc ho => ?_⟩
    · exact he.trans (issue_fault hi (hb.trans (lineStore_misaligned ha)))
    · exact he.trans (issue_fault hi (hb.trans (lineStore_far ha hf)))
    · exact he.trans (issue_fault hi (hb.trans (lineStore_bad ha hc)))
    · have hat : arrayOff (s.path off) = p.2 := hpath ▸ store_times p hp
      rw [← hat]
      exact exec_of_issue he hi (hb.trans (lineStore_spad ha hr hport hc (hat ▸ ho)))
  case banked =>
    intro n addrs off passes none_ w idle ldb stb
    have hldb := exec_ldb h vt vi xa oc budget size ord s
    have hstb := exec_stb h vt vi xa oc budget size ord s
    refine ⟨fun hz hsq => ⟨?_, ?_⟩, fun c a hc => ⟨fun hi => ?_, fun hi => ?_⟩, fun hc hp => ⟨fun hi => ?_, fun hi => ?_⟩,
      fun hc hport hk hcl p hp hpath => ?acts⟩
    · exact hldb.trans (issue_illegal hz rfl hsq)
    · exact hstb.trans (issue_illegal hz rfl hsq)
    · exact hldb.trans (issue_fault hi (banked_bad hc))
    · exact hstb.trans (issue_fault hi (banked_bad hc))
    · exact waitsFor_of_busy hldb hi (banked_busy hc hp)
    · exact waitsFor_of_busy hstb hi (banked_busy hc hp)
    case acts =>
      obtain ⟨hat, hland⟩ : arrayOff (s.path off) = p.2.1 ∧ bankLand (s.path off) = p.2.2 := hpath ▸ bank_times p hp
      rw [← hat, ← hland]
      refine ⟨fun hi ho => ?_, fun hi ho => exec_of_issue hstb hi ((banked_ok hc rfl hport hk hcl ho).trans ?_)⟩
      · intro s' land
        refine exec_of_issue hldb hi ((banked_ok hc rfl hport hk hcl ho).trans ?_)
        have hfix : s'.fixedLoad (addrs.headD 0) = s.fixedLoad (addrs.headD 0) := fixedLoad_modHere (by cases s.cur.q <;> rfl) _
        rw [← hfix]
        by_cases hnil : addrs = []
        · rw [if_pos hnil]
          exact if_pos (List.isEmpty_iff.2 hnil)
        · rw [if_neg hnil]
          exact if_neg (by rwa [List.isEmpty_iff])
      · have hcom : (s.modHere (fun c => { c with banked := s.cyc + passes })).commitCycle = s.commitCycle := commitCycle_modHere rfl
        rw [← hcom]
        rfl

end

section
/-! SUPPORT. Slots, the scale queue and the ring: what stops their loads, and the loads that pass (07 R144 to R149, Table 7-6). -/

namespace Sys2Proof.Machine
open Host

/-! ### The core after an issue -/

theorem here_retire (s : State) (len n : Nat) : (s.retire len n).here = s.here.setSeq s.cur.q (s.me.advance len n s.cyc) := core_setCore_same ..

theorem sq_setSeq (c : Core) (q : SeqName) (v : Seq) : (c.setSeq q v).sq = c.sq := by cases q <;> rfl

theorem lineRead_setSeq (c : Core) (q : SeqName) (v : Seq) : (c.setSeq q v).lineRead = c.lineRead := by cases q <;> rfl

/-! ### Loads of slots and of scale entries (07 R144 to R147) -/

/-- 07 Table 7-3: the array cycle of every path. -/
theorem getD_arrayOff : ∀ path, [4, 20, 48].getD path 48 = arrayOff path
  | 0 => rfl
  | 1 => rfl
  | n + 2 => by simp [arrayOff]

section
variable {s : State} {h : Hdr} {a : Dword} {oc : BitVec 4} {ord : BitVec 3} {n off : Nat} {wait : Option Nat} {dest : LoadTo}

/-- In aligned mode a taken port, a claimed byte, an order and a wait of the form's own raise TIMING alike (07 R138). -/
theorem lineLoad_timing (hal : s.me.aligned = true) (ha : a.toNat % 256 = 0) (hr : s.reach a n = .spad off)
    (hstop : s.cyc < s.here.lineRead ∨ (s.path off = 0 ∧ s.claimed off n = true) ∨
      s.inOrder oc false (s.cyc + arrayOff (s.path off)) = false ∨ wait.isSome = true) :
    s.lineLoad h a oc ord n wait dest = .fault { code := .timing } := by
  simp only [State.lineLoad, ha, hr, busy_of_aligned hal, ne_eq, not_true_eq_false, if_false]
  cases wait with
  | some till => exact ite_self _
  | none =>
    by_cases hp : s.cyc < s.here.lineRead
    · exact if_pos hp
    · have hheld : ((s.path off == 0 && s.claimed off n) || !s.inOrder oc false (s.cyc + arrayOff (s.path off))) = true := by
        simpa [hp] using hstop
      exact (if_neg hp).trans (if_pos hheld)

/-- In aligned mode a load of a slot waits for nothing (07 R145). -/
theorem slotWait_of_aligned (hal : s.me.aligned = true) (plane : Bool) (slot : Nat) : s.slotWait plane slot = none := if_pos hal

/-- What the load of a scale entry waits for: room in its queue (07 R147). -/
def State.scaleWait (s : State) : Option Nat := if s.here.sq.length ≥ 64 then some (s.cyc + 1) else none

theorem scaleWait_isSome (hf : 64 ≤ s.here.sq.length) : s.scaleWait.isSome = true := by simp [State.scaleWait, hf]

theorem scaleWait_of_room (hf : s.here.sq.length < 64) : s.scaleWait = none := if_neg (Nat.not_le.2 hf)

/-- A line load that stops stops the load of a scale entry alike. -/
theorem scaleLoad_of_stopped {v : Verdict} (hv : ∀ t, v ≠ .ok t) (hl : s.lineLoad h a oc 0 512 s.scaleWait (.scale s.serial) = v) :
    s.scaleLoad h a oc = v := by
  have hl' : s.lineLoad h a oc 0 512 (if s.here.sq.length ≥ 64 then some (s.cyc + 1) else none) (.scale s.serial) = v := hl
  unfold State.scaleLoad
  rw [hl']
  cases v with
  | ok t => exact absurd rfl (hv t)
  | _ => rfl

/-- The entry `id`, outstanding, stands at the end of the scale queue (07 R146). -/
def State.takeScale (t : State) (id : Nat) : State := { t.modHere (fun c => { c with sq := c.sq ++ [⟨id, none⟩] }) with serial := id + 1 }

theorem here_takeScale (t : State) (id : Nat) : (t.takeScale id).here = { t.here with sq := t.here.sq ++ [⟨id, none⟩] } :=
  here_modHere t fun c => { c with sq := c.sq ++ [⟨id, none⟩] }

theorem scaleLoad_ok {t : State} (hl : s.lineLoad h a oc 0 512 s.scaleWait (.scale s.serial) = .ok t) :
    s.scaleLoad h a oc = .ok (t.takeScale s.serial) := by
  have hl' : s.lineLoad h a oc 0 512 (if s.here.sq.length ≥ 64 then some (s.cyc + 1) else none) (.scale s.serial) = .ok t := hl
  unfold State.scaleLoad
  rw [hl']
  rfl

end

section
variable (h : Hdr) (slot : BitVec 3) (xa : XReg) (oc planes : BitVec 4) (disp : BitVec 32) (s : State)

theorem exec_pld : exec (.pld h slot xa oc planes) s = issue h 1 { reads := [.x s.cur xa], writes := [.plane s.cur.unit slot.toNat] }
    (fun s => s.lineLoad h (s.xr xa) oc 0 (768 * (planes.toNat + 1)) (s.slotWait true slot.toNat) (.plane slot.toNat (planes.toNat + 1))) s := rfl

theorem exec_pldDisp : exec (.pldDisp h slot xa oc planes disp) s =
    issue h 2 { reads := [.x s.cur xa], writes := [.plane s.cur.unit slot.toNat] }
      (fun s => s.lineLoad h (s.xr xa + disp.signExtend 64) oc 0 (768 * (planes.toNat + 1)) (s.slotWait true slot.toNat)
        (.plane slot.toNat (planes.toNat + 1))) s := rfl

theorem exec_rld : exec (.rld h slot xa oc) s = issue h 1 { reads := [.x s.cur xa], writes := [.row s.cur.unit slot.toNat] }
    (fun s => s.lineLoad h (s.xr xa) oc 0 4096 (s.slotWait false slot.toNat) (.row slot.toNat)) s := rfl

theorem exec_rldDisp : exec (.rldDisp h slot xa oc disp) s = issue h 2 { reads := [.x s.cur xa], writes := [.row s.cur.unit slot.toNat] }
    (fun s => s.lineLoad h (s.xr xa + disp.signExtend 64) oc 0 4096 (s.slotWait false slot.toNat) (.row slot.toNat)) s := rfl

variable {s}

/-- Only in free mode, with a full queue and the core's CMP still to come on this cycle, does an SQLD give up its turn (07 R147). -/
theorem awaitsPop_eq_false (hw : s.me.aligned = true ∨ s.here.sq.length < 64 ∨ (⟨s.cur.unit, .cmp⟩ : SeqId) ∉ s.turn) : s.awaitsPop = false := by
  unfold State.awaitsPop
  rcases hw with hal | hroom | hturn
  · simp [hal]
  · simp [hroom]
  · simp [hturn]

variable (hp : s.awaitsPop = false)
include hp

theorem exec_sqld : exec (.sqld h xa oc) s = issue h 1 { reads := [.x s.cur xa] } (fun s => s.scaleLoad h (s.xr xa) oc) s :=
  if_neg (by simp [hp])

theorem exec_sqldDisp : exec (.sqldDisp h xa oc disp) s =
    issue h 2 { reads := [.x s.cur xa] } (fun s => s.scaleLoad h (s.xr xa + disp.signExtend 64) oc) s :=
  if_neg (by simp [hp])

end

/-! ### The ring (07 R148, R149) -/

section
variable {a b : Dword}

theorem ringAddr_misaligned (ha : a.toNat % 256 ≠ 0) : ringAddr a = some .alignment := if_pos ha

theorem winOf_eq_zero (ha : a.toNat < 2 ^ 56) : winOf a = 0 := Nat.div_eq_of_lt ha

theorem offOf_eq_toNat (ha : a.toNat < 2 ^ 56) : offOf a = a.toNat := Nat.mod_eq_of_lt ha

theorem ringAddr_ne_alignment (ha : a.toNat % 256 = 0) : ringAddr a ≠ some .alignment := by
  unfold ringAddr
  rw [if_neg (by simpa using ha)]
  split <;> simp

theorem ringAddr_outside (ha : a.toNat % 256 = 0) (ho : 2 ^ 29 < a.toNat + 1024) : ringAddr a = some .window := by
  have hout : winOf a ≠ 0 ∨ spadSize < offOf a + 1024 := by
    by_cases hw : a.toNat < 2 ^ 56
    · exact .inr (by rwa [offOf_eq_toNat hw])
    · exact .inl (by unfold winOf; omega)
  unfold ringAddr
  rw [if_neg (by simpa using ha), if_pos (by simpa using hout)]

theorem ringAddr_inside (ha : a.toNat % 256 = 0) (hi : a.toNat + 1024 ≤ 2 ^ 29) : ringAddr a = none := by
  have hw : a.toNat < 2 ^ 56 := by omega
  have hin : winOf a = 0 ∧ offOf a + 1024 ≤ spadSize := ⟨winOf_eq_zero hw, by rwa [offOf_eq_toNat hw]⟩
  unfold ringAddr
  rw [if_neg (by simpa using ha), if_neg (by simpa using hin)]

end

section
variable {h : Hdr} {xa xb : XReg} {dir : BitVec 1} {oc : BitVec 4} {s : State} (hi : s.issues h { reads := [.x s.cur xa, .x s.cur xb] })

theorem exec_rrot : exec (.rrot h xa xb dir oc) s = execRrot h xa xb dir oc s := rfl

include hi

theorem rrot_misaligned_source (ha : ringAddr (s.xr xa) = some .alignment) :
    execRrot h xa xb dir oc s = .next (s.raise h 1 { code := .alignment, addr := (s.xr xa).toNat }) :=
  issue_fault hi (by simp [ha, addrFault])

theorem rrot_misaligned_target (ha : ringAddr (s.xr xa) ≠ some .alignment) (hb : ringAddr (s.xr xb) = some .alignment) :
    execRrot h xa xb dir oc s = .next (s.raise h 1 { code := .alignment, addr := (s.xr xb).toNat }) :=
  issue_fault hi (by
    dsimp only
    split <;> simp_all [addrFault])

theorem rrot_source_outside (ha : ringAddr (s.xr xa) = some .window) (hb : ringAddr (s.xr xb) ≠ some .alignment) :
    execRrot h xa xb dir oc s = .next (s.raise h 1 { code := .window, addr := (s.xr xa).toNat }) :=
  issue_fault hi (by
    dsimp only
    split <;> simp_all [addrFault])

theorem rrot_target_outside (ha : ringAddr (s.xr xa) = none) (hb : ringAddr (s.xr xb) = some .window) :
    execRrot h xa xb dir oc s = .next (s.raise h 1 { code := .window, addr := (s.xr xb).toNat }) :=
  issue_fault hi (by simp [ha, hb, addrFault])

section
variable (ha : ringAddr (s.xr xa) = none) (hb : ringAddr (s.xr xb) = none)
include ha hb

theorem rrot_timing (hstop : s.me.aligned = false ∨ s.me.lvl ≠ 1 ∨ s.cyc < s.here.lineRead ∨
      s.claimed (s.cur.unit.val * spadSize + offOf (s.xr xa)) 1024 = true ∨ s.inOrder oc false (s.cyc + 4) = false) :
    execRrot h xa xb dir oc s = .next (s.raise h 1 { code := .timing }) :=
  issue_fault hi (by
    simp only [ha, hb]
    exact if_pos (by simpa [or_assoc] using hstop))

/-- An RROT that passes reads its line, and has its ring checked (07 R148, R149). -/
theorem rrot_sends (hal : s.me.aligned = true) (hl : s.me.lvl = 1) (hp : s.here.lineRead ≤ s.cyc)
    (hc : s.claimed (s.cur.unit.val * spadSize + offOf (s.xr xa)) 1024 = false) (ho : s.inOrder oc false (s.cyc + 4) = true) :
    execRrot h xa xb dir oc s = .next (State.retire
      (((s.access h (s.xr xa) oc 0 (s.cyc + 4) (s.cyc + 4) true (.load (span (s.cur.unit.val * spadSize + offOf (s.xr xa)) 1024) []
        (.ring ((neighbour (s.ringOf s.cur.unit) s.cur.unit (dir == 1)).val * spadSize + offOf (s.xr xb))) (s.cyc + 20) (s.cyc + 4))).later h
          (s.cyc + 2) false true (.ringCheck (dir == 1) (s.ringOf s.cur.unit))).modHere (fun c => { c with lineRead := s.cyc + 1 })) 1 0) :=
  issue_ok hi (by
    simp only [ha, hb]
    exact if_neg (by simp [hal, hl, hc, ho, hp]))

end

end

end Sys2Proof.Machine
end

section
/-! OBLIGATIONS. Slots, the scale queue and the ring. -/

open Sys2Proof Sys2Proof.Machine Host

/-- Settles O27: the six loads of slots and scale entries are stopped where `lineLoad` is, and land where it lands; an RROT sends its line. -/
theorem slotAndRingForms : Obligations.SlotAndRingForms := by
  refine ⟨?slots, ?ring⟩
  case slots =>
    intro h slot xa oc planes disp s a d np
    refine ⟨?stopped, ?loads⟩
    case stopped =>
      intro k hk hi hpop
      obtain ⟨body, wait, dest, he, hb, hfull⟩ : ∃ body wait dest,
          exec k.1 s = issue h k.2.2.1 { reads := [.x s.cur xa], writes := k.2.2.2.2.1 } body s ∧
          (∀ v, (∀ t, v ≠ .ok t) → s.lineLoad h k.2.1 oc 0 k.2.2.2.1 wait dest = v → body s = v) ∧
          (k.2.2.2.2.2 = true → 64 ≤ s.here.sq.length → wait.isSome = true) := by
        obtain rfl | rfl | rfl | rfl | rfl | rfl : k = _ ∨ k = _ ∨ k = _ ∨ k = _ ∨ k = _ ∨ k = _ := by simpa using hk
        · exact ⟨_, _, _, exec_pld .., fun _ _ hl => hl, nofun⟩
        · exact ⟨_, _, _, exec_pldDisp .., fun _ _ hl => hl, nofun⟩
        · exact ⟨_, _, _, exec_rld .., fun _ _ hl => hl, nofun⟩
        · exact ⟨_, _, _, exec_rldDisp .., fun _ _ hl => hl, nofun⟩
        · exact ⟨_, _, _, exec_sqld h xa oc (awaitsPop_eq_false (hpop rfl)), fun _ hv hl => scaleLoad_of_stopped hv hl, fun _ => scaleWait_isSome⟩
        · exact ⟨_, _, _, exec_sqldDisp h xa oc disp (awaitsPop_eq_false (hpop rfl)), fun _ hv hl => scaleLoad_of_stopped hv hl,
            fun _ => scaleWait_isSome⟩
      refine ⟨fun ha => ?_, fun ha => ⟨fun c hc => ?_, fun hf => ?_, fun off hr hp => ?_, fun off hr hal hstop => ?_⟩⟩
      · exact he.trans (issue_fault hi (hb _ (fault_ne_ok _) (lineLoad_misaligned ha)))
      · exact he.trans (issue_fault hi (hb _ (fault_ne_ok _) (lineLoad_bad ha hc)))
      · exact he.trans (issue_fault hi (hb _ (fault_ne_ok _) (lineLoad_far ha hf)))
      · exact waitsFor_of_busy he hi (hb _ (busy_ne_ok s _) (lineLoad_busy ha hr hp))
      · rw [getD_arrayOff] at hstop
        refine he.trans (issue_fault hi (hb _ (fault_ne_ok _) (lineLoad_timing hal ha hr ?_)))
        exact hstop.imp_right (.imp_right (.imp_right fun ⟨hs, hn⟩ => hfull hs hn))
    case loads =>
      intro off p hp hpath hport ho
      obtain ⟨hat, hland⟩ : arrayOff (s.path off) = p.2.1 ∧ lineLand (s.path off) = p.2.2 := hpath ▸ line_times p hp
      rw [← hat] at ho
      rw [← hat, ← hland]
      refine ⟨fun hi hw hc k hk ha hr => ?_, fun hi hw hc k hk ha hr => ?_, fun hi hroom hc k hk ha hr => ?_⟩
      · obtain ⟨body, he, hb⟩ : ∃ body, exec k.1 s = issue h k.2.2 { reads := [.x s.cur xa], writes := [.plane s.cur.unit slot.toNat] } body s ∧
            body s = s.lineLoad h k.2.1 oc 0 np (s.slotWait true slot.toNat) (.plane slot.toNat (planes.toNat + 1)) := by
          obtain rfl | rfl : k = _ ∨ k = _ := by simpa using hk
          · exact ⟨_, exec_pld .., rfl⟩
          · exact ⟨_, exec_pldDisp .., rfl⟩
        rw [hw] at hb
        exact exec_of_issue he hi (hb.trans (lineLoad_spad ha hr hport hc ho))
      · obtain ⟨body, he, hb⟩ : ∃ body, exec k.1 s = issue h k.2.2 { reads := [.x s.cur xa], writes := [.row s.cur.unit slot.toNat] } body s ∧
            body s = s.lineLoad h k.2.1 oc 0 4096 (s.slotWait false slot.toNat) (.row slot.toNat) := by
          obtain rfl | rfl : k = _ ∨ k = _ := by simpa using hk
          · exact ⟨_, exec_rld .., rfl⟩
          · exact ⟨_, exec_rldDisp .., rfl⟩
        rw [hw] at hb
        exact exec_of_issue he hi (hb.trans (lineLoad_spad ha hr hport hc ho))
      · have hpop := awaitsPop_eq_false (s := s) (.inr (.inl hroom))
        obtain ⟨body, len, he, hb⟩ : ∃ body len, exec k.1 s = issue h len { reads := [.x s.cur xa] } body s ∧ body s = s.scaleLoad h k.2 oc := by
          obtain rfl | rfl : k = _ ∨ k = _ := by simpa using hk
          · exact ⟨_, _, exec_sqld h xa oc hpop, rfl⟩
          · exact ⟨_, _, exec_sqldDisp h xa oc disp hpop, rfl⟩
        have hl := lineLoad_spad (h := h) (ord := 0) (dest := .scale s.serial) ha hr hport hc ho
        rw [← scaleWait_of_room hroom] at hl
        refine ⟨_, exec_of_issue he hi (hb.trans (scaleLoad_ok hl)), ?_, rfl, ?_, _, List.mem_append_right _ (List.mem_singleton_self _), rfl, rfl, rfl⟩
        · rw [here_retire, sq_setSeq, here_takeScale, here_modHere]
          rfl
        · rw [here_retire, lineRead_setSeq, here_takeScale, here_modHere]
          rfl
  case ring =>
    intro h xa xb dir oc s hi a b
    rw [exec_rrot]
    refine ⟨fun ha => rrot_misaligned_source hi (ringAddr_misaligned ha), fun ha hb => ?_, fun ha hb => ⟨fun hout => ?_, fun hin hout => ?_⟩,
      fun ha hb hina hinb => ?_⟩
    · exact rrot_misaligned_target hi (ringAddr_ne_alignment ha) (ringAddr_misaligned hb)
    · exact rrot_source_outside hi (ringAddr_outside ha hout) (ringAddr_ne_alignment hb)
    · exact rrot_target_outside hi (ringAddr_inside ha hin) (ringAddr_outside hb hout)
    · intro off dest
      have hra := ringAddr_inside ha hina
      have hrb := ringAddr_inside hb hinb
      have hoff : s.cur.unit.val * spadSize + offOf a = off := by rw [offOf_eq_toNat (by omega)]; rfl
      have hdest : dest.val * spadSize + offOf b = dest.val * 2 ^ 29 + b.toNat := by rw [offOf_eq_toNat (by omega)]; rfl
      refine ⟨fun hstop => rrot_timing hi hra hrb (hoff ▸ hstop), fun hal hl hp hc ho => ?_⟩
      refine ⟨_, _, _, rrot_sends hi hra hrb hal hl hp (hoff ▸ hc) ho, List.append_assoc .., rfl, ?_, rfl, rfl, ?_⟩
      · rw [← hoff, ← hdest]; rfl
      · rw [here_retire, lineRead_setSeq, here_modHere]
end

section
/-! SUPPORT. Writes to the scratchpads: the bytes that they leave, the waits that they wake, and what stays as it was (07 R132, 11 R237). -/

namespace Sys2Proof.Machine
open Host

/-! ### Cells and the bytes that they leave -/

/-- Of several writes to one byte the last stands. -/
theorem spadByte_setSpadCells (cells : List (Nat × Byte)) (s : State) (h : Memory.wf s.spadBg s.spad = true) (a : Nat) :
    (s.setSpadCells cells).spadByte a = ((cells.reverse.find? (fun c => c.1 == a)).map (·.2)).getD (s.spadByte a) := by
  induction cells generalizing s with
  | nil => rfl
  | cons c cs ih =>
    have hstep : (s.setSpadCells (c :: cs)) = (s.setSpadByte c.1 c.2).setSpadCells cs := rfl
    rw [hstep, ih _ (wf_setSpadByte s c.1 c.2 h), spadByte_setSpadByte s c.1 a c.2 h, List.reverse_cons, List.find?_append]
    by_cases hc : c.1 = a
    · cases cs.reverse.find? (fun d => d.1 == a) <;> simp [hc]
    · have hc' : a ≠ c.1 := fun e => hc e.symm
      cases cs.reverse.find? (fun d => d.1 == a) <;> simp [hc, hc']

theorem mem_cellsAt {a : Nat} {bs : List Byte} {c : Nat × Byte} (hc : c ∈ cellsAt a bs) : a ≤ c.1 ∧ c.1 < a + bs.length :=
  List.mem_range'_1.1 (List.of_mem_zip hc).1

theorem spadByte_setSpadCells_outside {s : State} (h : Memory.wf s.spadBg s.spad = true) {a k : Nat} {bs : List Byte}
    (hk : k < a ∨ a + bs.length ≤ k) : (s.setSpadCells (cellsAt a bs)).spadByte k = s.spadByte k :=
  spadByte_setSpadCells_other _ s k h fun c hc he => by
    obtain ⟨hlo, hhi⟩ := mem_cellsAt hc
    omega

theorem spadByte_setSpadCells_inside {s : State} (h : Memory.wf s.spadBg s.spad = true) {a i : Nat} {bs : List Byte} {b : Byte}
    (hb : bs[i]? = some b) : (s.setSpadCells (cellsAt a bs)).spadByte (a + i) = b := by
  induction bs generalizing s a i with
  | nil => exact absurd hb (by simp)
  | cons x xs ih =>
    have hstep : s.setSpadCells (cellsAt a (x :: xs)) = (s.setSpadByte a x).setSpadCells (cellsAt (a + 1) xs) := rfl
    have hwf := wf_setSpadByte s a x h
    rw [hstep]
    cases i with
    | zero =>
      show ((s.setSpadByte a x).setSpadCells (cellsAt (a + 1) xs)).spadByte a = b
      rw [spadByte_setSpadCells_outside hwf (.inl (by omega)), spadByte_setSpadByte s a a x h, if_pos rfl]
      exact Option.some.inj hb
    | succ i =>
      rw [Nat.add_comm i 1, ← Nat.add_assoc]
      exact ih hwf (by simpa using hb)

/-- Bytes that stand one after another are read as they stand. -/
theorem spadBytes_of_spadByte {s : State} {a : Nat} {bs : List Byte} (h : ∀ i b, bs[i]? = some b → s.spadByte (a + i) = b) {j n : Nat}
    (hn : j + n ≤ bs.length) : s.spadBytes (a + j) n = (bs.drop j).take n := by
  induction n generalizing j with
  | zero => simp [State.spadBytes, cellReads]
  | succ n ih =>
    have hj : j < bs.length := by omega
    have hcons : s.spadBytes (a + j) (n + 1) = s.spadByte (a + j) :: s.spadBytes (a + (j + 1)) n := rfl
    rw [hcons, ih (by omega), h j _ (List.getElem?_eq_getElem hj), List.drop_eq_getElem_cons hj, List.take_succ_cons]

theorem length_cellReads (bg : Nat → Byte) (m : List Cell) (a n : Nat) : (cellReads bg m a n).length = n := by
  induction n generalizing a with
  | zero => rfl
  | succ n ih => exact congrArg (· + 1) (ih _)

theorem length_spadBytes (s : State) (a n : Nat) : (s.spadBytes a n).length = n := length_cellReads ..

/-! ### Waits that wake (11 R237) -/

/-- The second state is the first but for waits of SCLs and for events. -/
structure State.Wakes (s t : State) : Prop where
  rest : t = { s with cores := t.cores, agenda := t.agenda }
  core : ∀ u, ∃ w, t.core u = { s.core u with scl := { (s.core u).scl with wait := w } }

namespace State.Wakes
variable {s t v : State}

theorem refl (s : State) : s.Wakes s := ⟨rfl, fun _ => ⟨_, rfl⟩⟩

theorem trans (h₁ : s.Wakes t) (h₂ : t.Wakes v) : s.Wakes v where
  rest := by
    have h := h₂.rest
    rw [h₁.rest] at h
    exact h
  core u := by
    obtain ⟨w, hw⟩ := h₁.core u
    obtain ⟨x, hx⟩ := h₂.core u
    exact ⟨x, by rw [hx, hw]⟩

theorem foldl {α : Type} {f : State → α → State} (hf : ∀ (s : State) (a : α), s.Wakes (f s a)) (l : List α) (s : State) : s.Wakes (l.foldl f s) := by
  induction l generalizing s with
  | nil => exact .refl s
  | cons a l ih => exact (hf s a).trans (ih _)

/-- One wait wakes. -/
theorem setWait (s : State) (u : UnitId) (w : Option Wait) (agenda : List Todo) :
    s.Wakes { s.modSeq ⟨u, .scl⟩ (fun x => { x with wait := w }) with agenda := agenda } := by
  refine ⟨rfl, fun k => ?_⟩
  show ∃ w, (s.setCore u _).core k = _
  by_cases hk : k = u
  · subst hk
    exact ⟨w, core_setCore_same ..⟩
  · exact ⟨_, core_setCore_other _ _ _ _ hk⟩

theorem wake (s : State) (line : UnitId → Dword → Bool) : s.Wakes (s.wake line) :=
  foldl (fun s u => by
    dsimp only
    split
    · exact .refl s
    · exact setWait ..) _ s

end State.Wakes

/-! ### A write as a whole (07 R132) -/

section
variable (s : State) (cells : List (Nat × Byte))

theorem writeSpad_wakes : { s.setSpadCells cells with badSpad := s.badSpad.filter (fun x => !cells.any (fun c => x ≤ c.1 && c.1 < x + 8)) }.Wakes
    (s.writeSpad cells) := by
  unfold State.writeSpad
  rw [setSpadCells_eq]
  exact .foldl (fun s l => .wake s _) _ _

/-- A write of cells changes the scratchpads, the errors of their words, waits and events alone. -/
theorem writeSpad_rest : s.writeSpad cells = { s with
    spad := (s.setSpadCells cells).spad, badSpad := (s.writeSpad cells).badSpad, cores := (s.writeSpad cells).cores,
    agenda := (s.writeSpad cells).agenda } := by
  have h := (writeSpad_wakes s cells).rest
  rw [setSpadCells_eq] at h
  rw [h]

theorem writeSpad_memory : (s.writeSpad cells).dev = s.dev ∧ (s.writeSpad cells).devKeys = s.devKeys ∧ (s.writeSpad cells).host = s.host ∧
    (s.writeSpad cells).code = s.code ∧ (s.writeSpad cells).codeSh = s.codeSh := by
  rw [writeSpad_rest]
  exact ⟨rfl, rfl, rfl, rfl, rfl⟩

theorem writeSpad_ports : (s.writeSpad cells).ports = s.ports := by rw [writeSpad_rest]

theorem core_writeSpad (u : UnitId) : ∃ w, (s.writeSpad cells).core u = { s.core u with scl := { (s.core u).scl with wait := w } } := by
  obtain ⟨w, hw⟩ := (writeSpad_wakes s cells).core u
  rw [setSpadCells_eq] at hw
  exact ⟨w, hw⟩

theorem spadByte_writeSpad (a : Nat) : (s.writeSpad cells).spadByte a = (s.setSpadCells cells).spadByte a := by
  rw [writeSpad_rest, setSpadCells_eq]; rfl

end

section
variable {s : State} (h : Memory.wf s.spadBg s.spad = true) {a : Nat} {bs : List Byte}
include h

theorem spadByte_writeSpad_inside {i : Nat} {b : Byte} (hb : bs[i]? = some b) : (s.writeSpad (cellsAt a bs)).spadByte (a + i) = b :=
  (spadByte_writeSpad ..).trans (spadByte_setSpadCells_inside h hb)

theorem spadByte_writeSpad_outside {k : Nat} (hk : k < a ∨ a + bs.length ≤ k) : (s.writeSpad (cellsAt a bs)).spadByte k = s.spadByte k :=
  (spadByte_writeSpad ..).trans (spadByte_setSpadCells_outside h hk)

end

theorem spadBytes_writeSpad {s : State} (h : Memory.wf s.spadBg s.spad = true) (a : Nat) (bs : List Byte) :
    (s.writeSpad (cellsAt a bs)).spadBytes a bs.length = bs :=
  (spadBytes_of_spadByte (j := 0) (fun _ _ => spadByte_writeSpad_inside h) (by simp)).trans (by simp)

/-! ### Registers and tags that stay -/

theorem Core.sameRegs.trans {c d e : Core} (h₁ : c.sameRegs d) (h₂ : d.sameRegs e) : c.sameRegs e := by
  obtain ⟨x₁, p₁, r₁⟩ := h₁
  obtain ⟨x₂, p₂, r₂⟩ := h₂
  exact ⟨fun q r => (x₂ q r).trans (x₁ q r), fun q r => (p₂ q r).trans (p₁ q r), by simp_all⟩

/-- What a wait that wakes and a descriptor that takes a block leave of a core. -/
theorem sameRegs_of_wait_descs (c : Core) (w : Option Wait) (ds : Vector Desc 64) :
    c.sameRegs { c with scl := { c.scl with wait := w }, descs := ds } :=
  ⟨fun q _ => by cases q <;> rfl, fun q _ => by cases q <;> rfl, by simp⟩

theorem sameRegs_writeSpad (s : State) (cells : List (Nat × Byte)) : s.sameRegs (s.writeSpad cells) := fun u => by
  obtain ⟨w, hw⟩ := core_writeSpad s cells u
  rw [hw]
  exact sameRegs_of_wait_descs _ w _

theorem State.sameRegs.trans {s t v : State} (h₁ : s.sameRegs t) (h₂ : t.sameRegs v) : s.sameRegs v := fun u => (h₁ u).trans (h₂ u)

theorem sameTags_writeSpad (s : State) (cells : List (Nat × Byte)) : s.sameTags (s.writeSpad cells) := fun u => by
  obtain ⟨w, hw⟩ := core_writeSpad s cells u
  rw [hw]

theorem core_setDesc (s : State) (u : UnitId) (rx : Idx64) (d : Desc) (v : UnitId) :
    ∃ ds, (s.setDesc u rx d).core v = { s.core v with descs := ds } := by
  unfold State.setDesc
  by_cases hv : v = u
  · subst hv; exact ⟨_, core_modCore_same ..⟩
  · exact ⟨_, core_modCore_other _ _ _ _ hv⟩

theorem desc_setDesc (s : State) (u : UnitId) (rx : Idx64) (d : Desc) : ((s.setDesc u rx d).core u).descs.get rx = d := by
  unfold State.setDesc
  rw [core_modCore_same]
  exact (vector_get_set _ _ rx.isLt _ rx).trans (if_pos rfl)

theorem sameRegs_setDesc (s : State) (u : UnitId) (rx : Idx64) (d : Desc) : s.sameRegs (s.setDesc u rx d) := fun v => by
  obtain ⟨ds, hd⟩ := core_setDesc s u rx d v
  rw [hd]
  exact sameRegs_of_wait_descs _ _ ds

theorem sameTags_setDesc (s : State) (u : UnitId) (rx : Idx64) (d : Desc) : s.sameTags (s.setDesc u rx d) := fun v => by
  obtain ⟨ds, hd⟩ := core_setDesc s u rx d v
  rw [hd]

theorem descs_writeSpad (s : State) (cells : List (Nat × Byte)) (u : UnitId) : ((s.writeSpad cells).core u).descs = (s.core u).descs := by
  obtain ⟨w, hw⟩ := core_writeSpad s cells u
  rw [hw]

/-- The block that a descriptor takes is the one that it finds (12 R249). -/
theorem lookup_take (d : Desc) (blk cnt : Nat) : lookup (d.take blk cnt).got blk = some cnt := by
  simp [Desc.take, lookup, insertKey]

end Sys2Proof.Machine
end

section
/-! SUPPORT. Stores, atomics and LOSSY blocks act (07 R132, 11 R235, R236, 12 R250). -/

namespace Sys2Proof.Machine
open Host

theorem length_atomicBytes {fn : BitVec 3} {wide : Bool} {old bs : List Byte} {b c : Dword} (h : atomicBytes fn wide old b c = some bs) :
    bs.length = wideBytes wide := by
  obtain ⟨v, -, hv⟩ := Option.map_eq_some_iff.1 h
  rw [← hv, length_leBytes]

/-- The state after an atomic's write, where it writes (11 R235). -/
def State.atomicWritten (s : State) (a : Nat) (new : Option (List Byte)) : State :=
  match new with
  | some bs => s.writeSpad (cellsAt a bs)
  | none => s

/-- The landing of an atomic's old value (11 R236). -/
def Eff.oldValue (e : Eff) (land : Nat) (old : List Byte) (r : XReg) : Eff :=
  { e with at_ := land, commit := land, sq := false, oc := none, op := .setX e.by_ r (BitVec.ofNat 64 (leNat old)) false }

/-- An atomic without an uncorrectable word writes at once, and its old value lands later (11 R235, R236). -/
theorem atomicLands_eq {s : State} {e : Eff} {a : Nat} {wide : Bool} (hbad : s.badBytes (span a (wideBytes wide)) = none) (fn : BitVec 3)
    (b c : Dword) (xd : Option XReg) (land : Nat) :
    let w := s.atomicWritten a (atomicBytes fn wide (s.spadBytes a (wideBytes wide)) b c)
    s.atomicLands e a fn wide b c xd land =
      { w with effs := w.effs ++ (xd.map (e.oldValue land (s.spadBytes a (wideBytes wide)))).toList } := by
  unfold State.atomicLands
  rw [hbad]
  cases xd with
  | none =>
    simp only [Option.map_none, Option.toList_none, List.append_nil]
    rfl
  | some r => rfl

section
variable (s : State) (a : Nat) (new : Option (List Byte))

theorem atomicWritten_memory : (s.atomicWritten a new).dev = s.dev ∧ (s.atomicWritten a new).host = s.host ∧
    (s.atomicWritten a new).code = s.code ∧ (s.atomicWritten a new).codeSh = s.codeSh := by
  cases new with
  | none => exact ⟨rfl, rfl, rfl, rfl⟩
  | some bs =>
    obtain ⟨hdev, -, hhost, hcode, hcodeSh⟩ := writeSpad_memory s (cellsAt a bs)
    exact ⟨hdev, hhost, hcode, hcodeSh⟩

theorem atomicWritten_regs : s.sameRegs (s.atomicWritten a new) ∧ s.sameTags (s.atomicWritten a new) := by
  cases new with
  | none => exact ⟨fun u => sameRegs_of_wait_descs (s.core u) _ _, fun _ => rfl⟩
  | some bs => exact ⟨sameRegs_writeSpad _ _, sameTags_writeSpad _ _⟩

variable {s a} (h : Memory.wf s.spadBg s.spad = true) {fn : BitVec 3} {wide : Bool} {b c : Dword}
include h

/-- An atomic leaves its new value, or what it found where it writes none. -/
theorem spadBytes_atomicWritten :
    (s.atomicWritten a (atomicBytes fn wide (s.spadBytes a (wideBytes wide)) b c)).spadBytes a (wideBytes wide) =
      (atomicBytes fn wide (s.spadBytes a (wideBytes wide)) b c).getD (s.spadBytes a (wideBytes wide)) := by
  cases hn : atomicBytes fn wide (s.spadBytes a (wideBytes wide)) b c with
  | none => rfl
  | some bs => exact length_atomicBytes hn ▸ spadBytes_writeSpad h a bs

theorem spadByte_atomicWritten {k : Nat} (hk : k < a ∨ a + wideBytes wide ≤ k) :
    (s.atomicWritten a (atomicBytes fn wide (s.spadBytes a (wideBytes wide)) b c)).spadByte k = s.spadByte k := by
  cases hn : atomicBytes fn wide (s.spadBytes a (wideBytes wide)) b c with
  | none => rfl
  | some bs => exact spadByte_writeSpad_outside h (length_atomicBytes hn ▸ hk)

end

section
variable {s : State} {e : Eff} {rx : Idx64} {serial : Nat} (hs : ((s.core e.by_.unit).descs.get rx).serial = serial)
include hs

/-- A LOSSY block on time for its descriptor (12 R250). -/
theorem blockLands_of_le (hc : s.cyc ≤ ((s.core e.by_.unit).descs.get rx).close) (port : PortId) (blk cnt off : Nat) (data : List Byte) :
    s.blockLands e port rx serial blk cnt off data =
      (s.writeSpad (cellsAt off data)).setDesc e.by_.unit rx (((s.core e.by_.unit).descs.get rx).take blk cnt) :=
  if_pos (by simp [State.desc, hs, hc])

/-- A LOSSY block after the close (12 R250). -/
theorem blockLands_of_lt (hc : ((s.core e.by_.unit).descs.get rx).close < s.cyc) (port : PortId) (blk cnt off : Nat) (data : List Byte) :
    s.blockLands e port rx serial blk cnt off data = s.modPort port (fun q => { q with late := min 0xFFF (q.late + 1) }) :=
  if_neg (by simp [State.desc, hs, Nat.not_le.2 hc])

end

end Sys2Proof.Machine
end

section
/-! OBLIGATIONS. Stores, atomics and LOSSY blocks. -/

open Sys2Proof Sys2Proof.Machine Host

/-- Settles O52: a store, an atomic and a block on time are each one `writeSpad`, whose bytes are read back. -/
theorem storesLand : Obligations.StoresLand := by
  intro now s e hcan t
  have hwf : Memory.wf s.spadBg s.spad = true := hcan.1
  refine ⟨?line, ?cells, ?atomic, ?block⟩
  case line =>
    intro rk a bs w he
    have ht : t = s.writeSpad (cellsAt a bs) := by simp only [t, State.landOne, he]
    rw [ht]
    exact ⟨fun i b hb => spadByte_writeSpad_inside hwf hb, fun k hk => spadByte_writeSpad_outside hwf hk⟩
  case cells =>
    intro rk cells w he
    have ht : t = s.writeSpad cells := by simp only [t, State.landOne, he]
    rw [ht]
    obtain ⟨hdev, hkeys, hhost, hcode, hcodeSh⟩ := writeSpad_memory s cells
    exact ⟨fun a => (spadByte_writeSpad ..).trans (spadByte_setSpadCells cells s hwf a), hdev, hkeys, hhost, hcode, hcodeSh,
      sameRegs_writeSpad s cells, sameTags_writeSpad s cells⟩
  case atomic =>
    intro rk a fn wide b c xd land w he hbad n old
    have ht : t = s.atomicLands e a fn wide b c xd land := by simp only [t, State.landOne, he]
    obtain ⟨hdev, hhost, hcode, hcodeSh⟩ := atomicWritten_memory s a (atomicBytes fn wide old b c)
    obtain ⟨hregs, htags⟩ := atomicWritten_regs s a (atomicBytes fn wide old b c)
    rw [ht, atomicLands_eq hbad]
    refine ⟨spadBytes_atomicWritten hwf, fun k hk => spadByte_atomicWritten hwf hk, hdev, hhost, hcode, hcodeSh, hregs, htags, fun r hr => ?_⟩
    subst hr
    exact ⟨_, List.mem_append_right _ (List.mem_singleton_self _), rfl, rfl⟩
  case block =>
    intro port rx k blk cnt off data he
    have ht : t = s.blockLands e port rx k blk cnt off data := by simp only [t, State.landOne, he]
    refine ⟨fun hk hc => ?_, fun hk hc => ?_⟩
    · rw [ht, blockLands_of_le hk hc]
      obtain ⟨hdev, -, hhost, -⟩ := writeSpad_memory s (cellsAt off data)
      exact ⟨fun i b hb => spadByte_writeSpad_inside hwf hb, fun a ha => spadByte_writeSpad_outside hwf ha, hdev, hhost,
        (sameRegs_writeSpad _ _).trans (sameRegs_setDesc _ _ _ _), fun u => (sameTags_setDesc _ _ _ _ u).trans (sameTags_writeSpad _ _ u),
        by rw [desc_setDesc, lookup_take]⟩
    · rw [ht, blockLands_of_lt hk hc]

end

section
/-! SUPPORT. Loads act: the read of the array, and the landing of what was read (07 R132, R141, R142, R144 to R148). -/

namespace Sys2Proof.Machine
open Host

/-! ### The read (07 R132, R148) -/

section
variable {now : List Eff} {s : State} {e : Eff} {as : List Nat} {got : List Byte} {dest : LoadTo} {land tbl : Nat}

theorem landOne_load_read (he : e.op = .load as got dest land tbl) (has : as ≠ []) :
    State.landOne now s e = s.arrayRead e as got dest land tbl := by
  cases as with
  | nil => exact absurd rfl has
  | cons a as => simp only [State.landOne, he]

theorem landOne_load_landed (he : e.op = .load [] got dest land tbl) : State.landOne now s e = s.loadLands e got dest := by
  simp only [State.landOne, he]

variable (hbad : s.badBytes (as.take 1024) = none)
include hbad

/-- More than 1,024 bytes: the first of them are read, the others from the next cycle on. -/
theorem arrayRead_beat (hl : 1024 < as.length) : s.arrayRead e as got dest land tbl = { s with effs := s.effs ++
    [{ e with at_ := s.cyc + 1, op := .load (as.drop 1024) (got ++ (as.take 1024).map s.spadByte) dest land tbl }] } := by
  have hrest : (!(as.drop 1024).isEmpty) = true := by simpa [List.isEmpty_iff] using hl
  simp only [State.arrayRead, hbad, hrest, if_true]

variable (hl : as.length ≤ 1024)
include hl

theorem arrayRead_last (hr : ∀ k, dest ≠ .ring k) (hw : ∀ k, dest ≠ .wait k) : s.arrayRead e as got dest land tbl = { s with effs := s.effs ++
    [{ e with at_ := land, oc := none, op := .load [] (got ++ (as.take 1024).map s.spadByte) dest land tbl }] } := by
  have hrest : (!(as.drop 1024).isEmpty) = false := by simpa [List.isEmpty_iff] using hl
  simp only [State.arrayRead, hbad, hrest, Bool.false_eq_true, if_false]

theorem arrayRead_ring (k : Nat) : s.arrayRead e as got (.ring k) land tbl = { s with effs := s.effs ++
    [{ e with at_ := land, commit := land, oc := none, op := .store .ring (cellsAt k (got ++ (as.take 1024).map s.spadByte)) land }] } := by
  have hrest : (!(as.drop 1024).isEmpty) = false := by simpa [List.isEmpty_iff] using hl
  simp only [State.arrayRead, hbad, hrest, Bool.false_eq_true, if_false]

end

/-! ### Words and bytes (00 R3) -/

theorem length_bytesWords : ∀ bs : List Byte, (bytesWords bs).length = bs.length / 4
  | a :: b :: c :: d :: t => by simp [bytesWords, length_bytesWords t]; omega
  | [] | [_] | [_, _] | [_, _, _] => by simp [bytesWords]

/-- A word of bytes is the value of its four. -/
theorem getElem?_bytesWords {bs : List Byte} {k : Nat} (hk : 4 * k + 4 ≤ bs.length) :
    (bytesWords bs)[k]? = some (BitVec.ofNat 32 (leNat ((bs.drop (4 * k)).take 4))) := by
  match bs, k with
  | a :: b :: c :: d :: t, 0 => rfl
  | a :: b :: c :: d :: t, k + 1 =>
    have ih := getElem?_bytesWords (bs := t) (k := k) (by simp at hk; omega)
    have hdrop : (a :: b :: c :: d :: t).drop (4 * (k + 1)) = t.drop (4 * k) := rfl
    rw [hdrop, ← ih]
    rfl
  | [], k | [_], k | [_, _], k | [_, _, _], k => exact absurd hk (by simp)

theorem length_wordBytes (ws : List Word) : (wordBytes ws).length = 4 * ws.length := by
  induction ws with
  | nil => rfl
  | cons w ws ih => simp only [wordBytes, List.flatMap_cons, List.length_append, length_leBytes, List.length_cons] at ih ⊢; omega

/-- The four bytes of a word among those of all. -/
theorem take_drop_wordBytes {ws : List Word} {k : Nat} {w : Word} (hw : ws[k]? = some w) : ((wordBytes ws).drop (4 * k)).take 4 = leBytes 4 w.toNat := by
  induction ws generalizing k with
  | nil => exact absurd hw (by simp)
  | cons x ws ih =>
    have hcons : wordBytes (x :: ws) = leBytes 4 x.toNat ++ wordBytes ws := rfl
    cases k with
    | zero =>
      obtain rfl : x = w := by simpa using hw
      rw [hcons]
      exact List.take_left' (length_leBytes 4 _)
    | succ k =>
      have hdrop : (wordBytes (x :: ws)).drop (4 * (k + 1)) = (wordBytes ws).drop (4 * k) := rfl
      rw [hdrop]
      exact ih (by simpa using hw)

/-! ### Tiles and slots (07 R141, R142, R144) -/

/-- A landing tile leaves the plane slots (07 R141). -/
theorem planes_landTile (s : State) (u : UnitId) (code : Nat) (lanes : Tile) : ((s.landTile u code lanes).core u).planes = (s.core u).planes := by
  obtain ⟨tiles, ht⟩ := setTile_eq (s.core u) code (overlay lanes ((s.core u).tile code))
  unfold State.landTile
  rw [core_modCore_same, ht]

theorem seq_modCore {f : Core → Core} (hf : ∀ c, (f c).seq = c.seq) (s : State) (u : UnitId) (q : SeqId) : (s.modCore u f).seq q = s.seq q := by
  unfold State.seq
  by_cases hq : q.unit = u
  · subst hq; rw [core_modCore_same, hf]
  · rw [core_modCore_other _ _ _ _ hq]

theorem seq_landSlot (c : Core) (plane : Bool) (n : Nat) (data : List Byte) : (c.landSlot plane n data).seq = c.seq := by
  cases plane <;> funext q <;> cases q <;> rfl

/-- A slot takes its content; the seven others keep theirs (07 R144). -/
theorem planes_landSlot (c : Core) (n : Fin 8) (data : List Byte) : (c.landSlot true n.val data).planes.get n = data ∧
    ∀ k, k ≠ n → (c.landSlot true n.val data).planes.get k = c.planes.get k := by
  have hn : n.val % 8 = n.val := Nat.mod_eq_of_lt n.isLt
  have hlt : n.val % 8 < 8 := Nat.mod_lt _ (by decide)
  exact ⟨(vector_get_set _ _ hlt _ n).trans (if_pos hn.symm),
    fun k hk => vector_get_set_of_ne _ _ hlt _ fun h => hk (Fin.ext (h.trans hn))⟩

theorem rows_landSlot (c : Core) (n : Fin 8) (data : List Byte) : (c.landSlot false n.val data).rows.get n = data ∧
    ∀ k, k ≠ n → (c.landSlot false n.val data).rows.get k = c.rows.get k := by
  have hn : n.val % 8 = n.val := Nat.mod_eq_of_lt n.isLt
  have hlt : n.val % 8 < 8 := Nat.mod_lt _ (by decide)
  exact ⟨(vector_get_set _ _ hlt _ n).trans (if_pos hn.symm),
    fun k hk => vector_get_set_of_ne _ _ hlt _ fun h => hk (Fin.ext (h.trans hn))⟩

section
variable (s : State) (e : Eff) (got : List Byte)

theorem loadLands_tile {dest : LoadTo} {code : Nat} (hd : dest = .tile code ∨ dest = .lanes code) :
    s.loadLands e got dest = s.landTile e.by_.unit code (bytesWords got) := by
  obtain rfl | rfl := hd <;> rfl

theorem loadLands_plane (n p : Nat) : s.loadLands e got (.plane n p) =
    s.modCore e.by_.unit (fun c => c.landSlot true n (got ++ List.replicate (12288 - got.length) 0)) := rfl

theorem loadLands_row (n : Nat) : s.loadLands e got (.row n) = s.modCore e.by_.unit (fun c => c.landSlot false n got) := rfl

/-- A tile and a slot land in their core alone. -/
theorem loadLands_modCore {dest : LoadTo} {k : Nat} (hd : dest = .tile k ∨ dest = .lanes k ∨ dest = .row k ∨ ∃ p, dest = .plane k p) :
    ∃ f, s.loadLands e got dest = s.modCore e.by_.unit f := by
  obtain rfl | rfl | rfl | ⟨p, rfl⟩ := hd
  · exact ⟨_, loadLands_tile s e got (.inl rfl)⟩
  · exact ⟨_, loadLands_tile s e got (.inr rfl)⟩
  · exact ⟨_, loadLands_row ..⟩
  · exact ⟨_, loadLands_plane ..⟩

end

end Sys2Proof.Machine
end

section
/-! SUPPORT. EXACT blocks and combinations act (12 R249, R251, R253). -/

namespace Sys2Proof.Machine
open Host

/-! ### EXACT blocks (12 R249, R253) -/

/-- An open EXACT descriptor whose window holds the package offset (12 R249). -/
def Desc.countsAt (d : Desc) (off : Nat) : Prop :=
  d.state = .open_ ∧ d.ex = true ∧ offOf d.base ≤ off ∧ off < offOf d.base + 256 * d.e

theorem take_complete {d : Desc} {blk cnt : Nat} (hex : d.ex = true) (he : d.e ≤ (d.take blk cnt).got.length) :
    (d.take blk cnt).state = .complete := if_pos (by simpa [hex, Desc.take] using he)

section
variable {s : State} {e : Eff} {rx : Option Idx64} {r : Idx64} {off : Nat} (data : List Byte)

theorem exactLands_counted (hc : ((s.core e.by_.unit).descs.get r).countsAt off) : s.exactLands e (some r) off data none =
    (s.writeSpad (cellsAt off data)).setDesc e.by_.unit r
      (((s.core e.by_.unit).descs.get r).take ((off - offOf ((s.core e.by_.unit).descs.get r).base) / 256) 1) := by
  obtain ⟨hopen, hex, hlo, hhi⟩ := hc
  simp [State.exactLands, State.desc, descs_writeSpad, hopen, hex, hlo, hhi]

theorem exactLands_uncounted (hc : ∀ r, rx = some r → ¬ ((s.core e.by_.unit).descs.get r).countsAt off) :
    s.exactLands e rx off data none = s.writeSpad (cellsAt off data) := by
  cases rx with
  | none => rfl
  | some r =>
    have hnot : ¬ ((((s.core e.by_.unit).descs.get r).state == .open_ && ((s.core e.by_.unit).descs.get r).ex &&
        decide (offOf ((s.core e.by_.unit).descs.get r).base ≤ off) &&
        decide (off < offOf ((s.core e.by_.unit).descs.get r).base + 256 * ((s.core e.by_.unit).descs.get r).e)) = true) := by
      simpa [Desc.countsAt, and_assoc] using hc r rfl
    simp only [State.exactLands, State.desc, descs_writeSpad, if_neg hnot]
    rfl

end

/-! ### Combinations (12 R251) -/

section
variable {op ok : Bool} {count : Nat} {pkt buf : List Byte}

theorem length_combineBlock (hp : pkt.length = 256) (hb : buf.length = 256) : (combineBlock op ok count pkt buf).1.length = 256 := by
  unfold combineBlock
  split
  · simp [length_wordBytes, length_bytesWords, hp, hb]
  · exact hb

theorem combineBlock_buffer (ha : ¬ (ok = true ∧ 0 < count)) : (combineBlock op ok count pkt buf).1 = buf := by
  simp [combineBlock, ha]

theorem combineBlock_count : (combineBlock op ok count pkt buf).2 = if ok = true ∧ 0 < count then min (count + 1) 255 else 1 := by
  by_cases ha : ok = true ∧ 0 < count <;> simp [combineBlock, ha]

/-- A block that takes part is added lane by lane. -/
theorem combineBlock_lane (ha : ok = true ∧ 0 < count) (hp : pkt.length = 256) (hb : buf.length = 256) {k : Nat} (hk : 4 * k < 256) :
    ((combineBlock op ok count pkt buf).1.drop (4 * k)).take 4 = leBytes 4 (combineLane op
      (BitVec.ofNat 32 (leNat ((pkt.drop (4 * k)).take 4))) (BitVec.ofNat 32 (leNat ((buf.drop (4 * k)).take 4)))).toNat := by
  have hsum : (combineBlock op ok count pkt buf).1 = wordBytes (List.zipWith (combineLane op) (bytesWords pkt) (bytesWords buf)) := by
    simp [combineBlock, ha]
  rw [hsum]
  refine take_drop_wordBytes ?_
  rw [List.getElem?_zipWith, getElem?_bytesWords (by omega), getElem?_bytesWords (by omega)]

end

/-- The entry of a packet in transit is replaced (12 R251). -/
def replaceTransit (l : List (Nat × Packet)) (key : Nat) (p : Packet) : List (Nat × Packet) := l.map (fun x => if x.1 == key then (key, p) else x)

theorem find_replaceTransit {l : List (Nat × Packet)} {key : Nat} {x : Nat × Packet} (h : l.find? (fun x => x.1 == key) = some x) (p : Packet) :
    (replaceTransit l key p).find? (fun x => x.1 == key) = some (key, p) := by
  have hkey : (x.1 == key) = true := List.find?_some (p := fun x : Nat × Packet => x.1 == key) h
  have hcomp : ((fun x : Nat × Packet => x.1 == key) ∘ fun x => if x.1 == key then (key, p) else x) = fun x => x.1 == key := by
    funext y
    show ((if y.1 == key then (key, p) else y).1 == key) = (y.1 == key)
    split <;> simp_all
  rw [replaceTransit, List.find?_map, hcomp, h, Option.map_some, if_pos hkey]

/-- A packet whose block `j` carries what an RDC hop has left, with its count (12 R251). -/
def withBlock (p : Packet) (j : Nat) (r : List Byte × Nat) : Packet :=
  { p with blocks := p.blocks.set j ⟨r.1, true⟩, counts := p.counts.set j r.2 }

/-- The buffer and the packet in transit have taken the result of a combination (12 R251). -/
def State.combineWritten (s : State) (key off : Nat) (p : Packet) (bs : List Byte) : State :=
  { s.writeSpad (cellsAt off bs) with transit := replaceTransit s.transit key p }

/-- A port has counted a block with a bad CRC (12 R251). -/
def State.crcCounted (s : State) (port : PortId) (ok : Bool) : State := if ok then s else s.countBad port

theorem core_crcCounted (s : State) (port : PortId) (ok : Bool) (u : UnitId) : (s.crcCounted port ok).core u = s.core u := by cases ok <;> rfl

theorem transit_crcCounted (s : State) (port : PortId) (ok : Bool) : (s.crcCounted port ok).transit = s.transit := by cases ok <;> rfl

theorem spadByte_crcCounted (s : State) (port : PortId) (ok : Bool) (a : Nat) : (s.crcCounted port ok).spadByte a = s.spadByte a := by
  cases ok <;> rfl

theorem badCrc_crcCounted (s : State) (port : PortId) (ok : Bool) :
    ((s.crcCounted port ok).port port).badCrc = if ok then (s.port port).badCrc else satAdd (s.port port).badCrc 1 := by
  cases ok with
  | true => rfl
  | false => exact congrArg Port.badCrc ((vector_get_set _ _ port.isLt _ port).trans (if_pos rfl))

section
variable {s : State} {e : Eff} {key j off : Nat} {p : Packet} {b : Block}

/-- A block at an RDC hop: buffer, packet and port, and then the descriptor that still is the block's (12 R251). -/
theorem combineLands_eq (hp : s.transit.find? (fun x => x.1 == key) = some (key, p)) (hb : p.blocks[j]? = some b)
    (hbad : s.spadBad off 256 = false) (port : PortId) (rx : Idx64) (serial blk : Nat) (op : Bool) :
    let r := combineBlock op b.crcOk (p.counts.getD j 0) b.data (s.spadBytes off 256)
    let w := (s.combineWritten key off (withBlock p j r) r.1).crcCounted port b.crcOk
    s.combineLands e port key j rx serial blk off op =
      if ((s.core e.by_.unit).descs.get rx).serial = serial then w.setDesc e.by_.unit rx (((s.core e.by_.unit).descs.get rx).take blk r.2) else w := by
  intro r w
  have hdesc : w.desc e.by_.unit rx = (s.core e.by_.unit).descs.get rx := by
    have hcore : w.core e.by_.unit = (s.writeSpad (cellsAt off r.1)).core e.by_.unit := core_crcCounted ..
    rw [State.desc, hcore, descs_writeSpad]
  have hlands : s.combineLands e port key j rx serial blk off op =
      if (w.desc e.by_.unit rx).serial == serial then w.setDesc e.by_.unit rx ((w.desc e.by_.unit rx).take blk r.2) else w := by
    simp only [State.combineLands, hp, hb, hbad, Bool.false_eq_true, if_false]
    rfl
  rw [hlands, hdesc]
  simp only [beq_iff_eq]

/-- What is read back after a combination. -/
theorem combineLands_reads (hp : s.transit.find? (fun x => x.1 == key) = some (key, p)) (hb : p.blocks[j]? = some b)
    (hbad : s.spadBad off 256 = false) (port : PortId) (rx : Idx64) (serial blk : Nat) (op : Bool) :
    let r := combineBlock op b.crcOk (p.counts.getD j 0) b.data (s.spadBytes off 256)
    let t := s.combineLands e port key j rx serial blk off op
    (∀ a, t.spadByte a = (s.writeSpad (cellsAt off r.1)).spadByte a) ∧ t.transit = replaceTransit s.transit key (withBlock p j r) ∧
    (t.port port).badCrc = (if b.crcOk then (s.port port).badCrc else satAdd (s.port port).badCrc 1) ∧
    (((s.core e.by_.unit).descs.get rx).serial = serial → lookup ((t.core e.by_.unit).descs.get rx).got blk = some r.2) := by
  intro r t
  let w := (s.combineWritten key off (withBlock p j r) r.1).crcCounted port b.crcOk
  have ht : t = if ((s.core e.by_.unit).descs.get rx).serial = serial
      then w.setDesc e.by_.unit rx (((s.core e.by_.unit).descs.get rx).take blk r.2) else w := combineLands_eq hp hb hbad port rx serial blk op
  have hport : (s.combineWritten key off (withBlock p j r) r.1).port port = s.port port :=
    congrArg (Vector.get · port) (writeSpad_ports s (cellsAt off r.1))
  have hcrc := badCrc_crcCounted (s.combineWritten key off (withBlock p j r) r.1) port b.crcOk
  rw [hport] at hcrc
  refine ⟨fun a => ?_, ?_, ?_, fun hs => ?_⟩
  · rw [ht]; split <;> exact spadByte_crcCounted ..
  · rw [ht]; split <;> exact transit_crcCounted ..
  · rw [ht]; split <;> exact hcrc
  · rw [ht, if_pos hs, desc_setDesc, lookup_take]

end

end Sys2Proof.Machine
end

section
/-! OBLIGATIONS. Loads, EXACT blocks and combinations. -/

open Sys2Proof Sys2Proof.Machine Host

/-- Settles O57: a read goes on, lands later or goes to a neighbour; a landing is a change of one field of one core; a block and a combination
are each one `writeSpad`, whose bytes are read back. -/
theorem loadsLand : Obligations.LoadsLand := by
  intro now s e t
  refine ⟨?read, ?landed, fun hcan => ⟨?exact, ?combine⟩⟩
  case read =>
    intro as got dest land tbl he has hbad bytes
    have ht : t = s.arrayRead e as got dest land tbl := landOne_load_read he has
    refine ⟨fun hl => ht.trans (arrayRead_beat hbad hl), fun hl hr hw => ht.trans (arrayRead_last hbad hl hr hw), fun hl k hk => ?_⟩
    subst hk
    exact ht.trans (arrayRead_ring hbad hl k)
  case landed =>
    intro got dest land tbl he u
    have ht : t = s.loadLands e got dest := landOne_load_landed he
    refine ⟨fun code hd hc => ?tile, fun n p hd => ?plane, fun n hd => ?row, fun id hd => ?scale, fun ⟨k, hk⟩ => ?frame⟩
    case tile =>
      rw [loadLands_tile s e got hd] at ht
      obtain ⟨htile, -, haccs, -⟩ := core_landTile s u code (bytesWords got)
      rw [ht]
      refine ⟨fun k hk => ?_, ?_, fun k hk => ?_, haccs, planes_landTile .., fun q => seq_landTile ..⟩
      · rw [htile, tile_setTile hc, if_pos rfl, overlay, List.getElem?_append_left (by rw [length_bytesWords]; omega)]
        exact getElem?_bytesWords hk
      · rw [htile, tile_setTile hc, if_pos rfl, overlay, ← length_bytesWords, List.drop_left]
      · rw [htile, tile_setTile hc, if_neg hk]
    case plane =>
      rw [hd, loadLands_plane] at ht
      obtain ⟨hsame, hother⟩ := planes_landSlot (s.core u) n (got ++ List.replicate (12288 - got.length) 0)
      rw [ht, core_modCore_same]
      exact ⟨hsame, hother, rfl, rfl, rfl, seq_modCore (fun c => seq_landSlot c true _ _) s u⟩
    case row =>
      rw [hd, loadLands_row] at ht
      obtain ⟨hsame, hother⟩ := rows_landSlot (s.core u) n got
      rw [ht, core_modCore_same]
      exact ⟨hsame, hother, rfl, rfl, rfl, seq_modCore (fun c => seq_landSlot c false _ _) s u⟩
    case scale =>
      subst hd
      exact ht
    case frame =>
      obtain ⟨f, hf⟩ := loadLands_modCore s e got hk
      rw [ht, hf]
      exact ⟨fun v hv => core_modCore_other _ _ _ _ hv, rfl⟩
  case exact =>
    intro rx off data he
    have ht : t = s.exactLands e rx off data none := by simp only [t, State.landOne, he]
    have hwf : Memory.wf s.spadBg s.spad = true := hcan.1
    obtain ⟨hdev, -, hhost, -⟩ := writeSpad_memory s (cellsAt off data)
    have hin (i : Nat) (b : Byte) (hb : data[i]? = some b) := spadByte_writeSpad_inside (a := off) hwf hb
    have hout (a : Nat) (ha : a < off ∨ off + data.length ≤ a) := spadByte_writeSpad_outside hwf ha
    by_cases hc : ∃ r, rx = some r ∧ ((s.core e.by_.unit).descs.get r).countsAt off
    · obtain ⟨r, rfl, hc⟩ := hc
      rw [ht, exactLands_counted data hc]
      refine ⟨hin, hout, hdev, hhost, (sameRegs_writeSpad _ _).trans (sameRegs_setDesc _ _ _ _), fun r' hr => ?_⟩
      obtain rfl := Option.some.inj hr
      rw [desc_setDesc]
      obtain ⟨hopen, hex, -⟩ := hc
      exact ⟨fun _ _ _ _ => ⟨lookup_take .., take_complete hex⟩, fun hn => absurd hn (by simp [hopen, hex])⟩
    · have hno (r : Idx64) (hr : rx = some r) : ¬ ((s.core e.by_.unit).descs.get r).countsAt off := fun h => hc ⟨r, hr, h⟩
      rw [ht, exactLands_uncounted data hno]
      exact ⟨hin, hout, hdev, hhost, sameRegs_writeSpad _ _, fun r hr =>
        ⟨fun h₁ h₂ h₃ h₄ => absurd ⟨h₁, h₂, h₃, h₄⟩ (hno r hr), fun _ => descs_writeSpad ..⟩⟩
  case combine =>
    intro port key j rx serial blk off add p b he hp hb hbad hlen old n adds
    have hwf : Memory.wf s.spadBg s.spad = true := hcan.1
    have ht : t = s.combineLands e port key j rx serial blk off add := by simp only [t, State.landOne, he]
    let r := combineBlock add b.crcOk n b.data old
    obtain ⟨hbytes, htransit, hport, hgot⟩ := combineLands_reads hp hb hbad port rx serial blk add (e := e)
    have hcount : r.2 = if b.crcOk = true ∧ 0 < n then min (n + 1) 255 else 1 := combineBlock_count
    have hr : r.1.length = 256 := length_combineBlock hlen (length_spadBytes ..)
    have hin (i : Nat) (x : Byte) (hx : r.1[i]? = some x) : t.spadByte (off + i) = x := by
      rw [ht, hbytes]; exact spadByte_writeSpad_inside hwf hx
    have hall : t.spadBytes off 256 = r.1 :=
      (spadBytes_of_spadByte (j := 0) hin (by omega)).trans (by rw [List.drop_zero, ← hr, List.take_length])
    refine ⟨fun k hk ha => ?_, fun ha => ?_, fun a ha => ?_, ⟨withBlock p j r, ?_, ?_, ?_⟩, fun hs => ?_, ?_⟩
    · exact (spadBytes_of_spadByte hin (by omega)).trans (combineBlock_lane ha hlen (length_spadBytes ..) hk)
    · exact hall.trans (combineBlock_buffer ha)
    · rw [ht, hbytes]; exact spadByte_writeSpad_outside hwf (hr.symm ▸ ha)
    · rw [ht, htransit]; exact find_replaceTransit hp _
    · rw [hall]; rfl
    · rw [← hcount]; rfl
    · rw [ht, hgot hs, ← hcount]
    · rw [ht, hport]

end

section
/-! SUPPORT. Vector forms: the pipe that they take or find in use, their lane functions, and the forms without a pipe (08 R150 to R165). -/

namespace Sys2Proof.Machine
open Host

/-! ### The pipe (08 R150, R153) -/

section
variable {s : State} {b : Bool} {act : State → Verdict}

theorem onPipe_of_free (hp : s.pipeFree b) : s.onPipe b act = act (s.takePipe b) := if_neg (Nat.not_lt.2 hp)

theorem onPipe_of_taken (hp : ¬ s.pipeFree b) : s.onPipe b act = s.busy (s.pipeTill b) := if_pos (Nat.not_le.1 hp)

end

/-- What an instruction of `len` words that runs on pipe `b` does: it waits for the pipe while that is in use, and leaves `t` where
it is free (08 R153). -/
def State.runsOnPipe (s : State) (h : Hdr) (len : Nat) (b : Bool) (i : Instr) (t : State) : Prop :=
  (¬ s.pipeFree b → s.waitsFor h len (s.pipeTill b) i) ∧ (s.pipeFree b → exec i s = .next (t.retire len 0))

section
variable {s t : State} {h : Hdr} {len lat : Nat} {pg : PReg} {vd va vb vc : TileCode} {b fl : Bool} {i : Instr}

theorem runsOnPipe_of_guarded {a : Ask} {act : State → State → Verdict}
    (he : exec i s = guarded h len pg a (fun s => s.onPipe b (act s)) s) (hi : s.issuesIf h pg a) (ht : act s (s.takePipe b) = .ok t) :
    s.runsOnPipe h len b i t :=
  ⟨fun hp => waitsFor_of_busy (he.trans (guarded_true hi.1)) hi.2 (onPipe_of_taken hp),
   fun hp => he.trans (guarded_ok hi ((onPipe_of_free hp).trans ht))⟩

/-- A form on a pipe writes the lanes `rs` of its function to `vd` and to the last result of the pipe (08 R151, R152). -/
theorem runsOnPipe_of_pipeOp {srcs : List TileCode} {extra : List Dest} {f : State → Nat → List (Word × Flags)} {rs : List (Word × Flags)}
    (he : exec i s = pipeOp h len vd srcs extra pg lat fl f s) (hi : s.issuesIf h pg (s.vecAsk vd srcs extra))
    (hf : f s (lanesOf s.here.shp) = rs) :
    s.runsOnPipe h len (pipeOf (vd :: srcs)) i
      ((s.takePipe (pipeOf (vd :: srcs))).result h vd lat (some (lastOf (pipeOf (vd :: srcs)))) fl rs) := by
  subst hf
  exact runsOnPipe_of_guarded he hi rfl

theorem runsOnPipe_of_vec1 {f : Word → Word × Flags} (he : exec i s = vec1 h vd va pg lat fl f s)
    (hi : s.issuesIf h pg (s.vecAsk vd [va] [])) :
    s.runsOnPipe h 1 (pipeOf [vd, va]) i ((s.takePipe (pipeOf [vd, va])).result h vd lat (some (lastOf (pipeOf [vd, va]))) fl
      ((List.range (lanesOf s.here.shp)).map (fun j => f (laneAt (s.tile va) j)))) :=
  runsOnPipe_of_pipeOp he hi rfl

theorem runsOnPipe_of_vec2 {f : Word → Word → Word × Flags} (he : exec i s = vec2 h vd va vb pg lat fl f s)
    (hi : s.issuesIf h pg (s.vecAsk vd [va, vb] [])) :
    s.runsOnPipe h 1 (pipeOf [vd, va, vb]) i ((s.takePipe (pipeOf [vd, va, vb])).result h vd lat (some (lastOf (pipeOf [vd, va, vb]))) fl
      ((List.range (lanesOf s.here.shp)).map (fun j => f (laneAt (s.tile va) j) (laneAt (s.tile vb) j)))) :=
  runsOnPipe_of_pipeOp he hi rfl

theorem runsOnPipe_of_vec3 {f : Word → Word → Word → Word × Flags} (he : exec i s = vec3 h vd va vb vc pg lat fl f s)
    (hi : s.issuesIf h pg (s.vecAsk vd [va, vb, vc] [])) :
    s.runsOnPipe h 2 (pipeOf [vd, va, vb, vc]) i
      ((s.takePipe (pipeOf [vd, va, vb, vc])).result h vd lat (some (lastOf (pipeOf [vd, va, vb, vc]))) fl
        ((List.range (lanesOf s.here.shp)).map (fun j => f (laneAt (s.tile va) j) (laneAt (s.tile vb) j) (laneAt (s.tile vc) j)))) :=
  runsOnPipe_of_pipeOp he hi rfl

/-- A form of two sources may be read with any lane function of the same values. -/
theorem exec_vec2_congr {f g : Word → Word → Word × Flags} (he : exec i s = vec2 h vd va vb pg lat fl f s) (hf : ∀ a b, f a b = g a b) :
    exec i s = vec2 h vd va vb pg lat fl g s := by
  rw [he, funext₂ hf]

end

/-! ### Broadcast and move (08 R160, R162) -/

theorem exec_vbcast (h : Hdr) (vd : TileCode) (xa : XReg) (pg : PReg) (s : State) : exec (.vbcast h vd xa pg) s =
    pipeOp h 1 vd [] [.x s.cur xa] pg 1 false (fun s n => List.replicate n ((s.xr xa).setWidth 32, 0)) s := rfl

/-- VXM runs on the pipe of its source, and writes no last result (08 R160). -/
theorem exec_vxm (h : Hdr) (vd va : TileCode) (pg : PReg) (s : State) : exec (.vxm h vd va pg) s =
    guarded h 1 pg { reads := s.tileDest va, writes := s.tileDest vd, lanes := lanesOf s.here.shp } (fun s => s.onPipe (pipeOf [va])
      (fun s' => .ok (s'.result h vd 2 none false ((List.range (lanesOf s.here.shp)).map (fun j => (laneAt (s.tile va) j, 0)))))) s := rfl

/-! ### Lane to index register, shape (08 R163, R165) -/

theorem exec_vget (h : Hdr) (xd : XReg) (va : TileCode) (lane : BitVec 8) (s : State) : exec (.vget h xd va lane) s =
    issue h 1 { reads := s.tileDest va, writes := [.x s.cur xd], firstLane := lane.toNat, lanes := 1 }
      (fun s => .ok (s.laterX h xd 2 ((laneAt (s.tile va) lane.toNat).setWidth 64))) s := rfl

theorem exec_shape (h : Hdr) (rows cols : BitVec 4) (s : State) : exec (.shape h rows cols) s =
    issue h 1 {} (fun s => .ok (s.later h (s.cyc + 2) true true (.setShp s.cur.unit (cols ++ rows)))) s := rfl

/-! ### Lane functions (08 R158, R159) -/

/-- Below or equal is neither above nor unordered (08 Table 8-4). -/
theorem exec_vfcle (h : Hdr) (vd va vb : TileCode) (pg : PReg) (s : State) : exec (.vfcle h vd va vb pg) s =
    vec2 h vd va vb pg 3 false
      (fun a b => quiet (maskOf (cmpV (dec32 a) (dec32 b) == some .eq || cmpV (dec32 a) (dec32 b) == some .lt))) s := by
  show execVfcle h vd va vb pg s = _
  unfold execVfcle
  congr
  funext a b
  rcases cmpV (dec32 a) (dec32 b) with _ | (_ | _ | _) <;> rfl

theorem if_slt (a b x y : Word) : (if a.slt b then x else y) = if a.toInt < b.toInt then x else y := if_congr BitVec.slt_iff_toInt_lt rfl rfl

theorem if_ult (a b x y : Word) : (if a.ult b then x else y) = if a.toNat < b.toNat then x else y := if_congr BitVec.ult_iff_lt rfl rfl

/-- A clamped lane is the value itself where that is in range, else the nearest bound with `IOVF` (08 Table 8-5). -/
theorem clampLane_eq (v : Int) : clampLane v =
    if v < -2 ^ 31 then (0x80000000, 0x10) else if 2 ^ 31 - 1 < v then (0x7FFFFFFF, 0x10) else (BitVec.ofInt 32 v, 0) := by
  unfold clampLane
  rw [clampI_int32]
  split_ifs with hlo hhi
  · rfl
  · rfl
  · exact Prod.ext (BitVec.ofNat_toNat ..) rfl

end Sys2Proof.Machine
end

section
/-! OBLIGATIONS. Vector forms. -/

open Sys2Proof Sys2Proof.Machine Host

/-- Settles O30: each form is one `vec2`, most of them with the lane function of the table row as it stands. -/
theorem vectorTwoSourceForms : Obligations.VectorTwoSourceForms := by
  intro h vd va vb pg s p m sat hi k hk
  suffices hvec : exec k.1 s = vec2 h vd va vb pg k.2.1 k.2.2.1 k.2.2.2 s from (runsOnPipe_of_vec2 hvec hi).symm
  revert k
  simp only [List.forall_mem_cons]
  refine ⟨rfl, rfl, rfl, rfl, rfl, rfl, rfl, exec_vfcle .., rfl, rfl, rfl, rfl, rfl, ?vimin, ?vimax, ?vumin, ?vumax, ?viadds, ?visubs,
    rfl, rfl, rfl, rfl, rfl, rfl, rfl, rfl, rfl, rfl, List.forall_mem_nil _⟩
  case vimin => exact exec_vec2_congr rfl fun a b => congrArg quiet (if_slt b a b a)
  case vimax => exact exec_vec2_congr rfl fun a b => congrArg quiet (if_slt a b b a)
  case vumin => exact exec_vec2_congr rfl fun a b => congrArg quiet (if_ult b a b a)
  case vumax => exact exec_vec2_congr rfl fun a b => congrArg quiet (if_ult a b b a)
  case viadds => exact exec_vec2_congr rfl fun a b => clampLane_eq (a.toInt + b.toInt)
  case visubs => exact exec_vec2_congr rfl fun a b => clampLane_eq (a.toInt - b.toInt)

/-- Settles O31: the forms of one and three sources are `vec1` and `vec3`, VBCAST and VXM run on a pipe too, and VGET and SHAPE write their
register after two cycles. -/
theorem vectorOtherForms : Obligations.VectorOtherForms := by
  intro h vd va vb vc xd xa pg src dst rows cols st lane s n
  refine ⟨?one, ?three, ?bcast, ?move,
    fun hi => exec_of_issue (exec_vget h xd va lane s) hi rfl, fun hi => exec_of_issue (exec_shape h rows cols s) hi rfl⟩
  case one =>
    intro p k hk hi
    suffices hvec : exec k.1 s = vec1 h vd va k.2.1 k.2.2.1 k.2.2.2.1 k.2.2.2.2 s from runsOnPipe_of_vec1 hvec hi
    clear hi
    revert k
    simp only [List.forall_mem_cons]
    exact ⟨rfl, rfl, rfl, rfl, List.forall_mem_nil _⟩
  case three =>
    intro p hi k hk
    suffices hvec : exec k.1 s = vec3 h vd va vb vc pg k.2.1 k.2.2.1 k.2.2.2 s from runsOnPipe_of_vec3 hvec hi
    revert k
    simp only [List.forall_mem_cons]
    exact ⟨rfl, rfl, rfl, rfl, List.forall_mem_nil _⟩
  case bcast =>
    intro p hi
    exact (runsOnPipe_of_pipeOp (exec_vbcast h vd xa pg s) hi rfl :)
  case move =>
    intro p hi
    exact (runsOnPipe_of_guarded (exec_vxm h vd va pg s) hi rfl :)

end

section
/-! SUPPORT. Stream buffers, the format table and the scale queue: what their forms wait for, and what they take (08 R167 to R169, 10 R203, R204). -/

namespace Sys2Proof.Machine
open Host

/-! ### Pushes on their way (08 R168, R169) -/

/-- A push to stream buffer `q` of the issuing core is on its way. -/
def State.pushComing (s : State) (q : BitVec 2) : Prop := ∃ e ∈ s.effs, ∃ ws, e.op = .push s.cur.unit q ws

section
variable {s : State} {q : BitVec 2} {act : State → Verdict}

theorem afterPushes_waits (hal : s.me.aligned = false) (hp : s.pushComing q) : s.afterPushes q act = s.busy (s.cyc + 1) := by
  obtain ⟨e, he, ws, hop⟩ := hp
  rw [busy_of_free hal]
  refine if_pos (Bool.and_eq_true_iff.2 ⟨by rw [hal]; rfl, List.any_eq_true.2 ⟨e, he, ?_⟩⟩)
  rw [hop]
  simp

theorem afterPushes_acts (hn : s.me.aligned = true ∨ ∀ e ∈ s.effs, ∀ ws, e.op ≠ .push s.cur.unit q ws) : s.afterPushes q act = act s := by
  refine if_neg fun hc => ?_
  obtain ⟨hal, hany⟩ := Bool.and_eq_true_iff.1 hc
  obtain ⟨e, he, hpush⟩ := List.any_eq_true.1 hany
  split at hpush
  · next u k ws hop =>
    obtain ⟨rfl, rfl⟩ : u = s.cur.unit ∧ k = q := by simpa using hpush
    obtain hal' | hno := hn
    · simp [hal'] at hal
    · exact hno e he ws hop
  · exact Bool.false_ne_true hpush

end

/-! ### The forms (08 R167 to R169, 10 R203, R204) -/

section
variable (h : Hdr) (q : BitVec 2) (vd va vb : TileCode) (xd xa : XReg) (ft : BitVec 4) (pg : PReg) (s : State)

theorem exec_vpush : exec (.vpush h q va vb pg) s = guarded h 1 pg { reads := s.tileDest va ++ s.tileDest vb, lanes := lanesOf s.here.shp }
    (fun s =>
      let sel := selectLanes (s.tile va) (s.tile vb) (lanesOf s.here.shp)
      if 1024 < (s.here.streams.get q.toFin).length + s.pendingPush q + sel.length then .fault { code := .stream }
      else .ok (s.later h (s.cyc + 2) true true (.push s.cur.unit q sel))) s := rfl

/-- `n` words have been taken from the front of stream buffer `q`, and are on their way to `vd`, their number to `xd` (08 R168). -/
def State.popped (s : State) (h : Hdr) (q : BitVec 2) (vd : TileCode) (xd : XReg) (n : Nat) : State :=
  ((s.modHere (fun k => k.popStream q n)).later h (landAt s vd 4) true true
    (.setTile s.cur.unit vd.toNat (overlay ((s.here.streams.get q.toFin).take n) zeroTile))).laterX h xd 2 (BitVec.ofNat 64 n)

theorem exec_vpop : exec (.vpop h q vd xd) s = issue h 1 { writes := .x s.cur xd :: s.tileDest vd } (fun s => s.afterPushes q (fun s =>
    let n := min (s.here.streams.get q.toFin).length 256
    if s.here.streamBad q n then .fault { code := .uncorrectable } else .ok (s.popped h q vd xd n))) s := rfl

theorem exec_vqcnt : exec (.vqcnt h xd q) s = issue h 1 { writes := [.x s.cur xd] } (fun s => s.afterPushes q (fun s =>
    .ok (s.laterX h xd 1 (BitVec.ofNat 64 (s.here.streams.get q.toFin).length)))) s := rfl

theorem exec_ftset : exec (.ftset h ft xa) s = issue h 1 { reads := [.x s.cur xa] }
    (fun s => .ok (s.later h (s.cyc + 1) true true (.setFt s.cur.unit ft ((s.xr xa).setWidth 12)))) s := rfl

theorem exec_ftget : exec (.ftget h xd ft) s = issue h 1 { writes := [.x s.cur xd] }
    (fun s => .ok (s.laterX h xd 1 ((s.here.ft.get ft.toFin).setWidth 64))) s := rfl

theorem exec_sqcnt : exec (.sqcnt h xd) s = issue h 1 { writes := [.x s.cur xd] }
    (fun s => .ok (s.laterX h xd 1 (BitVec.ofNat 64 (s.here.present + 256 * s.here.outstanding)))) s := rfl

theorem exec_sqdrop : exec (.sqdrop h xa) s = issue h 1 { reads := [.x s.cur xa] } (fun s => s.scaleCase (s.xr xa).toNat
    (fun s => .ok (s.modHere (fun c => { c with sq := c.sq.drop (s.xr xa).toNat })))) s := rfl

end

/-! ### The front of a stream buffer is taken (08 R168) -/

theorem streams_setSeq (c : Core) (q : SeqName) (v : Seq) : (c.setSeq q v).streams = c.streams := by cases q <;> rfl

section
variable {s : State} (h : Hdr) (q : BitVec 2) (vd : TileCode) (xd : XReg) (n : Nat)

theorem streams_popped : (s.popped h q vd xd n).here.streams =
    s.here.streams.set q.toNat ((s.here.streams.get q.toFin).drop n) q.isLt :=
  congrArg Core.streams (here_modHere s (fun k => k.popStream q n))

/-- Two writes are on their way: the tile, which the operand file shows a cycle later, and the number of words (08 R154, R168). -/
theorem effs_popped (hlen : n ≤ (s.here.streams.get q.toFin).length) : ∃ e f,
    (s.popped h q vd xd n).effs = s.effs ++ [e, f] ∧ e.at_ = s.cyc + 4 + (if 32 ≤ vd.toNat ∧ vd.toNat ≤ 35 then 1 else 0) ∧
    e.op = .setTile s.cur.unit vd.toNat ((s.here.streams.get q.toFin).take n ++ List.replicate (256 - n) 0) ∧
    f.at_ = s.cyc + 2 ∧ f.op = .setX s.cur xd (BitVec.ofNat 64 n) false := by
  have hlands : landAt s vd 4 = s.cyc + 4 + (if 32 ≤ vd.toNat ∧ vd.toNat ≤ 35 then 1 else 0) := by simp [landAt]
  have hwords : overlay ((s.here.streams.get q.toFin).take n) zeroTile =
      (s.here.streams.get q.toFin).take n ++ List.replicate (256 - n) 0 := by
    rw [overlay, zeroTile, List.drop_replicate, List.length_take, Nat.min_eq_left hlen]
  exact ⟨_, _, List.append_assoc .., hlands, congrArg _ hwords, rfl, rfl⟩

end

section
variable {h : Hdr} {q : BitVec 2} {vd : TileCode} {xd : XReg} {s : State} (hi : s.issues h { writes := .x s.cur xd :: s.tileDest vd })
  (hn : s.me.aligned = true ∨ ∀ e ∈ s.effs, ∀ ws, e.op ≠ .push s.cur.unit q ws)
include hi hn

/-- A word among those taken has an uncorrectable error (15 R326). -/
theorem exec_vpop_of_bad (hbad : s.here.streamBad q (min (s.here.streams.get q.toFin).length 256) = true) :
    exec (.vpop h q vd xd) s = .next (s.raise h 1 { code := .uncorrectable }) :=
  (exec_vpop h q vd xd s).trans (issue_fault hi ((afterPushes_acts hn).trans (if_pos hbad)))

theorem exec_vpop_of_good (hgood : s.here.streamBad q (min (s.here.streams.get q.toFin).length 256) = false) :
    exec (.vpop h q vd xd) s = .next ((s.popped h q vd xd (min (s.here.streams.get q.toFin).length 256)).retire 1 0) :=
  exec_of_issue (exec_vpop h q vd xd s) hi ((afterPushes_acts hn).trans (if_neg (Bool.eq_false_iff.1 hgood)))

end

/-! ### The scale queue is popped (10 R192, R204) -/

section
variable {s : State} {n : Nat} {act : State → Verdict}

theorem scaleCase_present (hp : n ≤ s.here.present) : s.scaleCase n act = act s := if_pos hp

theorem scaleCase_short (hp : s.here.present < n) (hl : s.here.sq.length < n) : s.scaleCase n act = .fault { code := .scaleq } :=
  (if_neg (Nat.not_le.2 hp)).trans (if_pos hl)

theorem scaleCase_outstanding (hp : s.here.present < n) (hl : n ≤ s.here.sq.length) : s.scaleCase n act = s.busy (s.cyc + 1) :=
  (if_neg (Nat.not_le.2 hp)).trans (if_neg (Nat.not_lt.2 hl))

end

end Sys2Proof.Machine
end

section
/-! OBLIGATIONS. Stream buffers, the format table and the scale queue. -/

open Sys2Proof Sys2Proof.Machine Host

/-- Settles O32: VPOP and VQCNT act where no push is to be waited for, SQDROP in the case of the scale queue that its count falls in. -/
theorem streamAndTableForms : Obligations.StreamAndTableForms := by
  intro h q vd va vb xd xa ft pg s buf
  refine ⟨fun hi => ?push, fun hal hcoming => ⟨fun hi => ?popWaits, fun hi => ?countWaits⟩, fun hnone => ⟨fun hi => ?pop, fun hi => ?count⟩,
    fun hi => ⟨exec_of_issue (exec_ftset h xa ft s) hi rfl, fun hp => ?drop, fun hp hl => ?short, fun hp hl => ?outstanding⟩,
    fun hi => ⟨exec_of_issue (exec_ftget h xd ft s) hi rfl, exec_of_issue (exec_sqcnt h xd s) hi rfl⟩⟩
  case push =>
    rw [exec_vpush]
    exact ⟨fun hfull => (guarded_true hi.1).trans (issue_fault hi.2 (if_pos hfull)),
      fun hroom => guarded_ok hi (if_neg (Nat.not_lt.2 hroom))⟩
  case popWaits => exact waitsFor_of_busy (exec_vpop h q vd xd s) hi (afterPushes_waits hal hcoming)
  case countWaits => exact waitsFor_of_busy (exec_vqcnt h q xd s) hi (afterPushes_waits hal hcoming)
  case pop =>
    refine ⟨exec_vpop_of_bad hi hnone, fun hgood => ?_⟩
    obtain ⟨e, f, heffs, he⟩ := effs_popped (s := s) h q vd xd (min buf.length 256) (Nat.min_le_left ..)
    refine ⟨_, e, f, exec_vpop_of_good hi hnone hgood, ?_, fun k hk => ?_, heffs, he⟩
    · rw [here_retire, streams_setSeq, streams_popped, vector_get_set]
      exact if_pos rfl
    · rw [here_retire, streams_setSeq, streams_popped]
      exact vector_get_set_of_ne _ _ _ _ (val_ne_toNat hk)
  case count => exact exec_of_issue (exec_vqcnt h q xd s) hi (afterPushes_acts hnone)
  case drop => exact exec_of_issue (exec_sqdrop h xa s) hi (scaleCase_present hp)
  case short => exact (exec_sqdrop h xa s).trans (issue_fault hi (scaleCase_short hp hl))
  case outstanding => exact waitsFor_of_busy (exec_sqdrop h xa s) hi (scaleCase_outstanding hp hl)

end

section
/-! SUPPORT. The special-function unit, the forms on a pipe that leave lanes of a source unread, and the sum of a reduction (09 R170, R171, R177, R180). -/

namespace Sys2Proof.Machine
open Host

/-! ### The special-function unit (09 R170) -/

/-- The special-function unit is taken for one cycle for each 32 active lanes begun (09 R170). -/
def State.takeSfu (s : State) : State := s.modHere (fun c => { c with sfu := s.cyc + (lanesOf s.here.shp + 31) / 32 })

section
variable {s : State} {h : Hdr} {vd : TileCode} {srcs : List TileCode} {pg : PReg} {lat : Nat} {i : Instr}
  {f : State → Nat → List (Word × Flags)} (he : exec i s = sfuOp h vd srcs pg lat f s)
include he

/-- A form on the unit may be read with the lanes that its function gives for the tiles at issue. -/
theorem exec_sfuOp_lanes {rs : List (Word × Flags)} (hf : f s (lanesOf s.here.shp) = rs) :
    exec i s = sfuOp h vd srcs pg lat (fun _ _ => rs) s := by
  rw [he, ← hf]
  rfl

variable (hi : s.issuesIf h pg (s.vecAsk vd srcs []))
include hi

theorem waitsFor_sfu (hbusy : s.cyc < s.here.sfu) : s.waitsFor h 1 s.here.sfu i :=
  waitsFor_of_busy (he.trans (guarded_true hi.1)) hi.2 (if_pos hbusy)

/-- All lanes land together, on the last cycle of the latency of the group of 32 that began last (09 R170). -/
theorem exec_of_sfuOp (hfree : s.here.sfu ≤ s.cyc) : exec i s =
    .next ((s.takeSfu.result h vd (lat + (lanesOf s.here.shp + 31) / 32 - 1) (some 38) true (f s (lanesOf s.here.shp))).retire 1 0) :=
  he.trans (guarded_ok hi (if_neg (Nat.not_lt.2 hfree)))

end

/-! ### The form on the unit that each special function is (09 Table 9-4, R175) -/

section
variable (h : Hdr) (vd va vb : TileCode) (pg : PReg) (s : State)

theorem exec_exp2 : exec (.exp2 h vd va pg) s = sfuOp h vd [va] pg 8 (fun s n => lanes1 s va exp2Lane n) s := rfl

theorem exec_log2 : exec (.log2 h vd va pg) s = sfuOp h vd [va] pg 8 (fun s n => lanes1 s va log2Lane n) s := rfl

theorem exec_rcp : exec (.rcp h vd va pg) s = sfuOp h vd [va] pg 10 (fun s n => lanes1 s va rcpLane n) s := rfl

theorem exec_rsq : exec (.rsq h vd va pg) s = sfuOp h vd [va] pg 10 (fun s n => lanes1 s va rsqLane n) s := rfl

theorem exec_sqrt : exec (.sqrt h vd va pg) s = sfuOp h vd [va] pg 14 (fun s n => lanes1 s va sqrtLane n) s := rfl

theorem exec_div : exec (.div h vd va vb pg) s = sfuOp h vd [va, vb] pg 14 (fun s n => lanes2 s va vb divLane n) s := rfl

end

/-! ### The lanes that a form on a pipe reads (09 R171, R180) -/

/-- The source lanes that a form with sources `srcs` does not read: those of the contribution without validity, where `srcs` are the
running sum, the contribution and its validity, and none otherwise (09 R180). -/
def State.unreadOf (s : State) (vd va vb : TileCode) (srcs : List TileCode) : List (Nat × Nat) :=
  if srcs = [vd, va, vb] then s.unreadLanes vd va vb else []

section
variable {s : State} {h : Hdr} {len lat : Nat} {pg : PReg} {vd va vb : TileCode} {srcs : List TileCode} {extra : List Dest} {fl : Bool}
  {i : Instr} {f : State → Nat → List (Word × Flags)} {rs : List (Word × Flags)}

/-- A form on a pipe writes the lanes of its function whichever lanes of its sources it leaves unread (09 R171, R180). -/
theorem runsOnPipe_of_pipeOpBut {skip : List (Nat × Nat)} (he : exec i s = pipeOpBut skip h len vd srcs extra pg lat fl f s)
    (hi : s.issuesIf h pg { s.vecAsk vd srcs extra with skip := skip }) :
    s.runsOnPipe h len (pipeOf (vd :: srcs)) i
      ((s.takePipe (pipeOf (vd :: srcs))).result h vd lat (some (lastOf (pipeOf (vd :: srcs)))) fl (f s (lanesOf s.here.shp))) :=
  runsOnPipe_of_guarded he hi rfl

theorem unreadOf_lossy (s : State) (vd va vb : TileCode) : s.unreadOf vd va vb [vd, va, vb] = s.unreadLanes vd va vb := if_pos rfl

theorem unreadOf_of_length_lt (s : State) (vd va vb : TileCode) (hl : srcs.length < 3) : s.unreadOf vd va vb srcs = [] :=
  if_neg fun heq => by simp [heq] at hl

theorem exec_of_pipeOpBut {skip : List (Nat × Nat)} (he : exec i s = pipeOpBut skip h len vd srcs extra pg lat fl f s)
    (hskip : s.unreadOf vd va vb srcs = skip) (hf : f s (lanesOf s.here.shp) = rs) :
    exec i s = pipeOpBut (s.unreadOf vd va vb srcs) h len vd srcs extra pg lat fl (fun _ _ => rs) s := by
  rw [he, hskip, ← hf]
  rfl

/-- A form of one or two sources reads all their active lanes. -/
theorem exec_of_pipeOp (he : exec i s = pipeOp h len vd srcs extra pg lat fl f s) (hl : srcs.length < 3)
    (hf : f s (lanesOf s.here.shp) = rs) :
    exec i s = pipeOpBut (s.unreadOf vd va vb srcs) h len vd srcs extra pg lat fl (fun _ _ => rs) s :=
  exec_of_pipeOpBut he (unreadOf_of_length_lt s vd va vb hl) hf

end

/-! ### The exact sum of lanes (09 R177) -/

theorem foldl_toInt_eq_sum (s : State) (v : TileCode) (n : Nat) : (firstLanes s v n).foldl (fun t w => t + w.toInt) 0 =
    ((List.range n).map (fun j => (laneAt (s.tile v) j).toInt)).sum := by
  rw [firstLanes, List.foldl_map, List.sum_eq_foldl, List.foldl_map]

/-! ### The form on a pipe that each reduction and lossy form is (09 R177, R178, R180 to R182) -/

section
variable (h : Hdr) (vd va vb : TileCode) (nan : BitVec 1) (pg : PReg) (s : State)

theorem exec_vrsum : exec (.vrsum h vd va pg) s = pipeOp h 1 vd [va] [] pg 6 true (fun s n => [paddedSum (firstLanes s va n)]) s := rfl

theorem exec_vrisum : exec (.vrisum h vd va pg) s =
    pipeOp h 1 vd [va] [] pg 6 true (fun s n => [clampLane ((firstLanes s va n).foldl (fun t w => t + w.toInt) 0)]) s := rfl

theorem exec_vrmax : exec (.vrmax h vd va nan pg) s = pipeOp h 1 vd [va] [] pg 6 false
    (fun s n => indexLanes (fun x y => rankLt (nan == 1) (dec32 x) (dec32 y)) (firstLanes s va n)) s := rfl

theorem exec_vrmin : exec (.vrmin h vd va nan pg) s = pipeOp h 1 vd [va] [] pg 6 false
    (fun s n => indexLanes (fun x y => rankLt (nan == 1) (dec32 y) (dec32 x)) (firstLanes s va n)) s := rfl

theorem exec_vrimax : exec (.vrimax h vd va pg) s =
    pipeOp h 1 vd [va] [] pg 6 false (fun s n => indexLanes (fun x y => decide (x.toInt < y.toInt)) (firstLanes s va n)) s := rfl

theorem exec_vrimin : exec (.vrimin h vd va pg) s =
    pipeOp h 1 vd [va] [] pg 6 false (fun s n => indexLanes (fun x y => decide (y.toInt < x.toInt)) (firstLanes s va n)) s := rfl

theorem exec_vrdot : exec (.vrdot h vd va vb pg) s = pipeOp h 1 vd [va, vb] [] pg 8 true (fun s n =>
    let ps := lanes2 s va vb (fun a b => fmul (dec32 a) (dec32 b)) n
    let t := paddedSum (ps.map (·.1))
    [(t.1, t.2 ||| laneFlags ps)]) s := rfl

theorem exec_vmcnt : exec (.vmcnt h vd va pg) s = pipeOp h 1 vd [vd, va] [] pg 3 true (fun s n => lanes2 s vd va countLane n) s := rfl

theorem exec_vrscl : exec (.vrscl h vd va vb pg) s = pipeOp h 1 vd [va, vb] [] pg 6 true (fun s n => lanes2 s va vb rescaleLane n) s := rfl

/-- VRLSUM leaves the lanes of the contribution without validity unread, and writes there the running sum (09 R180). -/
theorem exec_vrlsum : exec (.vrlsum h vd va vb pg) s =
    pipeOpBut (s.unreadLanes vd va vb) h 1 vd [vd, va, vb] [] pg 3 true (fun s n => (List.range n).map (fun j =>
      if laneAt (s.tile vb) j = 0 then (laneAt (s.tile vd) j, 0) else fadd (dec32 (laneAt (s.tile vd) j)) (dec32 (laneAt (s.tile va) j)))) s := rfl

end

end Sys2Proof.Machine
end

section
/-! OBLIGATIONS. Special functions, reductions and lossy forms. -/

open Sys2Proof Sys2Proof.Machine Host

/-- Settles O33: the special functions take their unit, and the other forms a pipe; VRLSUM alone leaves lanes of a source unread. -/
theorem specialFunctionAndReductionForms : Obligations.SpecialFunctionAndReductionForms := by
  intro h vd va vb nan pg s n a b d rs
  refine ⟨?special, ?onPipe⟩
  case special =>
    intro k hk hi
    suffices hsfu : exec k.1 s = sfuOp h vd k.2.1 pg k.2.2.1 (fun _ _ => rs.map k.2.2.2) s from
      ⟨waitsFor_sfu hsfu hi, (exec_of_sfuOp hsfu hi :)⟩
    clear hi
    revert k
    simp only [List.forall_mem_cons]
    exact ⟨exec_sfuOp_lanes (exec_exp2 h vd va pg s) rfl, exec_sfuOp_lanes (exec_log2 h vd va pg s) rfl,
      exec_sfuOp_lanes (exec_rcp h vd va pg s) rfl, exec_sfuOp_lanes (exec_rsq h vd va pg s) rfl,
      exec_sfuOp_lanes (exec_sqrt h vd va pg s) rfl, exec_sfuOp_lanes (exec_div h vd va vb pg s) rfl, List.forall_mem_nil _⟩
  case onPipe =>
    intro k hk p hi
    suffices hpipe : exec k.1 s = pipeOpBut (s.unreadOf vd va vb k.2.1) h 1 vd k.2.1 [] pg k.2.2.1 k.2.2.2.1 (fun _ _ => k.2.2.2.2) s from
      runsOnPipe_of_pipeOpBut hpipe hi
    clear hi p
    revert k
    simp only [List.forall_mem_cons]
    have hone : [va].length < 3 := by simp
    have hcount : [vd, va].length < 3 := by simp
    have hboth : [va, vb].length < 3 := by simp
    exact ⟨exec_of_pipeOp (exec_vrsum h vd va pg s) hone rfl,
      exec_of_pipeOp (exec_vrisum h vd va pg s) hone (congrArg (fun v => [clampLane v]) (foldl_toInt_eq_sum s va n)),
      exec_of_pipeOp (exec_vrmax h vd va nan pg s) hone rfl, exec_of_pipeOp (exec_vrmin h vd va nan pg s) hone rfl,
      exec_of_pipeOp (exec_vrimax h vd va pg s) hone rfl, exec_of_pipeOp (exec_vrimin h vd va pg s) hone rfl,
      exec_of_pipeOp (exec_vrdot h vd va vb pg s) hboth rfl, exec_of_pipeOpBut (exec_vrlsum h vd va vb pg s) (unreadOf_lossy s vd va vb) rfl,
      exec_of_pipeOp (exec_vmcnt h vd va pg s) hcount rfl, exec_of_pipeOp (exec_vrscl h vd va vb pg s) hboth rfl,
      List.forall_mem_nil _⟩

end

section
/-! SUPPORT. The matrix engine: what a form finds where it is in use or free, and what an accumulating instruction leaves as it begins
(10 R189 to R202). -/

namespace Sys2Proof.Machine
open Host

/-- An instruction that is illegal at its issue and not killed raises ILLEGAL, in a branch's shadow too (02 R40). -/
theorem issue_illegal_of_issues {h : Hdr} {len : Nat} {a b : Ask} {body : State → Verdict} {s : State} (hi : s.issues h b)
    (hill : a.illegal = true) (hser : a.serial = false) : issue h len a body s = .next (s.raise h len { code := .illegal }) := by
  obtain ⟨-, hkill, -⟩ := hi
  have hgate : s.gate h a = .fault { code := .illegal } := by simp [State.gate, hill, hser]
  simp [issue, hgate, hkill]

/-! ### The engine (10 R189) -/

/-- The engine is taken for `d` cycles (10 R189). -/
def State.takeEngine (s : State) (d : Nat) : State := s.modHere (fun c => { c with engine := s.cyc + d })

theorem here_takeEngine (s : State) (d : Nat) : (s.takeEngine d).here = { s.here with engine := s.cyc + d } := here_modHere ..

theorem me_takeEngine (s : State) (d : Nat) : (s.takeEngine d).me = s.me := me_modHere (by cases s.cur.q <;> rfl)

theorem present_takeEngine (s : State) (d : Nat) : (s.takeEngine d).here.present = s.here.present := by
  rw [here_takeEngine]
  rfl

theorem sq_takeEngine (s : State) (d : Nat) : (s.takeEngine d).here.sq = s.here.sq := by rw [here_takeEngine]

theorem busy_takeEngine (s : State) (d till : Nat) : (s.takeEngine d).busy till = s.busy till := by
  unfold State.busy
  rw [me_takeEngine]

theorem engine_setSeq (c : Core) (q : SeqName) (v : Seq) : (c.setSeq q v).engine = c.engine := by cases q <;> rfl

theorem here_setMe (s : State) (v : Seq) : (s.setMe v).here = s.here.setSeq s.cur.q v := core_setCore_same ..

section
variable {s : State} {d : Nat} {act : State → Verdict}

theorem onEngine_of_taken (ht : s.cyc < s.here.engine) : s.onEngine d act = s.busy s.here.engine := if_pos ht

theorem onEngine_of_free (hf : s.here.engine ≤ s.cyc) : s.onEngine d act = act (s.takeEngine d) := if_neg (Nat.not_lt.2 hf)

end

section
variable {i : Instr} {h : Hdr} {len d : Nat} {a : Ask} {s : State}

theorem waitsFor_engine {act : State → Verdict} (he : exec i s = issue h len a (fun s => s.onEngine d act) s) (hi : s.issues h a)
    (ht : s.cyc < s.here.engine) : s.waitsFor h len s.here.engine i :=
  waitsFor_of_busy he hi (onEngine_of_taken ht)

/-- A form that takes the engine for one cycle and writes an accumulator on t + 7 (10 R201, R202). -/
theorem exec_of_engineWrite {op : State → EffOp}
    (he : exec i s = issue h len a (fun s => s.onEngine 1 (fun s => .ok (s.later h (s.cyc + 7) true true (op s)))) s)
    (hi : s.issues h a) (hf : s.here.engine ≤ s.cyc) :
    ∃ (t : State) (e : Eff), exec i s = .next t ∧ t.here.engine = s.cyc + 1 ∧ t.effs = s.effs ++ [e] ∧ e.at_ = s.cyc + 7 ∧ e.op = op (s.takeEngine 1) := by
  refine ⟨_, _, exec_of_issue he hi (onEngine_of_free hf), ?_, rfl, rfl, rfl⟩
  rw [here_retire, engine_setSeq]
  exact congrArg Core.engine (here_takeEngine s 1)

end

/-! ### The matrix forms (10 R198 to R202) -/

/-- The accumulator elements that ACCIN writes, each with its lane: those of the window that the accumulator has (10 R202). -/
def State.accinCells (s : State) (vt : TileCode) (row0 : BitVec 7) (col0 : BitVec 8) (tr : BitVec 1) : List (Nat × Word) :=
  ((windowOf s.here.shp row0 col0 tr).zipIdx).filterMap (fun p => (cellIndex p.1).map (fun i => (i, laneAt (s.tile vt) p.2)))

theorem accinCells_takeEngine (s : State) (d : Nat) (vt : TileCode) (row0 : BitVec 7) (col0 : BitVec 8) (tr : BitVec 1) :
    (s.takeEngine d).accinCells vt row0 col0 tr = s.accinCells vt row0 col0 tr := by
  unfold State.accinCells State.tile
  rw [here_takeEngine]
  rfl

/-- The lane that ACCMV writes for the position `p`: the element there, zero outside the accumulator, in the format `fmt` (10 R202). -/
def Core.accmvLane (k : Core) (c : BitVec 2) (fmt : BitVec 4) (sat : BitVec 1) (p : Nat × Nat) : Word × Flags :=
  let kind := kindCode (k.accs.get c.toFin).kind
  let x := match cellIndex p with | some i => k.accCell c i | none => (0, 0)
  if fmt = kind then x
  else
    let r := convertV x.1.toNat kind fmt (sat == 1)
    (BitVec.ofNat 32 r.1, x.2 ||| r.2)

section
variable (h : Hdr) (c : BitVec 2) (vt : TileCode) (row0 : BitVec 7) (col0 : BitVec 8) (fmt : BitVec 4) (sat tr : BitVec 1) (pg : PReg) (s : State)

theorem exec_mclr : exec (.mclr h c) s =
    issue h 1 {} (fun s => s.onEngine 1 (fun s => .ok (s.later h (s.cyc + 7) true true (.clearAcc s.cur.unit c)))) s := rfl

theorem exec_accin : exec (.accin h vt c row0 pg col0 fmt sat tr) s =
    guarded h 2 pg { reads := s.tileDest vt, lanes := lanesOf s.here.shp } (fun s => s.onEngine 1 (fun s => .ok (s.later h (s.cyc + 7) true true
      (.setAcc s.cur.unit c (s.accinCells vt row0 col0 tr) (some (if fmt = 6 then .int32 else .fp32)))))) s := by
  show execAccin h vt c row0 pg col0 fmt sat tr s = _
  simp only [execAccin, State.accinCells, List.zipIdx_eq_zip_range', ← List.range_eq_range']

theorem exec_accmv : exec (.accmv h vt c row0 pg col0 fmt sat tr) s =
    guarded h 2 pg { reads := [.acc s.cur.unit c], writes := s.tileDest vt } (fun s =>
      .ok (s.result h vt 4 none true ((windowOf s.here.shp row0 col0 tr).map (s.here.accmvLane c fmt sat)))) s := rfl

end

/-! ### An accumulating instruction begins (10 R189, R192, R198, R200) -/

/-- The levels of a sequencer alone decide where its end check leads (05 R97). -/
theorem endCheck_of_loops {q p : Seq} (hl : p.loops = q.loops) (ls : List (Fin 4)) (n : Dword) : (endCheck ls p n).2 = (endCheck ls q n).2 := by
  induction ls generalizing q p with
  | nil => rfl
  | cons l ls ih =>
    unfold endCheck
    dsimp only
    rw [hl]
    split
    · rfl
    · exact ih rfl

theorem advance_pc_flagAt (q : Seq) (f len n c : Nat) : ({ q with flagAt := f }.advance len n c).pc = (q.advance len n c).pc := by
  rw [advance_eq, advance_eq]
  exact congrArg q.after.getD (endCheck_of_loops (q := q) (p := { q with flagAt := f }) rfl (endingLevels q len) _)

/-- Steps that only add operations in flight add some in all. -/
theorem foldl_adds_effs {f : State → Nat → State} (hf : ∀ s b, ∃ l, f s b = { s with effs := s.effs ++ l }) (bs : List Nat) (s : State) :
    ∃ l, bs.foldl f s = { s with effs := s.effs ++ l } := by
  induction bs generalizing s with
  | nil => exact ⟨[], by rw [List.append_nil]; rfl⟩
  | cons b bs ih =>
    obtain ⟨l, hl⟩ := hf s b
    obtain ⟨r, hr⟩ := ih (f s b)
    exact ⟨l ++ r, by rw [List.foldl_cons, hr, hl, ← List.append_assoc]⟩

/-- What an accumulating instruction works on: its accumulator, its slots, the formats and mantissa planes of its operands, its K-blocks, and
whether it starts from zero (10 R198, R200). -/
structure MatrixWork where
  c : BitVec 2
  pa : BitVec 3
  pb : BitVec 3
  pm : Option (BitVec 3)
  fa : BitVec 4
  fb : BitVec 4
  p : Nat
  kb : Nat
  zero : Bool

namespace MatrixWork

variable (w : MatrixWork)

/-- The slot of the metadata, which MMAS alone has (10 R200). -/
def index : Option Nat := w.pm.map (·.toNat)

/-- The cycles of one K-block, and of all of them (10 R189, Table 10-2). -/
def blockCycles : Nat := Machine.blockCycles w.fa w.p w.pm.isSome
def cycles : Nat := w.kb * w.blockCycles

/-- An operand has block scales, one entry of them for each K-block (10 R192). -/
def scaled : Bool := scaledFmt w.fa || scaledFmt w.fb
def pops : Nat := if w.scaled then w.kb else 0

/-- The row slots of the stored rows of K-block `b`, and with the slot of the metadata (10 R186, R200). -/
def rows (b : Nat) : List Nat := rowSlots w.fb w.pm.isSome w.pb.toNat b
def slots (b : Nat) : List Nat := w.rows b ++ w.index.toList

/-- The slots that the instruction reads (10 R189). -/
def reads (u : UnitId) : List Dest :=
  ((List.range w.kb).flatMap (fun b => Dest.plane u ((w.pa.toNat + b) % 8) :: (w.slots b).map (Dest.row u))).eraseDups

/-- The reads of the engine from cycle `cyc` on, a K-block after the other (10 R189). -/
def engineReads (cyc : Nat) : List EngineRead :=
  (List.range w.kb).map (fun b => { cyc := cyc + b * w.blockCycles, plane := (w.pa.toNat + b) % 8, rows := w.slots b })

/-- The entries of the scale queue that are popped, and what they hold (10 R192). -/
def popped (k : Core) : List ScaleEntry := if w.scaled then k.sq.take w.kb else []
def scales (k : Core) : List (List Byte × List Nat) := (w.popped k).map (fun e => (e.data.getD [], k.badIn 2 e.id 512))

/-- The operation that lands with the result, with the K-block that is read at issue (10 R189, R198). -/
def op (s : State) : EffOp :=
  .matrix s.cur.unit s.serial w.c w.fa w.fb w.p w.kb w.zero w.pm.isSome w.pb.toNat (w.index.getD 0) (w.scales s.here)
    [s.here.readBlock (w.pa.toNat % 8) (w.rows 0) 0 w.index]

/-- The read of a later K-block is posted for the operation `id` (10 R189). -/
def gather (h : Hdr) (u : UnitId) (id : Nat) (s : State) (b : Nat) : State :=
  if b = 0 then s else s.later h (s.cyc + b * w.blockCycles) true true (.gather u id b ((w.pa.toNat + b) % 8) (w.rows b))

theorem gather_adds_effs (h : Hdr) (u : UnitId) (id : Nat) (s : State) (b : Nat) :
    ∃ l, w.gather h u id s b = { s with effs := s.effs ++ l } := by
  unfold gather
  split
  · exact ⟨[], by rw [List.append_nil]⟩
  · exact ⟨_, rfl⟩

/-- Where the entries that the instruction pops are present, it takes as many as it pops. -/
theorem length_popped {k : Core} (hp : w.pops ≤ k.present) : (w.popped k).length = w.pops := by
  have hq : w.pops ≤ k.sq.length := hp.trans (List.takeWhile_sublist _).length_le
  unfold popped
  unfold pops at *
  cases hs : w.scaled with
  | false => rfl
  | true =>
    rw [hs] at hq
    exact (List.length_take ..).trans (Nat.min_eq_left hq)

theorem length_scales {k : Core} (hp : w.pops ≤ k.present) : (w.scales k).length = w.pops := (List.length_map ..).trans (w.length_popped hp)

/-- The issuing core once its scales are popped and the reads of the engine noted (10 R189, R192). -/
def load (cyc : Nat) (k : Core) : Core :=
  { k with
    sq := k.sq.drop (w.popped k).length
    engineReads := k.engineReads.filter (fun e : EngineRead => decide (cyc < e.cyc)) ++ w.engineReads cyc }

end MatrixWork

/-- The work that the fields of an accumulating instruction ask for as the state stands (10 R194, R198). -/
def State.matrixWork (s : State) (c : BitVec 2) (pa pb : BitVec 3) (fsrc : BitVec 1) (lvl : BitVec 2) (planes fa0 fb0 : BitVec 4)
    (zero : BitVec 1) (kblk : BitVec 3) (pm : Option (BitVec 3)) : MatrixWork :=
  let f := s.matrixShape fsrc lvl planes fa0 fb0
  { c := c, pa := pa, pb := pb, pm := pm, fa := f.1, fb := f.2.1, p := planesOf f.1 f.2.2, kb := kblk.toNat + 1, zero := zero == 1 }

/-- The scales are popped, the reads of the engine are noted and the operation is posted (10 R189, R192, R198). -/
def State.matrixPosted (s : State) (h : Hdr) (w : MatrixWork) : State :=
  { s.modHere (w.load s.cyc) with serial := s.serial + 1 }.later h (s.cyc + w.cycles + 6) true true (w.op s)

/-- As `matrixPosted`, with the reads of the later K-blocks posted too, and the cycle of the flags noted (10 R189, 15 R336). -/
def State.matrixBegun (s : State) (h : Hdr) (w : MatrixWork) : State :=
  let t := (List.range w.kb).foldl (w.gather h s.cur.unit s.serial) (s.matrixPosted h w)
  t.setMe { t.me with flagAt := max t.me.flagAt (t.cyc + w.cycles + 6) }

section
variable (s : State) (h : Hdr) (w : MatrixWork)

theorem here_matrixPosted : (s.matrixPosted h w).here = w.load s.cyc s.here := here_modHere ..

theorem cyc_matrixPosted : (s.matrixPosted h w).cyc = s.cyc := rfl

theorem me_matrixPosted : (s.matrixPosted h w).me = s.me := me_modHere (f := w.load s.cyc) (by cases s.cur.q <;> rfl)

/-- After its posting an accumulating instruction only posts reads and notes the cycle of its flags. -/
theorem matrixBegun_eq : ∃ l f, s.matrixBegun h w =
    { s.matrixPosted h w with effs := (s.matrixPosted h w).effs ++ l }.setMe { s.me with flagAt := f } := by
  obtain ⟨l, hl⟩ := foldl_adds_effs (w.gather_adds_effs h s.cur.unit s.serial) (List.range w.kb) (s.matrixPosted h w)
  refine ⟨l, max s.me.flagAt (s.cyc + w.cycles + 6), ?_⟩
  have hme : { s.matrixPosted h w with effs := (s.matrixPosted h w).effs ++ l }.me = s.me := me_matrixPosted s h w
  unfold State.matrixBegun
  dsimp only
  rw [hl, hme]
  rfl

/-- What an accumulating instruction leaves once it has issued: the engine as it has taken it, the rest of the scale queue, the next word, and
its operation among those in flight. -/
theorem retire_matrixBegun (hp : w.pops ≤ s.here.present) :
    let t := (s.matrixBegun h w).retire 2 0
    t.here.engine = s.here.engine ∧ t.here.sq = s.here.sq.drop w.pops ∧ t.me.pc = (s.me.advance 2 0 s.cyc).pc ∧
    ∃ e ∈ t.effs, e.at_ = s.cyc + w.cycles + 6 ∧ e.op = w.op s := by
  obtain ⟨l, f, hbegun⟩ := matrixBegun_eq s h w
  have hhere : (s.matrixBegun h w).here = (w.load s.cyc s.here).setSeq s.cur.q { s.me with flagAt := f } := by
    rw [hbegun, here_setMe, ← here_matrixPosted s h w]
    rfl
  refine ⟨?_, ?_, ?_, ?_⟩
  · rw [here_retire, engine_setSeq, hhere, engine_setSeq]
    rfl
  · rw [here_retire, sq_setSeq, hhere, sq_setSeq, ← w.length_popped hp]
    rfl
  · rw [hbegun, retire_me, me_setMe, advance_pc_flagAt, State.setMe, setSeq_cyc, cyc_matrixPosted]
  · rw [hbegun]
    exact ⟨_, List.mem_append_left _ (List.mem_append_right _ (List.mem_singleton_self _)), rfl, rfl⟩

end

section
variable {h : Hdr} {c : BitVec 2} {pa pb : BitVec 3} {fsrc : BitVec 1} {lvl : BitVec 2} {planes fa0 fb0 : BitVec 4} {zero : BitVec 1}
  {kblk : BitVec 3} {pm : Option (BitVec 3)} {s : State}

theorem matrixOp_of_illegal (hill : s.matrixIllegal fsrc lvl planes fa0 fb0 pm.isSome kblk = true) :
    matrixOp h c pa pb fsrc lvl planes fa0 fb0 zero kblk pm s = issue h 2 { illegal := true } (fun _ => .fault { code := .illegal }) s :=
  if_pos hill

theorem matrixOp_of_legal (hleg : s.matrixIllegal fsrc lvl planes fa0 fb0 pm.isSome kblk = false) :
    let w := s.matrixWork c pa pb fsrc lvl planes fa0 fb0 zero kblk pm
    matrixOp h c pa pb fsrc lvl planes fa0 fb0 zero kblk pm s = issue h 2 { reads := w.reads s.cur.unit }
      (fun s => s.onEngine w.cycles (fun s => s.scaleCase w.pops (fun s => .ok (s.matrixBegun h w)))) s := by
  intro w
  unfold matrixOp
  rw [if_neg (Bool.eq_false_iff.1 hleg)]
  rfl

end

/-! ### An accumulating instruction at its issue -/

section
variable {i : Instr} {h : Hdr} {w : MatrixWork} {s : State}
  (he : exec i s = issue h 2 { reads := w.reads s.cur.unit }
    (fun s => s.onEngine w.cycles (fun s => s.scaleCase w.pops (fun s => .ok (s.matrixBegun h w)))) s)
  (hi : s.issues h { reads := w.reads s.cur.unit }) (hf : s.here.engine ≤ s.cyc)
include he hi hf

theorem exec_matrix_of_short (hp : s.here.present < w.pops) (hl : s.here.sq.length < w.pops) :
    exec i s = .next (s.raise h 2 { code := .scaleq }) :=
  he.trans (issue_fault hi ((onEngine_of_free hf).trans
    (scaleCase_short (by rwa [present_takeEngine]) (by rwa [sq_takeEngine]))))

theorem waitsFor_scale (hp : s.here.present < w.pops) (hl : w.pops ≤ s.here.sq.length) : s.waitsFor h 2 (s.cyc + 1) i :=
  waitsFor_of_busy he hi ((onEngine_of_free hf).trans
    ((scaleCase_outstanding (by rwa [present_takeEngine]) (by rwa [sq_takeEngine])).trans (busy_takeEngine ..)))

theorem exec_matrix_of_present (hp : w.pops ≤ s.here.present) :
    ∃ (t : State) (e : Eff), exec i s = .next t ∧ t.here.engine = s.cyc + w.cycles ∧ t.here.sq = s.here.sq.drop w.pops ∧
      t.me.pc = (s.me.advance 2 0 s.cyc).pc ∧ e ∈ t.effs ∧ e.at_ = s.cyc + w.cycles + 6 ∧ e.op = w.op (s.takeEngine w.cycles) := by
  have hp' : w.pops ≤ (s.takeEngine w.cycles).here.present := by rwa [present_takeEngine]
  obtain ⟨hengine, hsq, hpc, e, hmem, hat, hop⟩ := retire_matrixBegun (s.takeEngine w.cycles) h w hp'
  refine ⟨_, e, exec_of_issue he hi ((onEngine_of_free hf).trans (scaleCase_present hp')), ?_, ?_, ?_, hmem, hat, hop⟩
  · rw [hengine, here_takeEngine]
  · rw [hsq, sq_takeEngine]
  · rw [hpc, me_takeEngine]
    rfl

end

end Sys2Proof.Machine
end

section
/-! OBLIGATIONS. The matrix forms. -/

open Sys2Proof Sys2Proof.Machine Host

/-- Settles O35: MMA and MMAS are one operation, which meets the engine and then the scale queue; MCLR and ACCIN take the engine to write an
accumulator, and ACCMV reads one without it. -/
theorem matrixForms : Obligations.MatrixForms := by
  intro h c pa pb pm fsrc lvl planes fa0 fb0 fmt zero sat tr kblk vt row0 col0 pg s
  refine ⟨?accumulate, fun hi => waitsFor_engine (exec_mclr h c s) hi, fun hi => exec_of_engineWrite (exec_mclr h c s) hi,
    fun hi => ?accmv, fun hi => ?accinWaits, fun hi hfree => ?accin⟩
  case accumulate =>
    intro k hk
    have hop : exec k.1 s = matrixOp h c pa pb fsrc lvl planes fa0 fb0 zero kblk k.2 s := by
      revert k
      simp only [List.forall_mem_cons]
      exact ⟨rfl, rfl, List.forall_mem_nil _⟩
    intro f kb d pops slots
    refine ⟨fun hill hi => ?illegal, fun htriple hfit hi => ?legal⟩
    case illegal =>
      have hill' : s.matrixIllegal fsrc lvl planes fa0 fb0 k.2.isSome kblk = true := by simpa [State.matrixIllegal] using hill
      exact hop.trans ((matrixOp_of_illegal hill').trans (issue_illegal_of_issues hi rfl rfl))
    case legal =>
      have hleg : s.matrixIllegal fsrc lvl planes fa0 fb0 k.2.isSome kblk = false := by simpa [State.matrixIllegal] using ⟨htriple, hfit⟩
      let w := s.matrixWork c pa pb fsrc lvl planes fa0 fb0 zero kblk k.2
      have he : exec k.1 s = issue h 2 { reads := w.reads s.cur.unit }
          (fun s => s.onEngine w.cycles (fun s => s.scaleCase w.pops (fun s => .ok (s.matrixBegun h w)))) s := hop.trans (matrixOp_of_legal hleg)
      have hi : s.issues h { reads := w.reads s.cur.unit } := hi
      refine ⟨waitsFor_engine he hi, fun hfree (hp : s.here.present < w.pops) => ⟨fun (hl : s.here.sq.length < w.pops) => ?short,
        fun (hl : w.pops ≤ s.here.sq.length) => ?outstanding⟩, fun hfree (hp : w.pops ≤ s.here.present) => ?present⟩
      case short => exact exec_matrix_of_short he hi hfree hp hl
      case outstanding => exact waitsFor_scale he hi hfree hp hl
      obtain ⟨t, e, hnext, hengine, hsq, hpc, hmem, hat, heff⟩ := exec_matrix_of_present he hi hfree hp
      refine ⟨t, e, hnext, hengine, hsq, hpc, hmem, hat, ?_, w.scales _, _, w.length_scales (by rwa [present_takeEngine]), heff⟩
      rw [Eff.dest, heff]
      rfl
  case accmv => exact (exec_accmv h c vt row0 col0 fmt sat tr pg s).trans (guarded_ok hi rfl)
  case accinWaits => exact waitsFor_engine ((exec_accin h c vt row0 col0 fmt sat tr pg s).trans (guarded_true hi.1)) hi.2
  case accin =>
    rw [← State.accinCells, ← accinCells_takeEngine s 1]
    exact exec_of_engineWrite ((exec_accin h c vt row0 col0 fmt sat tr pg s).trans (guarded_true hi.1)) hi.2 hfree

end
